-- ==== Sys2Proof/Word.lean ====
section
/-! DEFINITION. The words of the machine and the plain containers that State is built from. -/
namespace Sys2Proof

/-- One byte; bit 0 is the least significant bit (R4). -/
abbrev Byte := BitVec 8
/-- A 16-bit word. -/
abbrev W16 := BitVec 16
/-- A 32-bit word: the width of a register unless its table marks it 64 (R8). -/
abbrev W32 := BitVec 32
/-- A 64-bit word. -/
abbrev W64 := BitVec 64

/-- A sparse table: key and entry pairs, keys strictly rising.  A key that is not listed has the default that
its reader names. -/
structure Tab (α : Type) where
  /-- The listed pairs, keys strictly rising. -/
  ents : List (Nat × α)
  deriving DecidableEq, Repr

/-- A memory: address and byte pairs, addresses strictly rising, no byte equal to zero.  An address that is
not listed reads as zero (log entry 5). -/
structure Mem where
  /-- The listed cells. -/
  cells : List Host.Cell
  deriving DecidableEq, Repr

/-- A byte string held sparsely: its length and the non-zero bytes below it. -/
structure Blob where
  /-- Length in bytes. -/
  len : Nat
  /-- Contents; bytes at or past `len` are not part of the string. -/
  mem : Mem
  deriving DecidableEq, Repr

end Sys2Proof
end

