-- ==== Sys2Proof/Syntax.lean ====
section
/-! DEFINITION. The commands of the block and the shapes of their operands. -/
namespace Sys2Proof

/-! ## Tile instructions (R121): the parts of a 64-bit instruction word that CLASS and OP leave -/

/-- The common head of an instruction word: its predicate and whether that is inverted. -/
structure Head where
  /-- PRED, bits [51:49]. -/
  pred : BitVec 3
  /-- PNEG, bit [48]. -/
  pneg : Bool
  deriving DecidableEq, Repr

/-- Format R. -/
structure FmtR where
  /-- D, bits [47:43]. -/
  d : BitVec 5
  /-- A, bits [42:38]. -/
  a : BitVec 5
  /-- B, bits [37:33]. -/
  b : BitVec 5
  /-- C, bits [32:28]. -/
  c : BitVec 5
  /-- MOD, bits [27:0]. -/
  mod : BitVec 28
  deriving DecidableEq, Repr

/-- Format I. -/
structure FmtI where
  /-- D, bits [47:43]. -/
  d : BitVec 5
  /-- A, bits [42:38]. -/
  a : BitVec 5
  /-- MOD[5:0], bits [37:32]. -/
  mod : BitVec 6
  /-- IMM, bits [31:0], sign-extended to 64 bits. -/
  imm : BitVec 32
  deriving DecidableEq, Repr

/-- Format IM, memory with offset. -/
structure FmtIM where
  /-- D, bits [47:43]: the register a load writes or a store takes. -/
  d : BitVec 5
  /-- A, bits [42:38]. -/
  a : BitVec 5
  /-- MOD[27:14], bits [37:24]. -/
  mod : BitVec 14
  /-- OFFSET, bits [23:0], sign-extended to 64 bits. -/
  offset : BitVec 24
  deriving DecidableEq, Repr

/-- Format M, of MMA only. -/
structure FmtM where
  /-- ACC, bits [47:45]. -/
  acc : BitVec 3
  /-- Reserved bits [44:43]. -/
  rsvd : BitVec 2
  /-- A base, bits [42:38]. -/
  a : BitVec 5
  /-- B base, bits [37:33]. -/
  b : BitVec 5
  /-- SA, bits [32:28]. -/
  sa : BitVec 5
  /-- SB, bits [27:23]. -/
  sb : BitVec 5
  /-- AFMT, bits [22:19]. -/
  afmt : BitVec 4
  /-- BFMT, bits [18:15]. -/
  bfmt : BitVec 4
  /-- ZSKIP, bit [14]. -/
  zskip : Bool
  /-- SP24, bit [13]. -/
  sp24 : Bool
  /-- BSPARSE, bit [12]. -/
  bsparse : Bool
  /-- CLR, bit [11]. -/
  clr : Bool
  /-- KDIV16, bits [10:0]. -/
  kdiv16 : BitVec 11
  deriving DecidableEq, Repr

/-- Format X. -/
structure FmtX where
  /-- D, bits [47:43]. -/
  d : BitVec 5
  /-- A, bits [42:38]. -/
  a : BitVec 5
  /-- B, bits [37:33]. -/
  b : BitVec 5
  /-- Reserved bits [32:24]. -/
  rsvd : BitVec 9
  /-- The ID fields of the operation, bits [23:0]. -/
  x : BitVec 24
  deriving DecidableEq, Repr

/-- The two forms of an operation whose operand reads "sb or imm" (R121). -/
inductive SrcB where
  /-- Format R, OP bit 7 clear: the operand is a scalar register. -/
  | reg (f : FmtR)
  /-- Format I, OP bit 7 set: the operand is an immediate. -/
  | imm (f : FmtI)
  deriving DecidableEq, Repr

/-! ## What comes from outside -/

/-- What a read of host or peer memory brings back. -/
inductive HostRead where
  /-- The bytes asked for; those past the end of the list are zero. -/
  | ok (bytes : List Byte)
  /-- The link went down, or no completion came in time. -/
  | lost
  /-- The completion carried an error indication (poison). -/
  | poisoned
  deriving DecidableEq, Repr

/-- What a long read of host memory, such as that of an image, brings back. -/
inductive HostBlob where
  /-- The bytes asked for. -/
  | ok (b : Blob)
  /-- The link went down, or no completion came in time. -/
  | lost
  /-- The completion carried an error indication. -/
  | poisoned
  deriving DecidableEq, Repr

/-- The stream whose translation missed (R436). -/
inductive WalkStream where
  /-- A tile-DMA context. -/
  | tileDma (t : Fin 512) (ctx : Fin 8)
  /-- Another stream: a QP, a dispatch, a collective, a Caddy stream or a link's BAR4 writes. -/
  | other
  deriving DecidableEq, Repr


/-- Who issued a read that got no completion in time (R335). -/
inductive ReadUser where
  /-- A ring fetch of a work queue. -/
  | ring (qid : BitVec 16)
  /-- A tile-DMA context. -/
  | tileDma (t : Fin 512) (ctx : Fin 8)
  /-- A QP, reading the source of a message or the data of a READ request. -/
  | qp (qpn : BitVec 20)
  /-- A Caddy stream. -/
  | stream (n : Fin 256)
  /-- A command: LOAD, UPDATE or IMPORT. -/
  | command
  deriving DecidableEq, Repr

/-- Where RAS detects an error (R509). -/
inductive ErrSite where
  /-- Scratchpad or memory word, by device address. -/
  | word (addr : BitVec 42)
  /-- Tile instruction store, registers or accumulators: the part 0 to 5 of R509 and index. -/
  | tile (t : Fin 512) (part : Fin 6) (index : BitVec 16)
  /-- HBM3E interface training of a channel. -/
  | hbmTraining (stack : Fin 8) (channel : Fin 16)
  /-- LP5X interface training of a channel. -/
  | lpTraining (dev : Fin 4) (channel : Fin 4)
  /-- NoC buffer. -/
  | noc (die : Fin 4) (router : Fin 8) (port : Fin 8)
  /-- A lane of a die-to-die link. -/
  | d2d (k : Fin 8) (lane : BitVec 5)
  /-- A packet-buffer cell. -/
  | packetCell (cell : BitVec 19)
  /-- A QP context. -/
  | qpContext (qpn : BitVec 20) (off : BitVec 8)
  /-- A work-queue context. -/
  | wqContext (qid : BitVec 16) (off : BitVec 6)
  /-- A memory-region entry. -/
  | mrEntry (index : BitVec 24) (off : BitVec 5)
  /-- A page of a translation table, by the device address of the entry, and the walk level. -/
  | tablePage (addr : BitVec 42) (level : Fin 5)
  /-- A block-map entry. -/
  | blockMap (index : BitVec 20)
  /-- An expert placement entry. -/
  | placement (index : BitVec 16)
  /-- A descriptor or translation cache of a die, 4 the I/O die. -/
  | cache (die : Fin 5) (entry : BitVec 18)
  /-- An XDU (false) or Samovar (true) buffer. -/
  | engineBuffer (die : Fin 4) (samovar : Bool) (buffer : BitVec 8)
  /-- A host read completion with EP set (false) or an ECRC failure (true). -/
  | completion (k : Fin 8) (ecrc : Bool) (user : ReadUser)
  /-- Duplicated control state: block, machine and number of R509. -/
  | control (block machine : BitVec 8) (inst : BitVec 16)
  /-- A Caddy pipeline's state. -/
  | pipeline (n : Fin 96)
  /-- Fuses or SEC. -/
  | fuse (bank : BitVec 8) (bit : BitVec 16)
  /-- The image staging copy, by device address. -/
  | staging (addr : BitVec 42)
  deriving DecidableEq, Repr

/-- What the one retry of a detected error shows (R504, R505). -/
inductive RetryClass where
  /-- Corrected, and clean after write-back. -/
  | correctedTransient
  /-- Corrected, and corrected again after write-back. -/
  | correctedLasting
  /-- Not correctable, clean on retry. -/
  | transient
  /-- Not correctable on retry. -/
  | lasting
  deriving DecidableEq, Repr

/-- A reference clock that can be lost alone (R583). -/
inductive RefClock where
  /-- EREF0g, of an Ethernet lane group. -/
  | eref (g : Fin 4)
  /-- OREF0d, of a die's Onaud links. -/
  | oref (d : Fin 4)
  deriving DecidableEq, Repr

/-- An instruction of the JTAG TAP, by what R499 and R500 let a debug level reach. -/
inductive TapInstr where
  | bypass | idcode
  /-- IEEE 1149.1 and 1149.6 boundary scan. -/
  | boundary
  /-- Self-test access. -/
  | selfTest
  /-- Internal scan chains. -/
  | scan
  /-- Memory test access. -/
  | memoryTest
  deriving DecidableEq, Repr

/-- An element that a power-on self-test tests (R557, R561). -/
inductive BistElem where
  | d2dLane (k : Fin 8) (lane : BitVec 8)
  | bond (cluster : Fin 32) (group : BitVec 8)
  | hbm (stack : Fin 8) (channel : Fin 16)
  | lp (dev channel : Fin 4)
  | onfLane (lane : Fin 256)
  | ethLane (lane : Fin 32)
  | pcieLane (port : Fin 4) (lane : Fin 16)
  /-- A CMOS ball, by ball index. -/
  | cmosBall (ball : BitVec 16)
  /-- A SerDes ball, by ball index, and its lane. -/
  | onfBall (ball : BitVec 16) (lane : Fin 256)
  | ethBall (ball : BitVec 16) (lane : Fin 32)
  | pcieBall (ball : BitVec 16) (port : Fin 4) (lane : Fin 16)
  deriving DecidableEq, Repr

/-- An element that failed its first test, why (REASON of R561), and whether its second test failed too. -/
structure BistFail where
  elem : BistElem
  reason : BitVec 4
  lasting : Bool
  deriving DecidableEq, Repr

/-- The head of a control cell that arrives: its link, its header and its SCOPE and BSEQ (R231, R253).  The spec lays out
no body, so a command carries the body's fields. -/
structure CtlHead where
  link : Fin 64
  hdr : BitVec 96
  scope : BitVec 8
  bseq : BitVec 16
  deriving DecidableEq, Repr
/-- The commands of the block: one constructor for each row of the spec's table of operations and events. -/
inductive Instr where
  /-- REGISTER_WRITE (R9): A write to a BAR0 register field that has no row of its own acts according to its access code. -/
  | registerWrite (fn : Fin 264) (off size : Nat) (val : W64)
  /-- RC_READ (R9): A read of a register holding an RC field returns the current value and clears it. -/
  | rcRead (fn : Fin 264) (off size : Nat)
  /-- LOWER_HALF_WRITE (R16): A 32-bit write to the lower half of a 64-bit register goes into its staging word and is not applied. -/
  | lowerHalfWrite (off : Nat) (val : W32)
  /-- UPPER_HALF_WRITE (R16): A 32-bit write to the upper half of a 64-bit register applies the whole register, with the staging word as the lower half. -/
  | upperHalfWrite (off : Nat) (val : W32)
  /-- LOWER_HALF_READ (R16): A read of the lower half of a 64-bit register latches the upper half and clears its RC fields. -/
  | lowerHalfRead (off : Nat)
  /-- LOAD (R71): IMG_CTL.LOAD starts copying the image at IMG_STAGE_ADDR into LP5X staging, or sets CMD_ERR in a state that does not accept it. -/
  | load
  /-- COMMIT (R74): IMG_CTL.COMMIT commits a VERIFIED image: whole-image steps of R74, or the hold and drain of a partition-scoped commit (R77). -/
  | commit
  /-- ABORT (R71): IMG_CTL.ABORT discards the staged image and returns the machine to EMPTY. -/
  | abort
  /-- IMAGE_COPY_DONE (R71): The staging copy and checks 1 to 4 end, moving the image to VERIFYING or REJECTED. -/
  | imageCopyDone (rd : HostBlob)
  /-- IMAGE_VERIFY_DONE (R64): The signature and anti-rollback checks end, moving the image to VERIFIED or REJECTED and posting IMAGE_DONE. -/
  | imageVerifyDone
  /-- PARTITION_DRAIN_DONE (R77): The in-flight work of partition p finishes, and steps 4 to 10 of the partition-scoped commit run. -/
  | partitionDrainDone (p : Fin 32)
  /-- DRAIN_LIMIT_EXPIRY (R78): IMG_DRAIN_LIMIT expires before the drain ends, so the commit is abandoned with REASON 0x0C. -/
  | drainLimitExpiry (p : Fin 32)
  /-- TILE_START (R74): At the first NoC frame boundary after commit or wake, the tiles of non-OFF clusters start at their entry points. -/
  | tileStart
  /-- ADD (R125): Scalar add. -/
  | add (t : Fin 512) (h : Head) (b : SrcB)
  /-- SUB (R125): Scalar subtract. -/
  | sub (t : Fin 512) (h : Head) (b : SrcB)
  /-- MUL (R125): Scalar multiply, keeping the low 64 bits. -/
  | mul (t : Fin 512) (h : Head) (b : SrcB)
  /-- AND (R125): Scalar bitwise AND. -/
  | and (t : Fin 512) (h : Head) (b : SrcB)
  /-- OR (R125): Scalar bitwise OR. -/
  | or (t : Fin 512) (h : Head) (b : SrcB)
  /-- XOR (R125): Scalar bitwise XOR. -/
  | xor (t : Fin 512) (h : Head) (b : SrcB)
  /-- SHL (R125): Scalar shift left. -/
  | shl (t : Fin 512) (h : Head) (b : SrcB)
  /-- SHR (R125): Scalar logical shift right. -/
  | shr (t : Fin 512) (h : Head) (b : SrcB)
  /-- SRA (R125): Scalar arithmetic shift right. -/
  | sra (t : Fin 512) (h : Head) (b : SrcB)
  /-- MIN (R125): Scalar signed minimum. -/
  | min (t : Fin 512) (h : Head) (b : SrcB)
  /-- MAX (R125): Scalar signed maximum. -/
  | max (t : Fin 512) (h : Head) (b : SrcB)
  /-- MINU (R125): Scalar unsigned minimum. -/
  | minu (t : Fin 512) (h : Head) (b : SrcB)
  /-- MAXU (R125): Scalar unsigned maximum. -/
  | maxu (t : Fin 512) (h : Head) (b : SrcB)
  /-- LI (R125): Loads a sign-extended immediate into a scalar register. -/
  | li (t : Fin 512) (h : Head) (f : FmtI)
  /-- LUI (R125): Loads an immediate into the upper 32 bits of a scalar register. -/
  | lui (t : Fin 512) (h : Head) (f : FmtI)
  /-- CMP (R607): Scalar compare that writes a predicate. -/
  | cmp (t : Fin 512) (h : Head) (b : SrcB)
  /-- PLOG (R607): Logical operation on two predicates. -/
  | plog (t : Fin 512) (h : Head) (f : FmtR)
  /-- LD (R125): Scalar load from scratchpad or cluster memory. -/
  | ld (t : Fin 512) (h : Head) (f : FmtIM)
  /-- ST (R125): Scalar store. -/
  | st (t : Fin 512) (h : Head) (f : FmtIM)
  /-- BR (R125): PC-relative branch. -/
  | br (t : Fin 512) (h : Head) (f : FmtI)
  /-- CALL (R132): Pushes the return address and jumps. -/
  | call (t : Fin 512) (h : Head) (f : FmtI)
  /-- RET (R132): Pops the return address, discarding loops opened at the call depth it leaves. -/
  | ret (t : Fin 512) (h : Head) (f : FmtR)
  /-- LOOP (R131): Opens a hardware loop over the following body. -/
  | loop (t : Fin 512) (h : Head) (f : FmtI)
  /-- VADD (R110): Vector FP32 add. -/
  | vadd (t : Fin 512) (h : Head) (f : FmtR)
  /-- VSUB (R110): Vector FP32 subtract. -/
  | vsub (t : Fin 512) (h : Head) (f : FmtR)
  /-- VMUL (R110): Vector FP32 multiply. -/
  | vmul (t : Fin 512) (h : Head) (f : FmtR)
  /-- VFMA (R110): Vector fused multiply-add. -/
  | vfma (t : Fin 512) (h : Head) (f : FmtR)
  /-- VDIV (R110): Vector divide. -/
  | vdiv (t : Fin 512) (h : Head) (f : FmtR)
  /-- VRCP (R110): Vector reciprocal. -/
  | vrcp (t : Fin 512) (h : Head) (f : FmtR)
  /-- VSQRT (R110): Vector square root. -/
  | vsqrt (t : Fin 512) (h : Head) (f : FmtR)
  /-- VRSQ (R110): Vector reciprocal square root. -/
  | vrsq (t : Fin 512) (h : Head) (f : FmtR)
  /-- VEXP2 (R110): Vector base-2 exponential. -/
  | vexp2 (t : Fin 512) (h : Head) (f : FmtR)
  /-- VEXP (R110): Vector base-e exponential. -/
  | vexp (t : Fin 512) (h : Head) (f : FmtR)
  /-- VLOG2 (R110): Vector base-2 logarithm. -/
  | vlog2 (t : Fin 512) (h : Head) (f : FmtR)
  /-- VLOG (R110): Vector natural logarithm. -/
  | vlog (t : Fin 512) (h : Head) (f : FmtR)
  /-- VTANH (R110): Vector hyperbolic tangent. -/
  | vtanh (t : Fin 512) (h : Head) (f : FmtR)
  /-- VSIG (R110): Vector sigmoid by the fixed step sequence. -/
  | vsig (t : Fin 512) (h : Head) (f : FmtR)
  /-- VSILU (R110): Vector SiLU by the fixed step sequence. -/
  | vsilu (t : Fin 512) (h : Head) (f : FmtR)
  /-- VMIN (R110): Vector minimum. -/
  | vmin (t : Fin 512) (h : Head) (f : FmtR)
  /-- VMAX (R110): Vector maximum. -/
  | vmax (t : Fin 512) (h : Head) (f : FmtR)
  /-- VCMP (R607): Vector compare that writes a predicate. -/
  | vcmp (t : Fin 512) (h : Head) (f : FmtR)
  /-- VSEL (R125): Vector select by predicate. -/
  | vsel (t : Fin 512) (h : Head) (f : FmtR)
  /-- VABS (R110): Vector absolute value. -/
  | vabs (t : Fin 512) (h : Head) (f : FmtR)
  /-- VNEG (R110): Vector negate. -/
  | vneg (t : Fin 512) (h : Head) (f : FmtR)
  /-- VCVT (R607): Vector conversion between FP32 and INT32. -/
  | vcvt (t : Fin 512) (h : Head) (f : FmtR)
  /-- VIOP (R607): Vector integer operation selected by MOD. -/
  | viop (t : Fin 512) (h : Head) (f : FmtR)
  /-- VRED (R111): Fixed-tree reduction across 32 lanes into a scalar. -/
  | vred (t : Fin 512) (h : Head) (f : FmtR)
  /-- VQMX (R112): Quantises a vector register into one MX block. -/
  | vqmx (t : Fin 512) (h : Head) (f : FmtR)
  /-- VDQMX (R113): Dequantises one MX block into a vector register. -/
  | vdqmx (t : Fin 512) (h : Head) (f : FmtR)
  /-- VBCST (R125): Broadcasts a scalar into every lane. -/
  | vbcst (t : Fin 512) (h : Head) (f : FmtR)
  /-- VLD (R125): Vector load of 128 B. -/
  | vld (t : Fin 512) (h : Head) (f : FmtIM)
  /-- VST (R125): Vector store of 128 B. -/
  | vst (t : Fin 512) (h : Head) (f : FmtIM)
  /-- VLDN (R125): Vector load of packed narrow lanes. -/
  | vldn (t : Fin 512) (h : Head) (f : FmtIM)
  /-- VSTN (R125): Vector store of packed narrow lanes with rounding. -/
  | vstn (t : Fin 512) (h : Head) (f : FmtIM)
  /-- MMA (R127): Starts a matrix multiply-accumulate on the array that holds the named accumulator. -/
  | mma (t : Fin 512) (h : Head) (f : FmtM)
  /-- ACCUMULATOR_READY (R86): An MMA's last k-step plus 8 cycles has passed, and its accumulator is ready for write-out. -/
  | accumulatorReady (t : Fin 512) (acc : Fin 8)
  /-- MWR (R130): Converts and writes an accumulator tile to scratchpad. -/
  | mwr (t : Fin 512) (h : Head) (f : FmtR)
  /-- MLD (R125): Loads raw accumulator cells. -/
  | mld (t : Fin 512) (h : Head) (f : FmtR)
  /-- MST (R125): Stores raw accumulator cells. -/
  | mst (t : Fin 512) (h : Head) (f : FmtR)
  /-- MZERO (R125): Zeroes an accumulator tile. -/
  | mzero (t : Fin 512) (h : Head) (f : FmtR)
  /-- SMCHK (R125): Checks 2:4 metadata blocks and sets a predicate. -/
  | smchk (t : Fin 512) (h : Head) (f : FmtR)
  /-- BMPOP (R125): Counts set bits of a bitmap prefix. -/
  | bmpop (t : Fin 512) (h : Head) (f : FmtR)
  /-- BMIDX (R125): Counts set bits below a bit index. -/
  | bmidx (t : Fin 512) (h : Head) (f : FmtR)
  /-- DMA (R141): Starts a tile-DMA descriptor on a context. -/
  | dma (t : Fin 512) (h : Head) (f : FmtX)
  /-- DMA_WAIT (R125): Waits for a DMA context to go IDLE and returns its status. -/
  | dmaWait (t : Fin 512) (h : Head) (f : FmtX)
  /-- TILE_DMA_DONE (R141): A tile-DMA transfer lands its last byte or ends on a fault, sending any NOTIFY message. -/
  | tileDmaDone (t : Fin 512) (ctx : Fin 8) (rd : HostRead)
  /-- SEND (R146): Sends a 64-byte message on a channel, taking one credit. -/
  | send (t : Fin 512) (h : Head) (f : FmtX)
  /-- RECV (R147): Takes the oldest message of a mailbox and returns its credit. -/
  | recv (t : Fin 512) (h : Head) (f : FmtX)
  /-- RECV_ANY (R147): Takes the first message to arrive in any masked mailbox; variant. -/
  | recvAny (t : Fin 512) (h : Head) (f : FmtX)
  /-- MESSAGE_ARRIVAL (R149): A NoC message reaches a mailbox and is delivered, or dropped on role-epoch mismatch. -/
  | messageArrival (t : Fin 512) (mb : Fin 8)
  /-- BAR (R151): Arrives at a partition barrier. -/
  | bar (t : Fin 512) (h : Head) (f : FmtX)
  /-- FENCE (R153): Waits until the tile's earlier stores and atomics are performed. -/
  | fence (t : Fin 512) (h : Head) (f : FmtR)
  /-- ATADD_I (R153): Integer atomic add on cluster memory. -/
  | ataddI (t : Fin 512) (h : Head) (f : FmtIM)
  /-- ATMIN_I (R153): Integer atomic minimum on cluster memory. -/
  | atminI (t : Fin 512) (h : Head) (f : FmtIM)
  /-- ATMAX_I (R153): Integer atomic maximum on cluster memory. -/
  | atmaxI (t : Fin 512) (h : Head) (f : FmtIM)
  /-- ATADD_F (R117): FP32 atomic add on cluster memory; variant. -/
  | ataddF (t : Fin 512) (h : Head) (f : FmtIM)
  /-- NOP (R125): Does nothing for one cycle. -/
  | nop (t : Fin 512) (h : Head) (f : FmtR)
  /-- HALT (R136): Stops issue and waits for DMA contexts and SENDs to drain. -/
  | halt (t : Fin 512) (h : Head) (f : FmtR)
  /-- TILE_HALTED (R136): The drain after HALT ends, and the tile enters HALTED. -/
  | tileHalted (t : Fin 512)
  /-- RDFLAG (R115): Reads AFLAGS after earlier arithmetic completes. -/
  | rdflag (t : Fin 512) (h : Head) (f : FmtR)
  /-- CLRFLAG (R114): Clears AFLAGS bits by mask. -/
  | clrflag (t : Fin 512) (h : Head) (f : FmtI)
  /-- SEED (R102): Sets the stochastic-rounding seed and clears the counter. -/
  | seed (t : Fin 512) (h : Head) (f : FmtR)
  /-- RDID (R125): Reads the logical tile ID and partition. -/
  | rdid (t : Fin 512) (h : Head) (f : FmtR)
  /-- RDCYC (R125): Reads the tile's cycle counter; variant. -/
  | rdcyc (t : Fin 512) (h : Head) (f : FmtR)
  /-- RDPTIME (R125): Reads pod time; variant. -/
  | rdptime (t : Fin 512) (h : Head) (f : FmtR)
  /-- RDTRNG (R125): Reads 64 random bits; variant. -/
  | rdtrng (t : Fin 512) (h : Head) (f : FmtR)
  /-- STALL_LIMIT (R138): A BAR, FENCE, DMA.WAIT or SEND credit wait exceeds CLU_STALL_LIMIT, and the tile takes the exception. -/
  | stallLimit (t : Fin 512)
  /-- TILE_STOPPED (R137): After an exception, the tile's started transfers finish; the tile enters STOPPED and posts TILE_STOPPED. -/
  | tileStopped (t : Fin 512)
  /-- TILE_RESTART (R140): A CLU_TILE_RESTART write restarts a HALTED or eligible STOPPED tile. -/
  | tileRestart (c : Fin 32) (mask : BitVec 16)
  /-- REGISTER (R192): MEM_BLK_CMD REGISTER makes FREE block entries SERVING as KV pages. -/
  | register (count : BitVec 16)
  /-- UNREGISTER (R192): MEM_BLK_CMD UNREGISTER starts copying dirty data home and freeing the entries. -/
  | unregister (count : BitVec 16)
  /-- BLOCK_CMD_DONE (R192): A block command completes, and BLOCK_CMD_DONE is posted. -/
  | blockCmdDone
  /-- PLACEMENT_EPOCH_END (R180): A 1 ms placement epoch ends; scores update and moves are decided. -/
  | placementEpochEnd (takers : List (Nat × Nat))
  /-- MOVE_START (R181): A decided move starts copying toward its target. -/
  | moveStart (p : Fin 32)
  /-- COPY_PASS_DONE (R188): A copy or recopy pass of a move ends, leading to another recopy, the final pass or abandonment. -/
  | copyPassDone (entry : BitVec 20)
  /-- MOVE_SWITCH (R186): The final recopy under held writes ends, and the entry switches its serving location in one update. -/
  | moveSwitch (entry : BitVec 20)
  /-- LAST_READER_DONE (R178): The last reader of the old location finishes, the old copy is freed and the entry returns to SERVING. -/
  | lastReaderDone (entry : BitVec 20)
  /-- SCRUB_PASS (R169): Background scrubbing reaches and checks a word, writing back corrections. -/
  | scrubPass (addr : BitVec 42)
  /-- CLUSTER_CLEAR_DONE (R174): A waking cluster's memory clear finishes, and waiting accesses proceed. -/
  | clusterClearDone (c : Fin 32)
  /-- REFRESH (R172): A per-bank DRAM refresh interval expires. -/
  | refresh
  /-- PERIODIC_RETRAINING (R172): A channel's periodic interface retraining falls due. -/
  | periodicRetraining
  /-- FULL_RETRAINING (R172): A 10 °C change since the last full retraining starts a full retraining. -/
  | fullRetraining
  /-- PLACE (R190): A PLACE control message names the frame of a cross-device placement switch. -/
  | place (h : CtlHead) (part : Fin 32) (layer expert : BitVec 16) (rank : Fin 64) (frame : Nat)
  /-- PLACEMENT_FRAME_SWITCH (R190): At the named frame boundary, the expert placement table switches RANK pod-wide. -/
  | placementFrameSwitch (index : BitVec 16)
  /-- SWITCH_ACKNOWLEDGEMENT (R190): A switch acknowledgement cell reaches the old serving rank. -/
  | switchAcknowledgement (src : Fin 64) (index : BitVec 16)
  /-- ZONE_COUNTER_WRITE (R196): A 4-byte flagged write into window 255 increments a zone counter. -/
  | zoneCounterWrite (fn : Fin 264) (off size : Nat) (poisoned : Bool)
  /-- DISPATCH_FIRE (R195): The oldest unfired dispatch descriptor meets its threshold and becomes a dispatch context, after validation and sorting. -/
  | dispatchFire (qid : BitVec 16)
  /-- BATCH_LEAVE (R206): A steep window opens, and up to CAP tokens of an expert leave as a batch. -/
  | batchLeave (die : Fin 4) (slot : Fin 64) (expert : BitVec 16) (opens : Bool)
  /-- DONE_MESSAGE (R211): A serving program's done message reaches the XDU. -/
  | doneMessage (die : Fin 4)
  /-- BATCH_TIMEOUT (R212): A batch waits past XDU_BATCH_TIMEOUT, and its context ends FLUSHED. -/
  | batchTimeout (id : W32)
  /-- REMOTE_BATCH (R214): A remote batch arrives at the serving rank and is placed on a cluster. -/
  | remoteBatch (src : Fin 64)
  /-- REMOTE_RESULT (R215): A remote result arrives at the origin XDU and enters the combine. -/
  | remoteResult (src : Fin 64)
  /-- RESULT_FLAG (R219): Every data write of a context has landed, and the result flag is written. -/
  | resultFlag (die : Fin 4) (slot : Fin 64)
  /-- EPT_DATA0_READ (R223): A read of XDU_EPT_DATA0 latches the whole placement entry. -/
  | eptData0Read
  /-- EPOCH_NAK (R255): An EPOCH_NAK reaches the source, whose engine ends the named context with ROLE_EPOCH_MISMATCH. -/
  | epochNak (n : Fin 64) (hdr : BitVec 96) (payload : BitVec 512)
  /-- TRAINING_RESTART (R225): 100 ms after entering DOWN, an Onaud link starts training again. -/
  | trainingRestart (n : Fin 64)
  /-- TRAINING_DONE (R227): Training steps end, moving the link to ADMIT or DOWN. -/
  | trainingDone (n : Fin 64) (lanes : BitVec 4) (ok : Bool)
  /-- ADMISSION (R228): At a frame boundary with every admission condition met, the link becomes UP or DEGRADED. -/
  | admission (n : Fin 64) (aligned : Bool)
  /-- PEER_SILENT (R226): 64 slots pass without a good cell, and the link enters RETRAINING. -/
  | peerSilent (n : Fin 64)
  /-- RETRAIN_DONE (R225): Retraining ends with 4 or 3 good lanes, and the link returns to UP or DEGRADED. -/
  | retrainDone (n : Fin 64) (lanes : BitVec 4)
  /-- RETRAIN_LIMIT (R225): The 20 µs retraining limit expires, and the link goes DOWN, losing its replay buffer. -/
  | retrainLimit (n : Fin 64)
  /-- IDLE (R232): An IDLE cell is received, carrying LACK and credit returns. -/
  | idle (n : Fin 64) (hdr : BitVec 96)
  /-- DATA (R255): A DATA cell is received: checked, delivered, forwarded in transit or dropped. -/
  | data (n : Fin 64) (hdr : BitVec 96) (payload : BitVec 512)
  /-- LINK_NAK (R243): A LINK_NAK makes the sender replay from LACK + 1. -/
  | linkNak (n : Fin 64) (hdr : BitVec 96)
  /-- IDENT (R227): An IDENT cell carries the peer's identity for training and admission. -/
  | ident (n : Fin 64) (rank link : Fin 64) (strap : Bool) (leader : BitVec 8) (committed : Bool) (podImage : W64) (epoch : W32)
  /-- ECHO_REQ (R229): An ECHO_REQ is answered with an ECHO_RSP. -/
  | echoReq (n : Fin 64)
  /-- ECHO_RSP (R229): An ECHO_RSP completes a latency measurement. -/
  | echoRsp (n : Fin 64) (rt hold : Nat)
  /-- SWITCH (R254): A SWITCH control message announces a route-set and schedule change at a named frame. -/
  | switch (h : CtlHead) (set : Fin 4) (frame : Nat) (epoch : BitVec 16) (lost recal : W64)
  /-- FAULT (R260): A FAULT control message reports a link or rank change, and the leader may choose a new route set. -/
  | fault (h : CtlHead) (reporter link : Fin 64) (state : Fin 7) (lost : Option (Fin 64))
  /-- FENCE_BROADCAST (R263): A FENCE control message makes every device drop cells to and from the fenced ranks. -/
  | fenceBroadcast (h : CtlHead) (mask : W64)
  /-- PODTIME (R251): A PODTIME message aligns pod time and settles leadership. -/
  | podtime (h : CtlHead) (leader : Fin 64) (time : W64) (frames : BitVec 16) (en : Bool) (hops : Nat)
  /-- CLAIM (R248): A CLAIM message from a strapped device is heard in the leader election. -/
  | claim (h : CtlHead) (rank : Fin 64)
  /-- CMAP (R266): A CMAP part reaches the leader, which writes complete records to its ring. -/
  | cmap (h : CtlHead) (rank : Fin 64) (part : Fin 12) (data : BitVec 384)
  /-- PODTIME_SEND (R251): Every 16 frames the leader sends PODTIME on every UP link. -/
  | podtimeSend
  /-- CLAIM_SEND (R248): Every 16th frame a strapped claimant sends CLAIM. -/
  | claimSend
  /-- LEADER_SILENCE (R247): 64 frames without PODTIME make the first unlost backup rank the leader. -/
  | leaderSilence
  /-- ELECTION_CLOSE (R248): 1,024 frames after the first UP link, the leader election closes. -/
  | electionClose
  /-- SWITCH_FRAME (R254): At the announced frame, route set, schedule and LAT0 change together and SCHED_EPOCH advances. -/
  | switchFrame
  /-- LATENCY_REMEASURE (R256): Every 64 frames an ECHO measurement updates LAT_NOW and may set SLIP. -/
  | latencyRemeasure (n : Fin 64) (rt hold : Nat)
  /-- CMAP_INTERVAL_END (R265): At the end of each interval every member sends its congestion-map record to the leader. -/
  | cmapIntervalEnd
  /-- ONF_FENCE_WRITE (R263): A write of ONF_FENCE on the leader makes it broadcast FENCE. -/
  | onfFenceWrite (w : W64)
  /-- ONF_RECAL (R257): A write of ONF_RECAL recalibrates the named links at the next SWITCH, or posts RECAL_REFUSED. -/
  | onfRecal (w : W64)
  /-- ROUTE_CMD_GO (R267): ONF_ROUTE_CMD.GO on the leader announces the ordered route set. -/
  | routeCmdGo (w : W32)
  /-- RETRAIN (R268): ONF_LINKn_CTL.RETRAIN puts the link into RETRAINING. -/
  | retrain (n : Fin 64) (w : W32)
  /-- LINK_DISABLE (R225): Writing ONF_LINKn_CTL.DISABLE holds the link DISABLED, or releases it to TRAINING. -/
  | linkDisable (n : Fin 64) (w : W32)
  /-- COLLECTIVE (R275): A collective descriptor is taken by its slice, assigned a SEQ and starts its handshake. -/
  | collective (qid : BitVec 16)
  /-- GATHER (R280): A GATHER cell is held, updated and forwarded around the ring, or answered with VERDICT at member 0. -/
  | gather (die : Fin 4) (src : Fin 64)
  /-- VERDICT (R281): A VERDICT cell starts data or ends the collective with COLLECTIVE_MISMATCH. -/
  | verdict (die : Fin 4) (src : Fin 64)
  /-- DATA_HDR (R286): A data burst arrives; its partials are combined and sent on or written to DST. -/
  | dataHdr (die : Fin 4) (src : Fin 64)
  /-- COMMIT_READY (R287): A member's writes have landed and reads returned, so it sends or forwards COMMIT. -/
  | commitReady (group : BitVec 8)
  /-- COLLECTIVE_COMMIT (R287): A COMMIT cell arrives, is forwarded, or completes the commit round at member 0. -/
  | collectiveCommit (die : Fin 4) (src : Fin 64)
  /-- RELEASE (R287): A RELEASE cell arrives, and the member completes the collective. -/
  | release (die : Fin 4) (src : Fin 64)
  /-- SEQNUM_BASE (R276): A SEQNUM BASE sets SEQ of every instance of one group. -/
  | seqnumBase (h : CtlHead) (group : BitVec 8) (seq : W32) (origin : Fin 64)
  /-- SEQNUM_BASE_ALL (R276): A SEQNUM BASE_ALL sets SEQ of every group instance. -/
  | seqnumBaseAll (h : CtlHead) (seq : W32) (origin : Fin 64)
  /-- SEQNUM_ABORT (R292): A SEQNUM ABORT ends the running SEQ or records the abort for later. -/
  | seqnumAbort (h : CtlHead) (group : BitVec 8) (anchor : Fin 64) (status : BitVec 8) (seq : W32) (members : W64) (origin : Fin 64)
  /-- GATHER_HOLD_TIMEOUT (R293): A GATHER held for TIMEOUT_US without a descriptor makes the slice send an ABORT with MEMBER_LOST. -/
  | gatherHoldTimeout (group : BitVec 8)
  /-- MEMBER_WAIT_TIMEOUT (R293): 2 × TIMEOUT_US without a cell ends the collective with MEMBER_LOST. -/
  | memberWaitTimeout (group : BitVec 8)
  /-- SEQ_BASE_GO (R276): SMV_SEQ_CMD.GO on the leader broadcasts BASE or BASE_ALL. -/
  | seqBaseGo (w : W32)
  /-- LAG_CLEAR (R298): SMV_LAG_CLEAR clears every lag counter. -/
  | lagClear (w : W32)
  /-- DOORBELL (R316): A 64-bit doorbell write is accepted or dropped, with INV and ARM. -/
  | doorbell (fn : Fin 264) (off size : Nat) (val : W64)
  /-- EQ_CONSUMER_WORD (R327): A consumer-word write updates CONSUMED and ARM, and collapsed events are posted as space returns. -/
  | eqConsumerWord (fn : Fin 264) (val : W64)
  /-- PEER_WRITE (R306): A posted write through a BAR4 window is checked and lands in its region, or is dropped. -/
  | peerWrite (fn : Fin 264) (off : Nat) (bytes : List Byte) (poisoned : Bool)
  /-- BAR4_READ (R309): A read of BAR4 completes with Unsupported Request. -/
  | bar4Read (fn : Fin 264) (off : Nat)
  /-- CXL_MEM_ACCESS (R302): A CXL.mem access to the exposed HBM3E range, with back-invalidation before device use. -/
  | cxlMemAccess (line : Nat) (data : Option (BitVec 512))
  /-- CREATE_WQ (R313): Creates a work queue from the staged context, or refuses it. -/
  | createWq (qid : BitVec 16)
  /-- DESTROY_WQ (R602): Moves a queue to DRAINING or reports the outcome for its state. -/
  | destroyWq (qid : BitVec 16)
  /-- QUERY_WQ (R311): Returns a queue context. -/
  | queryWq (qid : BitVec 16)
  /-- CREATE_EQ (R326): Creates a function's event queue, or refuses it. -/
  | createEq (target : BitVec 16)
  /-- DESTROY_EQ (R598): Removes a function's event queue. -/
  | destroyEq (target : BitVec 16)
  /-- QUERY_EQ (R599): Returns a function's event-queue state. -/
  | queryEq (target : BitVec 16)
  /-- ENTRY_FETCH (R317): A ring fetch returns; entries whose SEQ matches start, others are refetched or malformed. -/
  | entryFetch (qid : BitVec 16) (rd : HostRead)
  /-- REFETCH (R317): 1 µs after a SEQ mismatch, the slot is fetched again. -/
  | refetch (qid : BitVec 16) (rd : HostRead)
  /-- ENTRY_COMPLETION (R321): An engine finishes an entry; header write-back and HEAD advance follow. -/
  | entryCompletion (qid : BitVec 16)
  /-- COMPLETION_WORD_WRITE (R324): COAL × 100 ns after an unpublished HEAD advance, the completion word is written, with MSI-X if armed. -/
  | completionWordWrite (qid : BitVec 16)
  /-- HOST_LINK_LOSS (R336): A link goes down or is reset, ending the contexts behind it and putting its functions' queues LOST. -/
  | hostLinkLoss (k : Fin 8)
  /-- LINK_RECOVERY (R334): A PCIe link enters Recovery while its packets are held. -/
  | linkRecovery (k : Fin 8)
  /-- CPL_TIMEOUT (R335): A read gets no completion in time; it is reissued once, then ends its context with HOST_LOST. -/
  | cplTimeout (k : Fin 8) (user : ReadUser)
  /-- REINIT (R337): HIF_LINKk_CTL.REINIT returns the link's queues and event queues to RESET and clears their roots. -/
  | reinit (k : Fin 8)
  /-- RX_FRAME (R344): A received Ethernet frame passes decode, checks, pause, MACsec, Strainer, policing, admission and delivery. -/
  | rxFrame (p : Fin 32) (bytes : List Byte) (pcsErr : Bool) (corr uncorr : BitVec 32)
  /-- PAUSE_EXPIRY (R354): A received pause time runs out, and the class may send again. -/
  | pauseExpiry (p : Fin 32) (c : Fin 8)
  /-- PFC_REPEAT (R355): A pause is repeated every 32,767 quanta while a lossless class stays above XON. -/
  | pfcRepeat (p : Fin 32) (c : Fin 8)
  /-- FRAME_TRANSMIT (R369): The port picks and starts the next eligible frame under strict priority, DRR, CBS, gates and SFQ. -/
  | frameTransmit (p : Fin 32)
  /-- GROUP_MODE_WRITE (R343): A write of ETH_GRP_MODE sets lane groups and starts port training. -/
  | groupModeWrite (val : W32)
  /-- PORT_TRAINING_DONE (R343): A port's link training ends, and the port is UP. -/
  | portTrainingDone (p : Fin 32)
  /-- PORT_DOWN (R343): A port leaves UP; its pause timers and CBS credits clear and its staging FIFO is discarded. -/
  | portDown (p : Fin 32)
  /-- GATE_ENTRY (R365): A gate-list entry's interval ends and the next entry's gates take effect. -/
  | gateEntry (p : Fin 32)
  /-- GATE_GO (R367): TXS_GATEp_CTL.GO checks the new list and sets a pending switch, or sets SWITCH_ERR. -/
  | gateGo (p : Fin 32) (list en : Bool)
  /-- GATE_SWITCH (R367): At the first cycle start of the new list at least 1 µs after GO, the list changes. -/
  | gateSwitch (p : Fin 32)
  /-- RULE_WRITE (R350): ETH_STR_CMD.WRITE replaces a Strainer rule in one update. -/
  | ruleWrite
  /-- RULE_READ (R380): ETH_STR_CMD.READ copies a rule into the DATA registers. -/
  | ruleRead
  /-- SA_WRITE (R377): ETH_SA_CMD.WRITE replaces a MACsec SA entry in one update. -/
  | saWrite
  /-- SA_READ (R377): ETH_SA_CMD.READ copies an SA entry into the DATA registers. -/
  | saRead
  /-- PTP_ADJ (R373): A write of ETH_PTP_ADJ steps the PTP clock once. -/
  | ptpAdj (step : W64)
  /-- WHEEL_SLOT (R368): A timing-wheel slot becomes current, making its QPs and subscribers eligible or moving coarse entries fine. -/
  | wheelSlot (coarse : Bool) (slot : BitVec 12)
  /-- TXS_SAMPLE (R371): Every 10 µs a subscriber sample record is written to the ring. -/
  | txsSample
  /-- HWM_READ (R372): A read of TXS_HWM_DATA returns and clears the subscriber's high-water marks. -/
  | hwmRead
  /-- TXTS_READ (R375): A read of ETH_PORTp_TXTS returns and removes the oldest transmit timestamp. -/
  | txtsRead (p : Fin 32)
  /-- CREATE_QP (R387): Creates a QP in INIT from the staged context, or refuses it. -/
  | createQp (qpn : BitVec 24)
  /-- MODIFY_RTR (R387): Moves a QP to RTR with its path fields. -/
  | modifyRtr (qpn : BitVec 24)
  /-- MODIFY_RTS (R387): Moves a QP to RTS with its send PSN and retry fields. -/
  | modifyRts (qpn : BitVec 24)
  /-- TO_ERROR (R389): Moves a QP to ERROR and flushes its entries. -/
  | toError (qpn : BitVec 24)
  /-- QP_DRAINED (R389): The last flush of a QP in ERROR is published, and QP_DRAINED is posted. -/
  | qpDrained (qpn : BitVec 20)
  /-- DESTROY_QP (R388): Returns a flushed QP to RESET. -/
  | destroyQp (qpn : BitVec 24)
  /-- QUERY_QP (R387): Returns a QP context. -/
  | queryQp (qpn : BitVec 24)
  /-- CREATE_AH (R421): Writes a UD address handle. -/
  | createAh (index : BitVec 24)
  /-- DESTROY_AH (R421): Removes a UD address handle. -/
  | destroyAh (index : BitVec 24)
  /-- CTX_CACHE_FLUSH (R386): QPE_CTX_CACHE_CTL.FLUSH writes every dirty cached QP context back to HBM3E. -/
  | ctxCacheFlush
  /-- QP_SEND (R390): A SEND work request starts on an RC or UD QP. -/
  | qpSend (qid : BitVec 16) (rd : HostRead)
  /-- QP_SEND_IMM (R390): A SEND_IMM work request starts. -/
  | qpSendImm (qid : BitVec 16) (rd : HostRead)
  /-- QP_WRITE (R390): An RDMA WRITE work request starts. -/
  | qpWrite (qid : BitVec 16) (rd : HostRead)
  /-- QP_WRITE_IMM (R390): An RDMA WRITE_IMM work request starts. -/
  | qpWriteImm (qid : BitVec 16) (rd : HostRead)
  /-- QP_READ (R390): An RDMA READ work request starts. -/
  | qpRead (qid : BitVec 16)
  /-- CMP_SWAP (R391): A compare-and-swap work request starts. -/
  | cmpSwap (qid : BitVec 16)
  /-- FETCH_ADD (R391): A fetch-and-add work request starts. -/
  | fetchAdd (qid : BitVec 16)
  /-- QP_RECV (R392): A RECV entry is consumed by an arriving message and completed. -/
  | qpRecv (qpn : BitVec 20)
  /-- TRIGGERED_START (R393): A head SEND-queue entry whose trigger counter meets its threshold starts. -/
  | triggeredStart (qid : BitVec 16) (rd : HostRead)
  /-- REQUEST_PACKET (R397): An arriving SEND or WRITE packet is served, NAKed, dropped or treated as a duplicate. -/
  | requestPacket (qpn : BitVec 20)
  /-- TRIGGER_INCREMENT (R394): Once a trigger message's writes have landed, its TRIG_CNT counter increments. -/
  | triggerIncrement (qpn : BitVec 20)
  /-- READ_REQUEST (R399): An arriving READ request is checked and answered with responses. -/
  | readRequest (qpn : BitVec 20) (rd : HostRead)
  /-- ATOMIC_REQUEST (R400): An arriving CmpSwap or FetchAdd is executed or answered from the cache. -/
  | atomicRequest (qpn : BitVec 20) (routed : Bool) (rd : HostRead)
  /-- ACKNOWLEDGE (R398): An arriving Acknowledge advances UNA_PSN and finishes covered entries. -/
  | acknowledge (qpn : BitVec 20)
  /-- SEQUENCE_ERROR_NAK (R398): A PSN sequence-error NAK makes the requester retransmit from the named PSN. -/
  | sequenceErrorNak (qpn : BitVec 20)
  /-- RNR_NAK (R402): An RNR NAK makes the requester wait the named time. -/
  | rnrNak (qpn : BitVec 20)
  /-- ERROR_NAK (R401): An invalid-request, access or operational NAK ends the entry with REMOTE_ERROR and moves the QP to ERROR. -/
  | errorNak (qpn : BitVec 20)
  /-- READ_RESPONSE (R395): An arriving READ response places its data at LADDR. -/
  | readResponse (qpn : BitVec 20)
  /-- ATOMIC_ACKNOWLEDGE (R395): An Atomic Acknowledge writes the original value at LADDR. -/
  | atomicAcknowledge (qpn : BitVec 20)
  /-- UD_PACKET (R392): An arriving UD SEND is placed in a RECV entry or dropped. -/
  | udPacket (qpn : BitVec 20)
  /-- CNP (R415): An arriving CNP lowers the QP's rate under the congestion algorithm. -/
  | cnp (qpn : BitVec 20)
  /-- RTT_REQ (R416): An RTT_REQ is answered with an RTT_RSP carrying T2 and T3. -/
  | rttReq (qpn : BitVec 20)
  /-- RTT_RSP (R416): An RTT_RSP yields a round-trip time that may cut the rate. -/
  | rttRsp (qpn : BitVec 20)
  /-- ACK_TIMEOUT (R398): The acknowledgement timer expires, and the requester retransmits or exhausts its retries. -/
  | ackTimeout (qpn : BitVec 20)
  /-- RNR_WAIT_EXPIRY (R402): The RNR wait ends, and the requester retransmits. -/
  | rnrWaitExpiry (qpn : BitVec 20)
  /-- ACK_DELAY (R397): ACK_DELAY_NS after the last unacknowledged packet lands, the responder sends an Acknowledge. -/
  | ackDelay (qpn : BitVec 20)
  /-- UNORDERED_GAP (R404): RQ_EPSN stays behind a landed packet for GAP_US, and a sequence-error NAK is sent. -/
  | unorderedGap (qpn : BitVec 20)
  /-- ALPHA_DECAY (R415): ALPHA_US passes without a CNP, and ALPHA decays. -/
  | alphaDecay (qpn : BitVec 20)
  /-- TIMER_INCREASE (R415): T_INC_US passes since the last decrease, and a timer increase event raises the rate. -/
  | timerIncrease (qpn : BitVec 20)
  /-- BYTE_INCREASE (R415): B_COUNT reaches B_INC, and a byte increase event raises the rate. -/
  | byteIncrease (qpn : BitVec 20)
  /-- RTT_PROBE (R416): Every INTERVAL_US an RTT_REQ is sent. -/
  | rttProbe (qpn : BitVec 20)
  /-- REG_MR (R425): Registers a memory region and returns its key, or refuses it. -/
  | regMr (index : BitVec 24)
  /-- REVOKE (R428): Revokes a region at a revoke point and starts its drain. -/
  | revoke (index : BitVec 24)
  /-- REVOKE_DONE (R429): The last unit that passed before the revoke point ends, and the entry returns to FREE. -/
  | revokeDone (index : BitVec 24)
  /-- QUERY_MR (R442): Returns a memory-region entry. -/
  | queryMr (index : BitVec 24)
  /-- SET_ROOT (R431): Sets a DTU root's level-1 table, function and link. -/
  | setRoot (target : BitVec 24)
  /-- CLEAR_ROOT (R431): Invalidates a DTU root. -/
  | clearRoot (target : BitVec 24)
  /-- UPDATE (R434): Reads and applies an array of table-page stores. -/
  | update (rd : HostRead)
  /-- SYNC_FENCE (R435): Discards cached translations of the named roots and waits for earlier units. -/
  | syncFence (target : BitVec 24)
  /-- SYNC_DONE (R435): Earlier units under the roots have ended, and SYNC_DONE is posted. -/
  | syncDone
  /-- WALK_DONE (R436): A table walk for a translation miss ends, releasing or failing its stream. -/
  | walkDone (stream : WalkStream) (waited : Bool)
  /-- ENABLE (R453): Enables a bound function, or refuses it. -/
  | enable (target : BitVec 9)
  /-- DISABLE (R454): Starts the drain of a function toward DISABLED. -/
  | disable (target : BitVec 9)
  /-- FLR (R454): A function-level reset of a VF or data-only PF drains it and returns it to ENABLED. -/
  | flr (fn : Fin 264)
  /-- VF_ENABLE_CLEAR (R453): Clearing VF Enable disables every VF not already disabled or draining. -/
  | vfEnableClear
  /-- FN_DRAIN_DONE (R454): A function's drain completes; its regions, roots, queues and QPs reset and FN_STATE is posted. -/
  | fnDrainDone (fn : Fin 264)
  /-- DRAIN_STUCK (R455): VFM_FNf_DRAIN_US reaches 100,000 with the drain incomplete. -/
  | drainStuck (fn : Fin 264)
  /-- FORCE_CLEAR (R455): Completes a stuck drain at once, discarding unsent work. -/
  | forceClear (target : BitVec 9)
  /-- FREEZE (R457): Moves an ENABLED VF to FREEZING. -/
  | freeze (target : BitVec 9)
  /-- FREEZE_DONE (R457): Nothing of the VF remains outstanding; its QPs and it become FROZEN. -/
  | freezeDone (fn : Fin 264)
  /-- CANCEL (R457): Returns a FREEZING VF to service. -/
  | cancel (target : BitVec 9)
  /-- SAVE (R459): Writes a FROZEN VF's state image. -/
  | save (target : BitVec 9)
  /-- RESTORE (R461): Loads a state image into a VF and enables it. -/
  | restore (target : BitVec 9) (rd : HostBlob)
  /-- FN_MBOX_SEND (R449): A function's SEND delivers its OUT message to PF0. -/
  | fnMboxSend (fn : Fin 264)
  /-- FN_MBOX_ACK (R449): A function's ACK takes its IN message. -/
  | fnMboxAck (fn : Fin 264)
  /-- PF0_MBOX_SEND (R449): PF0's SEND delivers VFM_FNf_TO to the function. -/
  | pf0MboxSend (fn : Fin 264)
  /-- PF0_MBOX_ACK (R449): PF0's ACK takes the function's message. -/
  | pf0MboxAck (fn : Fin 264)
  /-- IMPORT (R474): Unwraps and loads a key record into a slot, or refuses it. -/
  | import (slot : Fin 16384) (rd : HostRead)
  /-- ERASE (R475): Empties a key slot at an erase point. -/
  | erase (slot : Fin 16384)
  /-- KEY_OVERWRITE (R475): The last unit under an erased key ends, and the key material is overwritten. -/
  | keyOverwrite (slot : Fin 16384)
  /-- QUERY (R476): Returns a key slot's fields and KCV in CAD_SLOT_INFO. -/
  | query (slot : Fin 16384)
  /-- XTS_ENCRYPT (R479): A CIPHER entry starts an XTS encryption stream. -/
  | xtsEncrypt (qid : BitVec 16)
  /-- XTS_DECRYPT (R479): A CIPHER entry starts an XTS decryption stream. -/
  | xtsDecrypt (qid : BitVec 16)
  /-- UNIT_DONE (R466): A pipeline finishes a unit and takes the next one under the class shares. -/
  | unitDone (stream : Fin 256) (rd : HostRead)
  /-- RNG_HEALTH_FAIL (R487): A pipeline's randomness source fails its health test and is retested or fenced. -/
  | rngHealthFail (pipe : Fin 96) (again : Bool)
  /-- ADVANCE_ROLLBACK (R492): Starts blowing anti-rollback fuses up to target V, or refuses. -/
  | advanceRollback (v : BitVec 7)
  /-- FUSE_BLOW_DONE (R492): A fuse blow ends and is read back, leading to the next fuse, a second blow or ROLLBACK_DONE. -/
  | fuseBlowDone (blown : Bool)
  /-- DEBUG_TOKEN (R500): Checks a debug token and sets the debug level, then draws a new nonce. -/
  | debugToken (rd : HostRead)
  /-- SANITIZE (R501): Starts ending contexts, emptying key slots, clearing memory and discarding the image. -/
  | sanitize
  /-- SANITIZE_DONE (R501): Every SANITIZE step ends, and SANITIZE_DONE is posted. -/
  | sanitizeDone
  /-- PROGRAM_OWNER_KEY (R494): Blows 32 bytes into OWNER_KEY once. -/
  | programOwnerKey (rd : HostRead)
  /-- ALIAS_CERT_DONE (R495): The alias certificate has been built and signed. -/
  | aliasCertDone
  /-- GET_VERSION (R497): SPDM GET_VERSION answered with version 1.3. -/
  | getVersion (mctp : Bool)
  /-- GET_CAPABILITIES (R497): SPDM GET_CAPABILITIES answered. -/
  | getCapabilities (mctp : Bool)
  /-- NEGOTIATE_ALGORITHMS (R497): SPDM NEGOTIATE_ALGORITHMS answered. -/
  | negotiateAlgorithms (mctp : Bool)
  /-- GET_DIGESTS (R497): SPDM GET_DIGESTS answered for slot 0. -/
  | getDigests (mctp : Bool)
  /-- GET_CERTIFICATE (R497): SPDM GET_CERTIFICATE returns the chain. -/
  | getCertificate (mctp : Bool) (slot : BitVec 8) (off len : BitVec 16)
  /-- CHALLENGE (R497): SPDM CHALLENGE starts an alias-key signature, or gets ERROR Busy. -/
  | challenge (mctp : Bool) (slot : BitVec 8) (summary : Bool) (nonce : BitVec 256)
  /-- GET_MEASUREMENTS (R497): SPDM GET_MEASUREMENTS returns blocks 1 to 5, signed on request. -/
  | getMeasurements (mctp : Bool) (index : BitVec 8) (signed : Bool) (nonce : BitVec 256)
  /-- UNSUPPORTED_SPDM_REQUEST (R497): Any other SPDM request receives ERROR UnsupportedRequest. -/
  | unsupportedSpdmRequest (mctp : Bool)
  /-- SIGNATURE_DONE (R498): The signing engine finishes, and the signed SPDM response is sent. -/
  | signatureDone
  /-- ERROR_DETECT (R504): A detected error starts its single retry. -/
  | errorDetect (site : ErrSite)
  /-- RETRY_DONE (R504): The retry ends, classifying the error and applying containment, sparing or fencing. -/
  | retryDone (site : ErrSite) (cls : RetryClass)
  /-- DUP_MISMATCH (R516): The copies of a control state machine disagree, and the transition is repeated once. -/
  | dupMismatch (block machine : BitVec 8) (inst : BitVec 16) (again : Bool)
  /-- FENCE_CMD (R520): A write of RAS_FENCE_CMD fences a cluster, die, channel or pipeline. -/
  | fenceCmd (w : W32)
  /-- LOG_DATA0_READ (R526): A read of RAS_LOG_DATA0 latches the selected record. -/
  | logData0Read
  /-- PWROK_RISE (R552): PWROK rises. -/
  | pwrokRise
  /-- PWROK_FALL (R530): PWROK falls, and cold reset follows within 1 µs. -/
  | pwrokFall
  /-- COLD_RESET_RELEASE (R574): Cold reset releases; straps are sampled and start-up begins. -/
  | coldResetRelease (split : BitVec 4) (cxl leader testen : Bool) (smb : BitVec 3)
  /-- KETTLE_LOCK (R532): Kettle locks after release of cold reset. -/
  | kettleLock
  /-- INIT_DONE (R552): Start-up steps 2 to 4 end, and INIT_DONE rises. -/
  | initDone
  /-- COLD_PIN (R548): COLD_RST_N low causes a cold reset. -/
  | coldPin
  /-- WARM_PIN (R548): WARM_RST_N low for 1 µs causes a warm reset. -/
  | warmPin
  /-- BROWNOUT (R531): A watched rail stays below 92 % for 1 µs, causing a cold reset. -/
  | brownout
  /-- KETTLE_LOSS (R532): The Kettle reference or lock is lost for over 1 µs, causing a cold reset. -/
  | kettleLoss
  /-- THERMTRIP (R543): A sensor reads 125 °C or more, driving THERMTRIP_N low and causing a cold reset. -/
  | thermtrip
  /-- PERST (R548): PERSTn_N asserts the fundamental reset of a port's links. -/
  | perst (n : Fin 4)
  /-- PWRBRAKE_ASSERT (R540): PWRBRAKE_N low for 100 ns makes the brake requester name BRAKE_NOTCH. -/
  | pwrbrakeAssert
  /-- PWRBRAKE_RELEASE (R540): PWRBRAKE_N rises, and the brake requester names 0. -/
  | pwrbrakeRelease
  /-- BRAKE_STEP_DOWN (R540): Every 100 µs after brake release, the applied notch falls by one. -/
  | brakeStepDown
  /-- STANDBY (R544): PWR_CMD STANDBY starts entering standby, or is refused. -/
  | standby
  /-- STANDBY_DONE (R544): The standby sequence ends, and POWER STANDBY is posted. -/
  | standbyDone
  /-- WAKE (R544): PWR_CMD WAKE starts leaving standby. -/
  | wake
  /-- WAKE_DONE (R544): The wake sequence ends, and POWER ACTIVE is posted. -/
  | wakeDone
  /-- WARM_RESET (R551): PWR_CMD WARM_RESET starts a warm reset. -/
  | warmReset
  /-- WARM_RESET_DONE (R551): The warm reset ends, and INIT_DONE rises. -/
  | warmResetDone
  /-- PF0_FLR (R550): An FLR of PF0 ends its own contexts and clears VF Enable. -/
  | pf0Flr
  /-- POWER_ESTIMATE (R537): Every 10 µs the power estimate is updated. -/
  | powerEstimate (now : BitVec 16)
  /-- CAP_CHECK (R538): Every 100 µs the cap requester compares the average with CAP_W and steps its notch. -/
  | capCheck
  /-- SENSOR_SCAN (R541): Every 10 µs the 48 temperature sensors are read. -/
  | sensorScan (readings : BitVec 768)
  /-- THERMAL_RAISE (R542): Every 100 µs at or above T_THROT, the thermal notch rises by one. -/
  | thermalRaise
  /-- THERMAL_LOWER (R542): Every 1 ms below T_THROT − 3 °C, the thermal notch falls by one. -/
  | thermalLower
  /-- DIVIDER_CHANGE (R533): At a NoC frame boundary, the CCLK divider changes to the applied notch. -/
  | dividerChange
  /-- BIST_GROUP_START (R557): A power-on self-test group starts at its staggered time. -/
  | bistGroupStart (g : Fin 8)
  /-- BIST_GROUP_DONE (R559): A self-test group ends, classifying its failures. -/
  | bistGroupDone (g : Fin 8) (fails : List BistFail) (us : BitVec 16)
  /-- SVC_ONAUD_LINK (R563): BST_SVC_CMD kind 1 starts an in-service test of an Onaud link. -/
  | svcOnaudLink (index : BitVec 16)
  /-- SVC_D2D_SPARES (R562): BST_SVC_CMD kind 2 tests a die-to-die link's spare lanes. -/
  | svcD2dSpares (index : BitVec 16)
  /-- SVC_ETH_PORT (R562): BST_SVC_CMD kind 3 tests a DOWN Ethernet port. -/
  | svcEthPort (index : BitVec 16)
  /-- LINK_QUIET (R563): The link under test becomes quiet, saves its state and runs its PRBS test. -/
  | linkQuiet (n : Fin 64)
  /-- QUIET_TIMEOUT (R563): The link is not quiet within 1 ms, and the test ends with ACCESS_ERROR. -/
  | quietTimeout (n : Fin 64)
  /-- PRBS_DONE (R563): PRBS_MS expires, classifying the result and starting restore training. -/
  | prbsDone (first again : BitVec 32) (reason : BitVec 4)
  /-- SVC_RESTORE_DONE (R565): The tested link resumes and rejoins its bundle, and BST_DONE is posted. -/
  | svcRestoreDone (n : Fin 64) (lanes : BitVec 4) (lat : BitVec 8) (ok : Bool)
  /-- SET_ENDPOINT_ID (R586): MCTP Set Endpoint ID. -/
  | setEndpointId (eid : BitVec 8)
  /-- GET_ENDPOINT_ID (R586): MCTP Get Endpoint ID. -/
  | getEndpointId
  /-- GET_ENDPOINT_UUID (R586): MCTP Get Endpoint UUID. -/
  | getEndpointUuid
  /-- GET_MCTP_VERSION_SUPPORT (R586): MCTP Get MCTP Version Support. -/
  | getMctpVersionSupport (type : BitVec 8)
  /-- GET_MESSAGE_TYPE_SUPPORT (R586): MCTP Get Message Type Support. -/
  | getMessageTypeSupport
  /-- SETTID (R587): PLDM SetTID. -/
  | settid (tid : BitVec 8)
  /-- GETTID (R587): PLDM GetTID. -/
  | gettid
  /-- GETPLDMVERSION (R587): PLDM GetPLDMVersion. -/
  | getpldmversion (type : BitVec 8)
  /-- GETPLDMTYPES (R587): PLDM GetPLDMTypes. -/
  | getpldmtypes
  /-- GETPLDMCOMMANDS (R587): PLDM GetPLDMCommands. -/
  | getpldmcommands (type : BitVec 8)
  /-- GETSENSORREADING (R588): PLDM GetSensorReading of a numeric sensor. -/
  | getsensorreading (sensor : BitVec 16)
  /-- GETSTATESENSORREADINGS (R588): PLDM GetStateSensorReadings. -/
  | getstatesensorreadings (sensor : BitVec 16)
  /-- SETNUMERICSENSORENABLE (R588): PLDM SetNumericSensorEnable. -/
  | setnumericsensorenable (sensor : BitVec 16) (on : Bool)
  /-- SETSTATESENSORENABLES (R588): PLDM SetStateSensorEnables. -/
  | setstatesensorenables (sensor : BitVec 16) (on : Bool)
  /-- GETPDRREPOSITORYINFO (R587): PLDM GetPDRRepositoryInfo. -/
  | getpdrrepositoryinfo
  /-- GETPDR (R587): PLDM GetPDR. -/
  | getpdr (handle : BitVec 32)
  /-- POLLFORPLATFORMEVENTMESSAGE (R589): Returns and removes the oldest queued sensor event, releasing the alert when empty. -/
  | pollforplatformeventmessage
  /-- UNSUPPORTED_PLDM_CMD (R587): Any other PLDM command completes with ERROR_UNSUPPORTED_PLDM_CMD. -/
  | unsupportedPldmCmd (type command : BitVec 8)
  /-- GET_BST (R590): Vendor command returning self-test state. -/
  | getBst
  /-- GET_RECORD (R590): Vendor command returning one RAS record through its own latch. -/
  | getRecord (entry : BitVec 8)
  /-- GET_STATE (R590): Vendor command returning identity and reset state. -/
  | getState
  /-- VENDOR_WARM_RESET (R590): Vendor WARM_RESET starts a warm reset with cause WARM_MGT when enabled. -/
  | vendorWarmReset
  /-- ALERT_RESPONSE (R585): A read of the Alert Response Address is answered. -/
  | alertResponse
  /-- CRC_FAILURE (R243): An Onaud cell arrives with a bad CRC, an unknown TYPE or CLASS, or an unexpected LSEQ; the receiver discards it and later cells and sends LINK_NAK, and a second failure of the same LSEQ moves the link to RETRAINING (R244). -/
  | crcFailure (n : Fin 64)
  /-- FRAME_START (R252): At each Onaud frame start the rate guard is stretched or shrunk toward pod time and, when the frame start lies beyond ±8 slots, ONF_ALIGN_ERR counts the frame. -/
  | frameStart
  /-- REFERENCE_CLOCK_LOSS (R583): An OREF0d or EREF0g reference stops or leaves its frequency by more than 1,000 ppm, so every Onaud link of die d enters RETRAINING or every port of lane group g leaves UP. -/
  | referenceClockLoss (ref : RefClock)
  /-- REFERENCE_CLOCK_RETURN (R583): A lost EREF0g reference returns and the ports of its lane group start training again. -/
  | referenceClockReturn (g : Fin 4)
  /-- PERST_RELEASE (R577): PERSTn_N rises; the links of port n leave Detect and train, at once or when INIT_DONE rises. -/
  | perstRelease (n : Fin 4)
  /-- HOST_LINK_UP (R337): A PCIe link finishes training and reaches UP, HIF_LINKk_STATUS shows UP and PCIE_LINK is posted, after which REINIT may bring its functions back. -/
  | hostLinkUp (k : Fin 8) (gen : Fin 8) (width : BitVec 5) (flit cxl : Bool)
  /-- VF_ENABLE_SET (R453): Host software sets VF Enable and NumVFs in P0.A's SR-IOV capability, which ENABLE of a VF requires. -/
  | vfEnableSet (num : Fin 256)
  /-- RAILS_WITHIN_TOLERANCE (R576): VDD_IO18 and VDD_AON come within tolerance, and Holanes starts driving INIT_DONE low and releasing its open-drain outputs high. -/
  | railsWithinTolerance
  /-- TAP_INSTRUCTION (R577): An external JTAG TAP instruction is shifted in and acts as the debug level allows, or is held off as BYPASS before INIT_DONE. -/
  | tapInstruction (i : TapInstr)
  /-- UNSUPPORTED_MESSAGE_TYPE (R586): An MCTP message of an unsupported type is answered with the MCTP error for an unsupported type. -/
  | unsupportedMessageType (type : BitVec 8)
  /-- PEC_ERROR (R586): An SMBus packet whose PEC fails is dropped, counted in MGT_PEC_ERR, and the bus is released after the SMBus timeout. -/
  | pecError
  /-- UNKNOWN_VENDOR_COMMAND (R590): A vendor-defined request with an unknown command byte receives completion code 0x02. -/
  | unknownVendorCommand (command : BitVec 8)
  deriving DecidableEq, Repr

end Sys2Proof
end

