-- ==== Sys2Proof/Decode.lean ====
section
/-! DEFINITION. Decoding: the table gives its rows no bits, so no word spells a command; and the 64-bit instruction words of
tiles (R121, R122, R125). -/
namespace Sys2Proof

/-- The command that a word spells by the table's bits: the table gives no row any bits, so there is none. -/
def decodeTableWord (_nbits _w : Nat) : Option Instr := none

/-! ## Tile instruction words -/

/-- The head of a word. -/
def wordHead (w : W64) : Head := ⟨w.extractLsb' 49 3, w.getLsbD 48⟩

/-- Format R. -/
def wordR (w : W64) : FmtR := ⟨w.extractLsb' 43 5, w.extractLsb' 38 5, w.extractLsb' 33 5, w.extractLsb' 28 5, w.extractLsb' 0 28⟩

/-- Format I. -/
def wordI (w : W64) : FmtI := ⟨w.extractLsb' 43 5, w.extractLsb' 38 5, w.extractLsb' 32 6, w.extractLsb' 0 32⟩

/-- Format IM. -/
def wordIM (w : W64) : FmtIM := ⟨w.extractLsb' 43 5, w.extractLsb' 38 5, w.extractLsb' 24 14, w.extractLsb' 0 24⟩

/-- Format M. -/
def wordM (w : W64) : FmtM :=
  ⟨w.extractLsb' 45 3, w.extractLsb' 43 2, w.extractLsb' 38 5, w.extractLsb' 33 5, w.extractLsb' 28 5, w.extractLsb' 23 5,
   w.extractLsb' 19 4, w.extractLsb' 15 4, w.getLsbD 14, w.getLsbD 13, w.getLsbD 12, w.getLsbD 11, w.extractLsb' 0 11⟩

/-- Format X. -/
def wordX (w : W64) : FmtX := ⟨w.extractLsb' 43 5, w.extractLsb' 38 5, w.extractLsb' 33 5, w.extractLsb' 24 9, w.extractLsb' 0 24⟩

/-- The instruction of a word for tile t, by CLASS and OP; none for a word whose CLASS or OP the table does not hold, or whose OP has
bit 7 set where there is no Format I form (R122).  Its reserved bits are checked as it issues. -/
def tileDecode (t : Fin 512) (w : W64) : Option Instr :=
  match (w.extractLsb' 60 4).toNat, (w.extractLsb' 52 8).toNat with
  | 0, 0x01 => some (.add t (wordHead w) (.reg (wordR w)))
  | 0, 0x81 => some (.add t (wordHead w) (.imm (wordI w)))
  | 0, 0x02 => some (.sub t (wordHead w) (.reg (wordR w)))
  | 0, 0x82 => some (.sub t (wordHead w) (.imm (wordI w)))
  | 0, 0x03 => some (.mul t (wordHead w) (.reg (wordR w)))
  | 0, 0x83 => some (.mul t (wordHead w) (.imm (wordI w)))
  | 0, 0x04 => some (.and t (wordHead w) (.reg (wordR w)))
  | 0, 0x84 => some (.and t (wordHead w) (.imm (wordI w)))
  | 0, 0x05 => some (.or t (wordHead w) (.reg (wordR w)))
  | 0, 0x85 => some (.or t (wordHead w) (.imm (wordI w)))
  | 0, 0x06 => some (.xor t (wordHead w) (.reg (wordR w)))
  | 0, 0x86 => some (.xor t (wordHead w) (.imm (wordI w)))
  | 0, 0x07 => some (.shl t (wordHead w) (.reg (wordR w)))
  | 0, 0x87 => some (.shl t (wordHead w) (.imm (wordI w)))
  | 0, 0x08 => some (.shr t (wordHead w) (.reg (wordR w)))
  | 0, 0x88 => some (.shr t (wordHead w) (.imm (wordI w)))
  | 0, 0x09 => some (.sra t (wordHead w) (.reg (wordR w)))
  | 0, 0x89 => some (.sra t (wordHead w) (.imm (wordI w)))
  | 0, 0x0a => some (.min t (wordHead w) (.reg (wordR w)))
  | 0, 0x8a => some (.min t (wordHead w) (.imm (wordI w)))
  | 0, 0x0b => some (.max t (wordHead w) (.reg (wordR w)))
  | 0, 0x8b => some (.max t (wordHead w) (.imm (wordI w)))
  | 0, 0x0c => some (.minu t (wordHead w) (.reg (wordR w)))
  | 0, 0x8c => some (.minu t (wordHead w) (.imm (wordI w)))
  | 0, 0x0d => some (.maxu t (wordHead w) (.reg (wordR w)))
  | 0, 0x8d => some (.maxu t (wordHead w) (.imm (wordI w)))
  | 0, 0x0e => some (.li t (wordHead w) (wordI w))
  | 0, 0x0f => some (.lui t (wordHead w) (wordI w))
  | 0, 0x10 => some (.cmp t (wordHead w) (.reg (wordR w)))
  | 0, 0x90 => some (.cmp t (wordHead w) (.imm (wordI w)))
  | 0, 0x11 => some (.plog t (wordHead w) (wordR w))
  | 0, 0x18 => some (.ld t (wordHead w) (wordIM w))
  | 0, 0x19 => some (.st t (wordHead w) (wordIM w))
  | 0, 0x20 => some (.br t (wordHead w) (wordI w))
  | 0, 0x21 => some (.call t (wordHead w) (wordI w))
  | 0, 0x22 => some (.ret t (wordHead w) (wordR w))
  | 0, 0x23 => some (.loop t (wordHead w) (wordI w))
  | 1, 0x01 => some (.vadd t (wordHead w) (wordR w))
  | 1, 0x02 => some (.vsub t (wordHead w) (wordR w))
  | 1, 0x03 => some (.vmul t (wordHead w) (wordR w))
  | 1, 0x04 => some (.vfma t (wordHead w) (wordR w))
  | 1, 0x05 => some (.vdiv t (wordHead w) (wordR w))
  | 1, 0x06 => some (.vrcp t (wordHead w) (wordR w))
  | 1, 0x07 => some (.vsqrt t (wordHead w) (wordR w))
  | 1, 0x08 => some (.vrsq t (wordHead w) (wordR w))
  | 1, 0x09 => some (.vexp2 t (wordHead w) (wordR w))
  | 1, 0x0a => some (.vexp t (wordHead w) (wordR w))
  | 1, 0x0b => some (.vlog2 t (wordHead w) (wordR w))
  | 1, 0x0c => some (.vlog t (wordHead w) (wordR w))
  | 1, 0x0d => some (.vtanh t (wordHead w) (wordR w))
  | 1, 0x0e => some (.vsig t (wordHead w) (wordR w))
  | 1, 0x0f => some (.vsilu t (wordHead w) (wordR w))
  | 1, 0x10 => some (.vmin t (wordHead w) (wordR w))
  | 1, 0x11 => some (.vmax t (wordHead w) (wordR w))
  | 1, 0x12 => some (.vcmp t (wordHead w) (wordR w))
  | 1, 0x13 => some (.vsel t (wordHead w) (wordR w))
  | 1, 0x14 => some (.vabs t (wordHead w) (wordR w))
  | 1, 0x15 => some (.vneg t (wordHead w) (wordR w))
  | 1, 0x16 => some (.vcvt t (wordHead w) (wordR w))
  | 1, 0x17 => some (.viop t (wordHead w) (wordR w))
  | 1, 0x18 => some (.vred t (wordHead w) (wordR w))
  | 1, 0x19 => some (.vqmx t (wordHead w) (wordR w))
  | 1, 0x1a => some (.vdqmx t (wordHead w) (wordR w))
  | 1, 0x1b => some (.vbcst t (wordHead w) (wordR w))
  | 1, 0x1c => some (.vld t (wordHead w) (wordIM w))
  | 1, 0x1d => some (.vst t (wordHead w) (wordIM w))
  | 1, 0x1e => some (.vldn t (wordHead w) (wordIM w))
  | 1, 0x1f => some (.vstn t (wordHead w) (wordIM w))
  | 2, 0x01 => some (.mma t (wordHead w) (wordM w))
  | 2, 0x02 => some (.mwr t (wordHead w) (wordR w))
  | 2, 0x03 => some (.mld t (wordHead w) (wordR w))
  | 2, 0x04 => some (.mst t (wordHead w) (wordR w))
  | 2, 0x05 => some (.mzero t (wordHead w) (wordR w))
  | 3, 0x01 => some (.smchk t (wordHead w) (wordR w))
  | 3, 0x02 => some (.bmpop t (wordHead w) (wordR w))
  | 3, 0x03 => some (.bmidx t (wordHead w) (wordR w))
  | 4, 0x01 => some (.dma t (wordHead w) (wordX w))
  | 4, 0x02 => some (.dmaWait t (wordHead w) (wordX w))
  | 5, 0x01 => some (.send t (wordHead w) (wordX w))
  | 5, 0x02 => some (.recv t (wordHead w) (wordX w))
  | 5, 0x03 => some (.recvAny t (wordHead w) (wordX w))
  | 6, 0x01 => some (.bar t (wordHead w) (wordX w))
  | 6, 0x02 => some (.fence t (wordHead w) (wordR w))
  | 6, 0x03 => some (.ataddI t (wordHead w) (wordIM w))
  | 6, 0x04 => some (.atminI t (wordHead w) (wordIM w))
  | 6, 0x05 => some (.atmaxI t (wordHead w) (wordIM w))
  | 6, 0x06 => some (.ataddF t (wordHead w) (wordIM w))
  | 7, 0x00 => some (.nop t (wordHead w) (wordR w))
  | 7, 0x01 => some (.halt t (wordHead w) (wordR w))
  | 7, 0x02 => some (.rdflag t (wordHead w) (wordR w))
  | 7, 0x03 => some (.clrflag t (wordHead w) (wordI w))
  | 7, 0x04 => some (.seed t (wordHead w) (wordR w))
  | 7, 0x05 => some (.rdid t (wordHead w) (wordR w))
  | 7, 0x06 => some (.rdcyc t (wordHead w) (wordR w))
  | 7, 0x07 => some (.rdptime t (wordHead w) (wordR w))
  | 7, 0x08 => some (.rdtrng t (wordHead w) (wordR w))
  | _, _ => none

/-- The 48 bits of a body in Format R. -/
def bodyR (f : FmtR) : BitVec 48 := f.d ++ f.a ++ f.b ++ f.c ++ f.mod

/-- Format I. -/
def bodyI (f : FmtI) : BitVec 48 := f.d ++ f.a ++ f.mod ++ f.imm

/-- Format IM. -/
def bodyIM (f : FmtIM) : BitVec 48 := f.d ++ f.a ++ f.mod ++ f.offset

/-- Format M. -/
def bodyM (f : FmtM) : BitVec 48 :=
  f.acc ++ f.rsvd ++ f.a ++ f.b ++ f.sa ++ f.sb ++ f.afmt ++ f.bfmt ++ BitVec.ofBool f.zskip ++ BitVec.ofBool f.sp24 ++
  BitVec.ofBool f.bsparse ++ BitVec.ofBool f.clr ++ f.kdiv16

/-- Format X. -/
def bodyX (f : FmtX) : BitVec 48 := f.d ++ f.a ++ f.b ++ f.rsvd ++ f.x

/-- A word from its CLASS, OP, head and body. -/
def pack (cls : BitVec 4) (op : BitVec 8) (h : Head) (body : BitVec 48) : W64 := cls ++ op ++ h.pred ++ BitVec.ofBool h.pneg ++ body

/-- A word of an operation with the two forms of "sb or imm". -/
def packB (cls : BitVec 4) (op : BitVec 8) (h : Head) (b : SrcB) : W64 :=
  match b with
  | .reg f => pack cls op h (bodyR f)
  | .imm f => pack cls (op ||| 0x80) h (bodyI f)

/-- The word of a tile instruction; none for any other command. -/
def tileEncode (i : Instr) : Option W64 :=
  match i with
  | .add _ h b => some (packB 0 0x01 h b)
  | .sub _ h b => some (packB 0 0x02 h b)
  | .mul _ h b => some (packB 0 0x03 h b)
  | .and _ h b => some (packB 0 0x04 h b)
  | .or _ h b => some (packB 0 0x05 h b)
  | .xor _ h b => some (packB 0 0x06 h b)
  | .shl _ h b => some (packB 0 0x07 h b)
  | .shr _ h b => some (packB 0 0x08 h b)
  | .sra _ h b => some (packB 0 0x09 h b)
  | .min _ h b => some (packB 0 0x0a h b)
  | .max _ h b => some (packB 0 0x0b h b)
  | .minu _ h b => some (packB 0 0x0c h b)
  | .maxu _ h b => some (packB 0 0x0d h b)
  | .li _ h f => some (pack 0 0x0e h (bodyI f))
  | .lui _ h f => some (pack 0 0x0f h (bodyI f))
  | .cmp _ h b => some (packB 0 0x10 h b)
  | .plog _ h f => some (pack 0 0x11 h (bodyR f))
  | .ld _ h f => some (pack 0 0x18 h (bodyIM f))
  | .st _ h f => some (pack 0 0x19 h (bodyIM f))
  | .br _ h f => some (pack 0 0x20 h (bodyI f))
  | .call _ h f => some (pack 0 0x21 h (bodyI f))
  | .ret _ h f => some (pack 0 0x22 h (bodyR f))
  | .loop _ h f => some (pack 0 0x23 h (bodyI f))
  | .vadd _ h f => some (pack 1 0x01 h (bodyR f))
  | .vsub _ h f => some (pack 1 0x02 h (bodyR f))
  | .vmul _ h f => some (pack 1 0x03 h (bodyR f))
  | .vfma _ h f => some (pack 1 0x04 h (bodyR f))
  | .vdiv _ h f => some (pack 1 0x05 h (bodyR f))
  | .vrcp _ h f => some (pack 1 0x06 h (bodyR f))
  | .vsqrt _ h f => some (pack 1 0x07 h (bodyR f))
  | .vrsq _ h f => some (pack 1 0x08 h (bodyR f))
  | .vexp2 _ h f => some (pack 1 0x09 h (bodyR f))
  | .vexp _ h f => some (pack 1 0x0a h (bodyR f))
  | .vlog2 _ h f => some (pack 1 0x0b h (bodyR f))
  | .vlog _ h f => some (pack 1 0x0c h (bodyR f))
  | .vtanh _ h f => some (pack 1 0x0d h (bodyR f))
  | .vsig _ h f => some (pack 1 0x0e h (bodyR f))
  | .vsilu _ h f => some (pack 1 0x0f h (bodyR f))
  | .vmin _ h f => some (pack 1 0x10 h (bodyR f))
  | .vmax _ h f => some (pack 1 0x11 h (bodyR f))
  | .vcmp _ h f => some (pack 1 0x12 h (bodyR f))
  | .vsel _ h f => some (pack 1 0x13 h (bodyR f))
  | .vabs _ h f => some (pack 1 0x14 h (bodyR f))
  | .vneg _ h f => some (pack 1 0x15 h (bodyR f))
  | .vcvt _ h f => some (pack 1 0x16 h (bodyR f))
  | .viop _ h f => some (pack 1 0x17 h (bodyR f))
  | .vred _ h f => some (pack 1 0x18 h (bodyR f))
  | .vqmx _ h f => some (pack 1 0x19 h (bodyR f))
  | .vdqmx _ h f => some (pack 1 0x1a h (bodyR f))
  | .vbcst _ h f => some (pack 1 0x1b h (bodyR f))
  | .vld _ h f => some (pack 1 0x1c h (bodyIM f))
  | .vst _ h f => some (pack 1 0x1d h (bodyIM f))
  | .vldn _ h f => some (pack 1 0x1e h (bodyIM f))
  | .vstn _ h f => some (pack 1 0x1f h (bodyIM f))
  | .mma _ h f => some (pack 2 0x01 h (bodyM f))
  | .mwr _ h f => some (pack 2 0x02 h (bodyR f))
  | .mld _ h f => some (pack 2 0x03 h (bodyR f))
  | .mst _ h f => some (pack 2 0x04 h (bodyR f))
  | .mzero _ h f => some (pack 2 0x05 h (bodyR f))
  | .smchk _ h f => some (pack 3 0x01 h (bodyR f))
  | .bmpop _ h f => some (pack 3 0x02 h (bodyR f))
  | .bmidx _ h f => some (pack 3 0x03 h (bodyR f))
  | .dma _ h f => some (pack 4 0x01 h (bodyX f))
  | .dmaWait _ h f => some (pack 4 0x02 h (bodyX f))
  | .send _ h f => some (pack 5 0x01 h (bodyX f))
  | .recv _ h f => some (pack 5 0x02 h (bodyX f))
  | .recvAny _ h f => some (pack 5 0x03 h (bodyX f))
  | .bar _ h f => some (pack 6 0x01 h (bodyX f))
  | .fence _ h f => some (pack 6 0x02 h (bodyR f))
  | .ataddI _ h f => some (pack 6 0x03 h (bodyIM f))
  | .atminI _ h f => some (pack 6 0x04 h (bodyIM f))
  | .atmaxI _ h f => some (pack 6 0x05 h (bodyIM f))
  | .ataddF _ h f => some (pack 6 0x06 h (bodyIM f))
  | .nop _ h f => some (pack 7 0x00 h (bodyR f))
  | .halt _ h f => some (pack 7 0x01 h (bodyR f))
  | .rdflag _ h f => some (pack 7 0x02 h (bodyR f))
  | .clrflag _ h f => some (pack 7 0x03 h (bodyI f))
  | .seed _ h f => some (pack 7 0x04 h (bodyR f))
  | .rdid _ h f => some (pack 7 0x05 h (bodyR f))
  | .rdcyc _ h f => some (pack 7 0x06 h (bodyR f))
  | .rdptime _ h f => some (pack 7 0x07 h (bodyR f))
  | .rdtrng _ h f => some (pack 7 0x08 h (bodyR f))
  | _ => none

/-- The tile that a tile instruction is issued on. -/
def instrTile (i : Instr) : Option (Fin 512) :=
  match i with
  | .add t _ _ => some t
  | .sub t _ _ => some t
  | .mul t _ _ => some t
  | .and t _ _ => some t
  | .or t _ _ => some t
  | .xor t _ _ => some t
  | .shl t _ _ => some t
  | .shr t _ _ => some t
  | .sra t _ _ => some t
  | .min t _ _ => some t
  | .max t _ _ => some t
  | .minu t _ _ => some t
  | .maxu t _ _ => some t
  | .li t _ _ => some t
  | .lui t _ _ => some t
  | .cmp t _ _ => some t
  | .plog t _ _ => some t
  | .ld t _ _ => some t
  | .st t _ _ => some t
  | .br t _ _ => some t
  | .call t _ _ => some t
  | .ret t _ _ => some t
  | .loop t _ _ => some t
  | .vadd t _ _ => some t
  | .vsub t _ _ => some t
  | .vmul t _ _ => some t
  | .vfma t _ _ => some t
  | .vdiv t _ _ => some t
  | .vrcp t _ _ => some t
  | .vsqrt t _ _ => some t
  | .vrsq t _ _ => some t
  | .vexp2 t _ _ => some t
  | .vexp t _ _ => some t
  | .vlog2 t _ _ => some t
  | .vlog t _ _ => some t
  | .vtanh t _ _ => some t
  | .vsig t _ _ => some t
  | .vsilu t _ _ => some t
  | .vmin t _ _ => some t
  | .vmax t _ _ => some t
  | .vcmp t _ _ => some t
  | .vsel t _ _ => some t
  | .vabs t _ _ => some t
  | .vneg t _ _ => some t
  | .vcvt t _ _ => some t
  | .viop t _ _ => some t
  | .vred t _ _ => some t
  | .vqmx t _ _ => some t
  | .vdqmx t _ _ => some t
  | .vbcst t _ _ => some t
  | .vld t _ _ => some t
  | .vst t _ _ => some t
  | .vldn t _ _ => some t
  | .vstn t _ _ => some t
  | .mma t _ _ => some t
  | .mwr t _ _ => some t
  | .mld t _ _ => some t
  | .mst t _ _ => some t
  | .mzero t _ _ => some t
  | .smchk t _ _ => some t
  | .bmpop t _ _ => some t
  | .bmidx t _ _ => some t
  | .dma t _ _ => some t
  | .dmaWait t _ _ => some t
  | .send t _ _ => some t
  | .recv t _ _ => some t
  | .recvAny t _ _ => some t
  | .bar t _ _ => some t
  | .fence t _ _ => some t
  | .ataddI t _ _ => some t
  | .atminI t _ _ => some t
  | .atmaxI t _ _ => some t
  | .ataddF t _ _ => some t
  | .nop t _ _ => some t
  | .halt t _ _ => some t
  | .rdflag t _ _ => some t
  | .clrflag t _ _ => some t
  | .seed t _ _ => some t
  | .rdid t _ _ => some t
  | .rdcyc t _ _ => some t
  | .rdptime t _ _ => some t
  | .rdtrng t _ _ => some t
  | _ => none

end Sys2Proof
end

