-- ==== Sys2Proof/Config.lean ====
section
/-! DEFINITION. What the spec leaves open: free values, fused values, and the signature scheme it only names.  None has a body,
so nothing can be proved of a value of it. -/
namespace Sys2Proof.Config

/-- A value of `w` bits that the spec does not fix, fresh for each `n` (random bits, cycle counts,
undefined bits; log entry 4). -/
opaque freeValue : (w n : Nat) → BitVec w

/-- The fused values of a device (R489): UDS, IMAGE_PK and DEBUG_PK, the hashes in their separate banks, the certificate
store and the hash of the Aelzer root certificate. -/
opaque uds : List Byte
/-- IMAGE_PK. -/
opaque imagePk : List Byte
/-- IMAGE_PK_HASH. -/
opaque imagePkHash : BitVec 256
/-- DEBUG_PK. -/
opaque debugPk : List Byte
/-- The hash of DEBUG_PK in its separate bank. -/
opaque debugPkHash : BitVec 256
/-- The two certificates of the store. -/
opaque certStore : List Byte
/-- The chain's root hash. -/
opaque rootHash : BitVec 256

/-- FIPS 205 slh_verify for SLH-DSA-SHA2-128s, pure, with an empty context: public key, message, signature. -/
opaque slhVerify : List Byte → List Byte → List Byte → Bool

/-- The public key of FIPS 205 slh_keygen_internal for SLH-DSA-SHA2-128f, from 48 bytes (R493). -/
opaque slhPublic : List Byte → List Byte

/-- The alias certificate of an alias public key and M1 to M4, signed with the DeviceID key (R495). -/
opaque aliasCert : List Byte → List Byte → List Byte → List Byte → List Byte → List Byte

/-- Whether a PINNED_EXPERTS section pins an expert of a partition; the spec gives the section no layout (R58). -/
opaque pinned : Blob → Nat → Nat → Bool

end Sys2Proof.Config
end

