-- ==== Sys2Proof/Machine/Bits.lean ====
section
/-! DEFINITION. Operations on the plain containers: sparse tables, memories, byte strings, little-endian words
and bit fields. -/
namespace Sys2Proof

/-! ## Sparse tables -/

/-- The entry listed under `k`. -/
def tabFindL {α : Type} : List (Nat × α) → Nat → Option α
  | [], _ => none
  | (j, a) :: r, k => if j = k then some a else tabFindL r k

/-- Insert or replace the entry under `k`, keeping the keys strictly rising. -/
def tabInsertL {α : Type} : List (Nat × α) → Nat → α → List (Nat × α)
  | [], k, a => [(k, a)]
  | (j, b) :: r, k, a =>
    if k < j then (k, a) :: (j, b) :: r
    else if j = k then (k, a) :: r
    else (j, b) :: tabInsertL r k a

/-- The entry of a table under a key, if one is listed. -/
def Tab.find {α : Type} (t : Tab α) (k : Nat) : Option α := tabFindL t.ents k

/-- The entry of a table under a key, or `d`. -/
def Tab.get {α : Type} (t : Tab α) (d : α) (k : Nat) : α := (tabFindL t.ents k).getD d

/-- List an entry. -/
def Tab.set {α : Type} (t : Tab α) (k : Nat) (a : α) : Tab α := ⟨tabInsertL t.ents k a⟩

/-- Remove the entry under a key. -/
def Tab.del {α : Type} (t : Tab α) (k : Nat) : Tab α := ⟨t.ents.filter (fun p => decide (p.1 ≠ k))⟩

/-- Change the entry under a key; `d` stands for one that is not listed. -/
def Tab.upd {α : Type} (t : Tab α) (d : α) (k : Nat) (f : α → α) : Tab α := t.set k (f (t.get d k))

/-- Change every listed entry. -/
def Tab.mapVal {α β : Type} (t : Tab α) (f : Nat → α → β) : Tab β := ⟨t.ents.map (fun p => (p.1, f p.1 p.2))⟩

/-- Keep the listed entries that pass a test. -/
def Tab.keep {α : Type} (t : Tab α) (f : Nat → α → Bool) : Tab α := ⟨t.ents.filter (fun p => f p.1 p.2)⟩

/-- The listed keys, rising. -/
def Tab.keys {α : Type} (t : Tab α) : List Nat := t.ents.map (·.1)

/-- The listed entries, keys rising. -/
def Tab.vals {α : Type} (t : Tab α) : List α := t.ents.map (·.2)

/-- The empty table. -/
def Tab.empty {α : Type} : Tab α := ⟨[]⟩

/-! ## Memories -/

/-- The byte at an address; an unlisted address reads as zero (log entry 5). -/
def Mem.read (m : Mem) (a : Nat) : Byte := (tabFindL m.cells a).getD 0

/-- Store one byte; storing zero removes the cell, so that equal memories are equal data. -/
def Mem.write (m : Mem) (a : Nat) (b : Byte) : Mem :=
  let rest := m.cells.filter (fun p => decide (p.1 ≠ a))
  ⟨if b = 0 then rest else tabInsertL rest a b⟩

/-- Addresses strictly rise. -/
def cellsSorted : List Host.Cell → Bool
  | [] => true
  | [_] => true
  | p :: q :: r => decide (p.1 < q.1) && cellsSorted (q :: r)

/-- The canonical form: addresses strictly rising, no byte zero. -/
def Mem.wf (m : Mem) : Bool := cellsSorted m.cells && m.cells.all (fun p => decide (p.2 ≠ 0))

/-- The empty memory. -/
def Mem.empty : Mem := ⟨[]⟩

/-- Read `n` bytes upward from `a`. -/
def Mem.readN (m : Mem) (a n : Nat) : List Byte := (List.range n).map (fun i => m.read (a + i))

/-- Store bytes upward from `a`. -/
def Mem.writeN (m : Mem) (a : Nat) : List Byte → Mem
  | [] => m
  | b :: r => (m.write a b).writeN (a + 1) r

/-- Clear `n` bytes upward from `a` to zero. -/
def Mem.clear (m : Mem) (a n : Nat) : Mem := ⟨m.cells.filter (fun p => decide (p.1 < a) || decide (a + n ≤ p.1))⟩

/-- Copy the `n` bytes at `src` of memory `f` to `dst` of memory `t`. -/
def Mem.copyFrom (t f : Mem) (src dst n : Nat) : Mem := t.writeN dst (f.readN src n)

/-! ## Little-endian words (R5) -/

/-- The number a little-endian byte string spells. -/
def leNat : List Byte → Nat
  | [] => 0
  | b :: r => b.toNat + 256 * leNat r

/-- The low `n` bytes of a number, little-endian. -/
def leBytes : Nat → Nat → List Byte
  | 0, _ => []
  | n + 1, x => BitVec.ofNat 8 x :: leBytes n (x / 256)

/-- The little-endian number of `n` bytes at `a`. -/
def Mem.readLE (m : Mem) (a n : Nat) : Nat := leNat (m.readN a n)

/-- Store the low `n` bytes of `x` at `a`, little-endian. -/
def Mem.writeLE (m : Mem) (a n x : Nat) : Mem := m.writeN a (leBytes n x)

/-! ## Byte strings -/

/-- The byte of a string at an offset; zero past its end. -/
def Blob.u8 (b : Blob) (o : Nat) : Nat := if o < b.len then (b.mem.read o).toNat else 0

/-- The little-endian number in `n` bytes of a string at an offset. -/
def Blob.le (b : Blob) : Nat → Nat → Nat
  | _, 0 => 0
  | o, n + 1 => b.u8 o + 256 * b.le (o + 1) n

/-- The 16-bit word at an offset. -/
def Blob.u16 (b : Blob) (o : Nat) : Nat := b.le o 2
/-- The 32-bit word at an offset. -/
def Blob.u32 (b : Blob) (o : Nat) : Nat := b.le o 4
/-- The 64-bit word at an offset. -/
def Blob.u64 (b : Blob) (o : Nat) : Nat := b.le o 8

/-- The bytes of a part of a string. -/
def Blob.bytes (b : Blob) (o n : Nat) : List Byte := (List.range n).map (fun i => BitVec.ofNat 8 (b.u8 (o + i)))

/-- A part of a string, as a string. -/
def Blob.sub (b : Blob) (o n : Nat) : Blob :=
  ⟨n, ⟨(b.mem.cells.filter (fun p => decide (o ≤ p.1) && decide (p.1 < o + n) && decide (p.1 < b.len))).map
    (fun p => (p.1 - o, p.2))⟩⟩

/-- Every byte of a part of a string is zero. -/
def Blob.zeroAt (b : Blob) (o n : Nat) : Bool :=
  b.mem.cells.all (fun p => decide (p.1 < o) || decide (o + n ≤ p.1) || decide (b.len ≤ p.1) || decide (p.2 = 0))

/-- A list of bytes as a string. -/
def blobOfBytes (bs : List Byte) : Blob := ⟨bs.length, Mem.empty.writeN 0 bs⟩

/-- Replace `n` bytes of a string at `o` by those of another at the same place. -/
def Blob.patch (b src : Blob) (o n : Nat) : Blob :=
  ⟨b.len, (b.mem.clear o n).writeN o (src.bytes o n)⟩

/-! ## Bit fields (R4) -/

/-- Bits [lo+w-1:lo] of a number. -/
def fld (x lo w : Nat) : Nat := (x >>> lo) % 2 ^ w

/-- The number with bits [lo+w-1:lo] replaced by `v`. -/
def setFld (x lo w v : Nat) : Nat :=
  x % 2 ^ lo + (v % 2 ^ w) * 2 ^ lo + (x >>> (lo + w)) * 2 ^ (lo + w)

/-- Bit `i` of a number. -/
def bitAt (x i : Nat) : Bool := x.testBit i

/-- Bits [lo+w-1:lo] of a bit vector. -/
def bvFld {n : Nat} (x : BitVec n) (lo w : Nat) : Nat := (x.toNat >>> lo) % 2 ^ w

/-- A bit vector with bits [lo+w-1:lo] replaced by `v`. -/
def bvSet {n : Nat} (x : BitVec n) (lo w v : Nat) : BitVec n := BitVec.ofNat n (setFld x.toNat lo w v)

/-- A flag as a number. -/
def b2n (b : Bool) : Nat := if b then 1 else 0

/-- Two's-complement reading of the low `w` bits. -/
def sext (w x : Nat) : Int := if x % 2 ^ w < 2 ^ (w - 1) then (x % 2 ^ w : Nat) else ((x % 2 ^ w : Nat) : Int) - (2 ^ w : Nat)

/-- Round up to a multiple of `m`. -/
def roundUp (x m : Nat) : Nat := (x + m - 1) / m * m

/-- How many bits of the low `n` are set. -/
def popBits : Nat → Nat → Nat
  | 0, _ => 0
  | n + 1, x => x % 2 + popBits n (x / 2)

/-- The set bits among the low `n`, rising. -/
def bitsOf (n x : Nat) : List Nat := (List.range n).filter (fun i => x.testBit i)

/-- The number whose set bits are those listed. -/
def maskOf (l : List Nat) : Nat := l.foldl (fun m i => m ||| 1 <<< i) 0

/-- The lowest set bit among the low `n`. -/
def lowBit (n x : Nat) : Option Nat := (bitsOf n x).head?

/-- Replace the element of a list at an index. -/
def listSet {α : Type} : List α → Nat → α → List α
  | [], _, _ => []
  | _ :: r, 0, a => a :: r
  | x :: r, n + 1, a => x :: listSet r n a

/-- The values of a function at 0 to n − 1. -/
def listOf {α : Type} (n : Nat) (f : Nat → α) : List α := (List.range n).map f

/-- How many bits a number takes. -/
def bitLen (x : Nat) : Nat := if x = 0 then 0 else Nat.log2 x + 1

end Sys2Proof
end

