-- ==== Sys2Proof/Machine/Crypto.lean ====
section
/-! DEFINITION. The published hash and cipher that the spec names: SHA-256 (FIPS 180-4), AES-256 (FIPS 197) and its modes XTS
(IEEE 1619), GCM (SP 800-38D) and KW (RFC 3394). -/
namespace Sys2Proof

/-- The low `n` bytes of a number, big-endian. -/
def beBytes (n x : Nat) : List Byte := (leBytes n x).reverse

/-- The number a big-endian byte string spells. -/
def beNat (l : List Byte) : Nat := l.foldl (fun x b => x * 256 + b.toNat) 0

/-- Split a list into `n` parts of `w`. -/
def splitEvery {α : Type} (w : Nat) : Nat → List α → List (List α)
  | 0, _ => []
  | n + 1, l => l.take w :: splitEvery w n (l.drop w)

/-- Bytewise exclusive or. -/
def xorBytes (a b : List Byte) : List Byte := a.zipWith (fun x y => x ^^^ y) b

/-! ## SHA-256 -/

/-- Round constants 0 to 31. -/
def shaKLow : List W32 :=
  [0x428a2f98, 0x71374491, 0xb5c0fbcf, 0xe9b5dba5, 0x3956c25b, 0x59f111f1, 0x923f82a4, 0xab1c5ed5,
   0xd807aa98, 0x12835b01, 0x243185be, 0x550c7dc3, 0x72be5d74, 0x80deb1fe, 0x9bdc06a7, 0xc19bf174,
   0xe49b69c1, 0xefbe4786, 0x0fc19dc6, 0x240ca1cc, 0x2de92c6f, 0x4a7484aa, 0x5cb0a9dc, 0x76f988da,
   0x983e5152, 0xa831c66d, 0xb00327c8, 0xbf597fc7, 0xc6e00bf3, 0xd5a79147, 0x06ca6351, 0x14292967]

/-- Round constants 32 to 63. -/
def shaKHigh : List W32 :=
  [0x27b70a85, 0x2e1b2138, 0x4d2c6dfc, 0x53380d13, 0x650a7354, 0x766a0abb, 0x81c2c92e, 0x92722c85,
   0xa2bfe8a1, 0xa81a664b, 0xc24b8b70, 0xc76c51a3, 0xd192e819, 0xd6990624, 0xf40e3585, 0x106aa070,
   0x19a4c116, 0x1e376c08, 0x2748774c, 0x34b0bcb5, 0x391c0cb3, 0x4ed8aa4a, 0x5b9cca4f, 0x682e6ff3,
   0x748f82ee, 0x78a5636f, 0x84c87814, 0x8cc70208, 0x90befffa, 0xa4506ceb, 0xbef9a3f7, 0xc67178f2]

/-- The eight working variables. -/
structure ShaVars where
  a : W32
  b : W32
  c : W32
  d : W32
  e : W32
  f : W32
  g : W32
  h : W32
  deriving DecidableEq, Repr

/-- The initial hash value. -/
def shaStart : ShaVars :=
  ⟨0x6a09e667, 0xbb67ae85, 0x3c6ef372, 0xa54ff53a, 0x510e527f, 0x9b05688c, 0x1f83d9ab, 0x5be0cd19⟩

/-- One round. -/
def shaRound (v : ShaVars) (kw : W32 × W32) : ShaVars :=
  let s1 := v.e.rotateRight 6 ^^^ v.e.rotateRight 11 ^^^ v.e.rotateRight 25
  let t1 := v.h + s1 + ((v.e &&& v.f) ^^^ (~~~v.e &&& v.g)) + kw.1 + kw.2
  let s0 := v.a.rotateRight 2 ^^^ v.a.rotateRight 13 ^^^ v.a.rotateRight 22
  let t2 := s0 + ((v.a &&& v.b) ^^^ (v.a &&& v.c) ^^^ (v.b &&& v.c))
  ⟨t1 + t2, v.a, v.b, v.c, v.d + t1, v.e, v.f, v.g⟩

/-- `n` more words of the message schedule; the words so far stand latest first. -/
def shaExpand : Nat → List W32 → List W32
  | 0, l => l
  | n + 1, l =>
    let x := l.getD 14 0
    let y := l.getD 1 0
    let s0 := x.rotateRight 7 ^^^ x.rotateRight 18 ^^^ x >>> 3
    let s1 := y.rotateRight 17 ^^^ y.rotateRight 19 ^^^ y >>> 10
    shaExpand n ((s1 + l.getD 6 0 + s0 + l.getD 15 0) :: l)

/-- Take one block of 64 bytes into the hash value. -/
def shaBlock (h : ShaVars) (b : List Byte) : ShaVars :=
  let w := (shaExpand 48 ((splitEvery 4 16 b).map (fun x => BitVec.ofNat 32 (beNat x))).reverse).reverse
  let v := ((shaKLow ++ shaKHigh).zip w).foldl shaRound h
  ⟨h.a + v.a, h.b + v.b, h.c + v.c, h.d + v.d, h.e + v.e, h.f + v.f, h.g + v.g, h.h + v.h⟩

/-- SHA-256: the digest, its first byte in the low bits. -/
def sha256 (m : List Byte) : BitVec 256 :=
  let n := m.length
  let pad := (119 - n % 64) % 64
  let m := m ++ [0x80] ++ List.replicate pad 0 ++ beBytes 8 (8 * n)
  let h := (splitEvery 64 (m.length / 64) m).foldl shaBlock shaStart
  BitVec.ofNat 256 (leNat ([h.a, h.b, h.c, h.d, h.e, h.f, h.g, h.h].flatMap (fun x => beBytes 4 x.toNat)))

/-- The SHA-256 of a part of a byte string. -/
def sha256Blob (b : Blob) (o n : Nat) : BitVec 256 := sha256 (b.bytes o n)

/-! ## AES-256 -/

/-- A product in the field of AES, by the low `n` bits of `y`. -/
def gfMulN : Nat → Byte → Byte → Byte
  | 0, _, _ => 0
  | n + 1, x, y => (if y.getLsbD 0 then x else 0) ^^^ gfMulN n (x <<< 1 ^^^ (if x.getLsbD 7 then 0x1B else 0)) (y >>> 1)

/-- The product of two bytes in the field of AES. -/
def gfMul (x y : Byte) : Byte := gfMulN 8 x y

/-- The inverse, x^254; zero for zero. -/
def gfInv (x : Byte) : Byte :=
  let x2 := gfMul x x
  let x4 := gfMul x2 x2
  let x8 := gfMul x4 x4
  let x16 := gfMul x8 x8
  let x32 := gfMul x16 x16
  let x64 := gfMul x32 x32
  let x128 := gfMul x64 x64
  gfMul x128 (gfMul x64 (gfMul x32 (gfMul x16 (gfMul x8 (gfMul x4 x2)))))

/-- SUBBYTES of one byte. -/
def aesSub (x : Byte) : Byte :=
  let y := gfInv x
  y ^^^ y.rotateLeft 1 ^^^ y.rotateLeft 2 ^^^ y.rotateLeft 3 ^^^ y.rotateLeft 4 ^^^ 0x63

/-- INVSUBBYTES of one byte. -/
def aesUnsub (x : Byte) : Byte := gfInv (x.rotateLeft 1 ^^^ x.rotateLeft 3 ^^^ x.rotateLeft 6 ^^^ 0x05)

/-- `n` more words of the key schedule; `i` is the next word's number, and the words so far stand latest first. -/
def aesExpand : Nat → Nat → Byte → List (List Byte) → List (List Byte)
  | 0, _, _, l => l
  | n + 1, i, rcon, l =>
    let t := l.getD 0 []
    if i % 8 = 0 then
      let t := xorBytes ((t.drop 1 ++ t.take 1).map aesSub) [rcon, 0, 0, 0]
      aesExpand n (i + 1) (gfMul rcon 2) (xorBytes (l.getD 7 []) t :: l)
    else if i % 8 = 4 then aesExpand n (i + 1) rcon (xorBytes (l.getD 7 []) (t.map aesSub) :: l)
    else aesExpand n (i + 1) rcon (xorBytes (l.getD 7 []) t :: l)

/-- The 15 round keys of a key whose first byte is in its low bits. -/
def aesKeys (k : BitVec 256) : List (List Byte) :=
  (splitEvery 4 15 ((aesExpand 52 8 1 (splitEvery 4 8 (leBytes 32 k.toNat)).reverse).reverse)).map List.flatten

/-- SHIFTROWS (`m = 1`) or its inverse (`m = 3`): row r of column c comes from column c + m r. -/
def aesShift (m : Nat) (b : List Byte) : List Byte := (List.range 16).map (fun i => b.getD ((i + 4 * m * (i % 4)) % 16) 0)

/-- MIXCOLUMNS of a column, by the first row of its matrix. -/
def aesMixCol (r : List Byte) (c : List Byte) : List Byte :=
  (List.range 4).map (fun i => (List.range 4).foldl (fun x j => x ^^^ gfMul (r.getD ((j + 4 - i) % 4) 0) (c.getD j 0)) 0)

/-- MIXCOLUMNS of a block. -/
def aesMix (r : List Byte) (b : List Byte) : List Byte := (splitEvery 4 4 b).flatMap (aesMixCol r)

/-- Encrypt a block of 16 bytes. -/
def aesEncrypt (k : BitVec 256) (b : List Byte) : List Byte :=
  match aesKeys k with
  | [] => b
  | k0 :: ks =>
    let x := (ks.take 13).foldl (fun x k => xorBytes (aesMix [2, 3, 1, 1] (aesShift 1 (x.map aesSub))) k) (xorBytes b k0)
    xorBytes (aesShift 1 (x.map aesSub)) (ks.getD 13 [])

/-- Decrypt a block of 16 bytes. -/
def aesDecrypt (k : BitVec 256) (b : List Byte) : List Byte :=
  match (aesKeys k).reverse with
  | [] => b
  | k0 :: ks =>
    let x := (ks.take 13).foldl (fun x k => aesMix [14, 11, 13, 9] (xorBytes ((aesShift 3 x).map aesUnsub) k)) (xorBytes b k0)
    xorBytes ((aesShift 3 x).map aesUnsub) (ks.getD 13 [])

/-- The first 3 bytes of AES-256 of a block of 16 bytes of 0x01, the first in the low bits (R476). -/
def kcv (k : BitVec 256) : BitVec 24 := BitVec.ofNat 24 (leNat ((aesEncrypt k (List.replicate 16 1)).take 3))

/-! ## XTS -/

/-- The tweak of the next block: times x in GF(2^128), the tweak read little-endian. -/
def xtsNext (t : Nat) : Nat := Nat.xor (2 * t % 2 ^ 128) (if 2 ^ 127 ≤ t then 0x87 else 0)

/-- Cipher the blocks of a data unit, each between two exclusive ors with its tweak. -/
def xtsBlocksWith (f : List Byte → List Byte) : Nat → List (List Byte) → List Byte
  | _, [] => []
  | t, b :: r => xorBytes (f (xorBytes b (leBytes 16 t))) (leBytes 16 t) ++ xtsBlocksWith f (xtsNext t) r

/-- The first tweak of a data unit: the unit's number, little-endian, under K2. -/
def xtsTweak (k : BitVec 512) (u : BitVec 128) : Nat := leNat (aesEncrypt (BitVec.ofNat 256 (k.toNat >>> 256)) (leBytes 16 u.toNat))

/-- XTS-AES-256 encryption of one data unit, a multiple of 16 bytes, under a key (K1 in its low half) and a tweak (R170). -/
def xtsEncrypt (k : BitVec 512) (u : BitVec 128) (bs : List Byte) : List Byte :=
  xtsBlocksWith (aesEncrypt (BitVec.ofNat 256 k.toNat)) (xtsTweak k u) (splitEvery 16 (bs.length / 16) bs)

/-- XTS-AES-256 decryption of one data unit. -/
def xtsDecrypt (k : BitVec 512) (u : BitVec 128) (bs : List Byte) : List Byte :=
  xtsBlocksWith (aesDecrypt (BitVec.ofNat 256 k.toNat)) (xtsTweak k u) (splitEvery 16 (bs.length / 16) bs)

/-! ## GCM -/

/-- A product in the field of GHASH: `n` bits of `x` from bit `n` − 1 down, times `v`. -/
def ghashMulN : Nat → Nat → Nat → Nat → Nat
  | 0, _, _, z => z
  | n + 1, x, v, z =>
    ghashMulN n x (Nat.xor (v / 2) (if v % 2 = 1 then 0xE1 * 2 ^ 120 else 0)) (if x.testBit n then Nat.xor z v else z)

/-- The product of two blocks, read big-endian. -/
def ghashMul (x y : Nat) : Nat := ghashMulN 128 x y 0

/-- Pad to whole blocks with zeros. -/
def gcmPad (l : List Byte) : List Byte := l ++ List.replicate ((16 - l.length % 16) % 16) 0

/-- GHASH of additional data and ciphertext under a subkey. -/
def ghash (h : Nat) (aad ct : List Byte) : Nat :=
  let m := gcmPad aad ++ gcmPad ct ++ beBytes 8 (8 * aad.length) ++ beBytes 8 (8 * ct.length)
  (splitEvery 16 (m.length / 16) m).foldl (fun y b => ghashMul (Nat.xor y (beNat b)) h) 0

/-- The counter block of a number, after a 96-bit IV. -/
def gcmCtr (iv : BitVec 96) (n : Nat) : List Byte := beBytes 12 iv.toNat ++ beBytes 4 n

/-- The key stream over a text. -/
def gcmCrypt (k : BitVec 256) (iv : BitVec 96) (l : List Byte) : List Byte :=
  xorBytes l ((List.range ((l.length + 15) / 16)).flatMap (fun i => aesEncrypt k (gcmCtr iv (i + 2))))

/-- The tag of a ciphertext. -/
def gcmTag (k : BitVec 256) (iv : BitVec 96) (aad ct : List Byte) : List Byte :=
  xorBytes (aesEncrypt k (gcmCtr iv 1)) (beBytes 16 (ghash (beNat (aesEncrypt k (List.replicate 16 0))) aad ct))

/-- AES-256-GCM: plaintext to ciphertext and tag, under a key, an IV (its first byte in the high bits) and additional data. -/
def gcmSeal (k : BitVec 256) (iv : BitVec 96) (aad plain : List Byte) : List Byte :=
  let ct := gcmCrypt k iv plain
  ct ++ gcmTag k iv aad ct

/-- AES-256-GCM: ciphertext and tag to plaintext; none when the tag differs. -/
def gcmOpen (k : BitVec 256) (iv : BitVec 96) (aad text : List Byte) : Option (List Byte) :=
  let n := text.length - 16
  let ct := text.take n
  if text.length < 16 ∨ gcmTag k iv aad ct ≠ text.drop n then none else some (gcmCrypt k iv ct)

/-! ## KW -/

/-- One unwrap step, numbered `t`: the integrity word, and the words, the last one first. -/
def kwStep (k : BitVec 256) (t : Nat) (a : List Byte) (r : List Byte) : List Byte × List Byte :=
  let b := aesDecrypt k (xorBytes a (beBytes 8 t) ++ r)
  (b.take 8, b.drop 8)

/-- One pass over the words, the last one first. -/
def kwPass (k : BitVec 256) : Nat → List Byte → List (List Byte) → List Byte × List (List Byte)
  | _, a, [] => (a, [])
  | t, a, r :: l =>
    let s := kwStep k t a r
    let p := kwPass k (t - 1) s.1 l
    (p.1, s.2 :: p.2)

/-- `j` passes of `n` words. -/
def kwPasses (k : BitVec 256) (n : Nat) : Nat → List Byte × List (List Byte) → List Byte × List (List Byte)
  | 0, x => x
  | j + 1, x => kwPasses k n j (kwPass k (n * (j + 1)) x.1 x.2)

/-- AES-KW: unwrap a blob under a key; none when its integrity check fails. -/
def kwUnwrap (k : BitVec 256) (c : List Byte) : Option (List Byte) :=
  let n := c.length / 8 - 1
  let x := kwPasses k n 6 (c.take 8, (splitEvery 8 n (c.drop 8)).reverse)
  if x.1 = List.replicate 8 0xA6 then some x.2.reverse.flatten else none

end Sys2Proof
end

