-- ==== Sys2Proof/Machine/State.lean ====
section
/-! DEFINITION. The state of the block: plain data, holding every piece of state the spec gives it. -/
namespace Sys2Proof.Machine
open Sys2Proof

/-- Status codes (R17). -/
inductive Status where
  | ok | lengthError | malformed | accessError | keyRevoked | translationFault | authFail | rnrExhausted
  | retryExhausted | remoteError | collectiveMismatch | memberLost | fabricPathLost | hostLost | flushed
  | uncorrectable | roleEpochMismatch | partialDelivery | keyLimit | halted | capacityDeferred | varianceRefused
  deriving DecidableEq, Repr

/-- Why the machine stops. -/
inductive Fault where
  /-- An operand lies outside the shape that WellFormed gives the command.  No meaning raises it: every meaning is total,
  and answers a next state for a command no one can send too.  Safe: nothing can be proved from it. -/
  | illFormed
  deriving DecidableEq, Repr

/-- Why a command has no meaning. -/
inductive Refusal where
  /-- The command is not modelled.  Raised by no arm of `exec` now: every command has its meaning.  Safe. -/
  | notModelled (mnemonic : String)
  deriving DecidableEq, Repr

/-! ## Registers -/

/-- The registers of PF0's BAR0 that have been written since reset, by offset, and the staging words
and read latches of the 64-bit ones (R16). -/
structure RegFile where
  /-- Register values; an unlisted register has its Reset value. -/
  vals : Tab W64
  /-- Staging words; an unlisted one holds the lower half of the Reset value. -/
  stage : Tab W32
  /-- Latched upper halves; listed from a lower-half read to the next upper-half read. -/
  latch : Tab W32
  deriving DecidableEq, Repr

/-! ## The image (chapter 2) -/

/-- An image copied into the staging area of LP5X. -/
structure Staged where
  /-- The copy. -/
  bytes : Blob
  deriving DecidableEq, Repr

/-- The partition-scoped commit in progress. -/
structure PartCommit where
  /-- The partition. -/
  part : Nat
  deriving DecidableEq, Repr

/-- Images. -/
structure Img where
  /-- The copy in the staging area. -/
  staged : Option Staged
  /-- The sections in force, by type code: of the last whole image, with what partition-scoped images replaced. -/
  secs : Tab Blob
  /-- The sections of the last whole image as committed, by type code. -/
  whole : Tab Blob
  /-- FLAGS.VARIANT of the last whole image. -/
  wholeVariant : Bool
  /-- FLAGS.VARIANT of the partition-scoped image in force for a partition. -/
  partVariant : Tab Bool
  /-- A partition-scoped commit waiting for its drain. -/
  committing : Option PartCommit
  /-- Tiles start at the next NoC frame boundary (R74). -/
  startDue : Bool
  /-- The 4,096-byte headers of the images in force, for measurements: key 32 the whole image, key p the
  partition-scoped image of partition p. -/
  headers : Tab (List Byte)
  deriving DecidableEq, Repr

/-! ## Tiles (chapters 3 and 4) -/

/-- Where a tile is between commit and its end (R136, R137). -/
inductive TilePhase where
  /-- Never started since commit. -/
  | idle
  /-- Issuing. -/
  | running
  /-- HALT issued; DMA contexts and SENDs drain. -/
  | halting
  | halted
  /-- An exception was taken; started transfers finish. -/
  | stopping
  | stopped
  deriving DecidableEq, Repr

/-- The causes of a tile exception (R138). -/
inductive Cause where
  | none | illegalInstruction | illegalOperand | sparseMetadata | access | uncorrectable | stallLimit | fenced
  deriving DecidableEq, Repr

/-- What an instruction that cannot complete yet waits for. -/
inductive WaitKind where
  /-- An accumulator tile whose matrix operation is not ready (R126). -/
  | acc (n : Nat)
  /-- A DMA context that is busy, at DMA. -/
  | dmaBusy (ctx : Nat)
  /-- A DMA context, at DMA.WAIT. -/
  | dmaWait (ctx : Nat)
  /-- A credit of a send channel. -/
  | credit (ch : Nat)
  /-- A message in one of the mailboxes of a mask. -/
  | recv (mask : Nat)
  /-- The other members of a barrier. -/
  | bar (b : Nat)
  /-- A cluster memory that is being cleared (R174), or a block whose writes are held (R185). -/
  | memory
  deriving DecidableEq, Repr

/-- An active hardware loop (R131, R133): its first and one-past-last PC, iterations left and call depth. -/
structure LoopRec where
  start : Nat
  stop : Nat
  left : Nat
  depth : Nat
  deriving DecidableEq, Repr

/-- A tile-DMA context (R141). -/
structure DmaCtx where
  /-- A transfer runs. -/
  busy : Bool
  /-- The transfer has landed and its NOTIFY message waits for a credit. -/
  notify : Bool
  /-- The descriptor. -/
  desc : BitVec 512
  /-- The status DMA.WAIT returns. -/
  status : Status
  deriving DecidableEq, Repr

/-- Who sent a message (R146). -/
inductive Sender where
  | tile (t ch : Nat)
  | engine (e : Nat)
  deriving DecidableEq, Repr

/-- A message in a mailbox: its sender, its place in the order of arrival and its 64 bytes. -/
structure Mail where
  src : Sender
  ord : Nat
  data : BitVec 512
  deriving DecidableEq, Repr

/-- A matrix operation whose accumulator is not ready yet: the cells and flags it will leave, and its mode. -/
structure PendAcc where
  cells : List W32
  fl : W32
  isInt : Bool
  deriving DecidableEq, Repr

/-- One tile (R119). -/
structure Tile where
  phase : TilePhase
  pc : Nat
  /-- s0 to s31. -/
  s : Tab W64
  /-- v0 to v31, 32 lanes each. -/
  v : Tab (List W32)
  /-- p1 to p7. -/
  p : Tab W32
  /-- acc0 to acc7, cell (i, j) at 16 i + j. -/
  acc : Tab (List W32)
  /-- The accumulator tiles whose last matrix operation was in integer mode (log entry 24). -/
  accInt : Tab Bool
  pend : Tab PendAcc
  loops : List LoopRec
  /-- Return addresses, innermost first. -/
  calls : List Nat
  aflags : W32
  seed : W64
  ctr : W32
  dma : Tab DmaCtx
  mbox : Tab (List Mail)
  /-- Credits left of each send channel; an unlisted one has its full allotment of 8. -/
  cred : Tab Nat
  wait : Option WaitKind
  deriving DecidableEq, Repr

/-- A message on its way through the NoC: to mailbox `mb` of a tile, or to an engine endpoint. -/
structure NocMsg where
  toTile : Option (Nat × Nat)
  toEngine : Option Nat
  src : Sender
  part : Nat
  epoch : BitVec 8
  data : BitVec 512
  deriving DecidableEq, Repr

/-- The tiles and what joins them. -/
structure Tiles where
  tiles : Tab Tile
  /-- Messages in flight, in the order sent. -/
  noc : List NocMsg
  /-- Tiles that have arrived at barrier b of partition p, by 64 p + b. -/
  bars : Tab (List Nat)
  /-- Arrivals at mailboxes so far. -/
  arrivals : Nat
  /-- Credits that engine endpoints hold for mailboxes, by 8 × tile + mailbox; unlisted: 8. -/
  engCred : Tab Nat
  /-- The tile that a tick of the idle block issues next (log entry 2). -/
  turn : Nat
  deriving DecidableEq, Repr

/-! ## Memory and placement (chapter 5) -/

/-- A placement move decided or in progress (R181 to R190). -/
structure Move where
  /-- The block entries: one for a local move, those of the expert for a move to a peer. -/
  blocks : List Nat
  /-- The expert, by placement-table index, of a move to or from a peer. -/
  expert : Option Nat
  /-- The rank that serves when the move has ended. -/
  rank : Nat
  /-- The serving location becomes the home. -/
  toHome : Bool
  /-- The target device address of a local copy. -/
  target : Nat
  started : Bool
  /-- The switch of a move to a peer has been announced. -/
  announced : Bool
  /-- Recopy passes made. -/
  passes : Nat
  /-- Sub-units that the present pass copies, and sub-units written since, by 512 × entry + sub-unit. -/
  todo : List Nat
  dirty : List Nat
  /-- New writes are held (the final pass). -/
  held : Bool
  /-- The held writes, oldest first: device address and bytes. -/
  heldWrites : List (Nat × List Byte)
  /-- The move ends an UNREGISTER. -/
  unreg : Bool
  deriving DecidableEq, Repr

/-- A block command that has not completed. -/
structure BlkCmd where
  first : Nat
  count : Nat
  status : Status
  deriving DecidableEq, Repr

/-- A cross-device placement switch announced by PLACE (R190). -/
structure PlaceSwitch where
  /-- The expert, by placement-table index. -/
  index : Nat
  rank : Nat
  frame : Nat
  deriving DecidableEq, Repr

/-- Memory. -/
structure MemSt where
  /-- Every byte of the scratchpads, cluster memories, HBM3E and LP5X, by the place that holds it (log entry 6). -/
  ram : Mem
  /-- ECC units holding a lasting uncorrectable error, by the place of their first byte. -/
  bad : List Nat
  /-- Block-map entries (R177), by index. -/
  blk : Tab (BitVec 128)
  /-- Moves decided or in progress. -/
  moves : List Move
  /-- The old pool block of an entry in RELEASING, by entry. -/
  oldCopy : Tab Nat
  /-- UNREGISTER entries still to be freed. -/
  unreg : List Nat
  /-- The block command in progress. -/
  cmd : Option BlkCmd
  /-- Announced switches. -/
  switches : List PlaceSwitch
  /-- Ranks whose switch acknowledgement is awaited, by expert. -/
  acks : Tab (List Nat)
  /-- Blocks held for a peer's expert, by placement-table index. -/
  remoteHeld : Tab Nat
  /-- Temperature at the last full retraining, as sensors report it. -/
  lastFullTemp : Nat
  deriving DecidableEq, Repr
/-! ## Expert dispatch (chapter 6) -/

/-- Who serves a batch. -/
inductive XSite where
  /-- A cluster of this device: its coordinator tile and the batch's room in the dispatch area (offset and bytes). -/
  | here (cluster tile off len : Nat)
  /-- A rank of the pod. -/
  | peer (rank : Nat)
  deriving DecidableEq, Repr

/-- A batch that has left and whose outcome is awaited. -/
structure XBatch where
  /-- BATCH_ID (R209). -/
  id : W32
  expert : Nat
  /-- Token indices, in batch order. -/
  tokens : List Nat
  site : XSite
  deriving DecidableEq, Repr

/-- A dispatch context (R197). -/
structure XCtx where
  qid : Nat
  idx : Nat
  desc : BitVec 512
  fn : Nat
  part : Nat
  /-- Place in the order of firing. -/
  order : Nat
  /-- Generation of the slot (R209). -/
  gen : Nat
  /-- SEQ and TOKENS of the zone header. -/
  seq : Nat
  tokens : Nat
  /-- Non-null entries of each token, in ascending expert order: expert and weight. -/
  gates : List (List (Nat × W32))
  /-- Tokens of each expert that have not left, in ascending order. -/
  waiting : List (Nat × List Nat)
  /-- Tokens counted as deferred, and whether any was (R207). -/
  deferred : List (Nat × Nat)
  late : Bool
  /-- Number of the next batch. -/
  nextBatch : Nat
  batches : List XBatch
  /-- Output rows: token, expert, FP32 values. -/
  outs : List ((Nat × Nat) × List W32)
  /-- Tokens whose result row has been written, in combine order. -/
  rows : List Nat
  /-- Messages still in flight on the QP of PATH 0. -/
  inFlight : Nat
  /-- The result flag has been handed to the QP. -/
  flagSent : Bool
  deriving DecidableEq, Repr

/-- A batch served here for a peer. -/
structure XServed where
  origin : Nat
  id : W32
  die : Nat
  /-- Partition, tokens, hidden size and layer and expert of the header. -/
  part : Nat
  tokens : Nat
  width : Nat
  head : BitVec 512
  cluster : Nat
  tile : Nat
  off : Nat
  len : Nat
  /-- Device address of the output rows. -/
  out : Nat
  deriving DecidableEq, Repr

/-- The XDUs. -/
structure Xdu where
  /-- Entries of the expert placement table that are not all zero (R202). -/
  ept : Tab (BitVec 256)
  /-- The rank of each expert's home, as the image gave it. -/
  home : Tab Nat
  /-- The entry latched by a read of XDU_EPT_DATA0. -/
  latch : BitVec 256
  /-- Running contexts, by 64 × die + slot. -/
  ctxs : Tab XCtx
  /-- Contexts that each slot has held, by 64 × die + slot. -/
  gens : Tab Nat
  /-- Contexts fired so far. -/
  fired : Nat
  /-- Tokens of an expert that the open window still takes, by 65,536 × die + placement-table index. -/
  window : Tab Nat
  /-- Batches served for peers, by the die of the XDU. -/
  served : List XServed
  /-- Batches of ended contexts that still run on tiles, with the die of their XDU. -/
  orphans : List (Nat × XBatch)
  /-- Placement entries that hold a lasting uncorrectable error, until a commit rewrites them (R513). -/
  hurt : List Nat
  deriving DecidableEq, Repr

/-! ## Onaud (chapter 7) -/

/-- Control messages (R253): the fields that the spec gives each. -/
inductive CtlMsg where
  | switch (set frame epoch : Nat) (lost recal : W64)
  | fault (reporter link state : Nat) (lost : Option Nat)
  | fence (mask : W64)
  | podtime (leader : Nat) (time : W64) (frames : Nat) (en : Bool) (hops : Nat)
  | claim (rank : Nat)
  | seqnum (kind group anchor status : Nat) (seq : W32) (members : W64) (origin : Nat)
  | place (part layer expert rank frame : Nat)
  | cmap (rank part : Nat) (data : BitVec 384)
  deriving DecidableEq, Repr

/-- What a cell carries after its header. -/
inductive CellBody where
  | data (payload : BitVec 512)
  | ctl (scope bseq : Nat) (m : CtlMsg)
  deriving DecidableEq, Repr

/-- A cell (R230, R231); its link fields are filled in as it is sent. -/
structure OnfCell where
  hdr : BitVec 96
  body : CellBody
  deriving DecidableEq, Repr

/-- A burst: for one that has arrived, `peer` is its source rank; for one that waits, its destination. -/
structure OnfBurst where
  cls : Nat
  peer : Nat
  unit : Nat
  part : Nat
  epoch : BitVec 8
  cells : List (BitVec 512)
  deriving DecidableEq, Repr

/-- A burst that is arriving: dropped or delivered whole (R255). -/
structure RxBurst where
  drop : Bool
  first : BitVec 96
  cells : List (BitVec 512)
  deriving DecidableEq, Repr

/-- What IDENT carries (R227). -/
structure Ident where
  rank : Nat
  link : Nat
  strap : Bool
  leader : Nat
  committed : Bool
  podImage : W64
  epoch : W32
  deriving DecidableEq, Repr

/-- What an in-service test saves of a link (R563). -/
structure LinkSave where
  txSeq : Nat
  rxSeq : Nat
  credits : Tab Nat
  lat0 : Nat
  deriving DecidableEq, Repr

/-- A link. -/
structure OnfLink where
  /-- The next LSEQ to send and the next expected. -/
  txSeq : Nat
  rxSeq : Nat
  /-- Sequenced cells sent and not covered by LACK, oldest first (R243). -/
  replay : List OnfCell
  /-- Credits held, by class; unlisted: 512. -/
  credits : Tab Nat
  /-- Credits owed to the peer, by class. -/
  owed : Tab Nat
  /-- Cells that wait to be sent. -/
  queue : List OnfCell
  /-- Sequenced cells are discarded until the replay arrives. -/
  nak : Bool
  /-- The LSEQ that has failed once. -/
  failSeq : Option Nat
  ident : Option Ident
  /-- Calibration measurements so far, and the largest. -/
  echoes : Nat
  echoMax : Nat
  /-- Named for recalibration at the next SWITCH. -/
  recal : Bool
  /-- Withdrawn from its bundle for an in-service test. -/
  testing : Bool
  saved : Option LinkSave
  /-- Credit stalls, replays and largest LAT_NOW − LAT0 in this congestion-map interval. -/
  stalls : Nat
  replays : Nat
  slip : Nat
  deriving DecidableEq, Repr

/-- An announced switch (R254). -/
structure Switch where
  set : Nat
  frame : Nat
  epoch : Nat
  recal : W64
  deriving DecidableEq, Repr

/-- Onaud. -/
structure Onf where
  links : Tab OnfLink
  /-- Next MSG_TAG of each flow sent, by 64 × class + destination. -/
  txTag : Tab Nat
  /-- MSG_TAG expected of each flow received, by 64 × class + source. -/
  rxTag : Tab Nat
  /-- Bursts arriving, by 64 × class + source. -/
  rx : Tab RxBurst
  /-- Bursts that wait for a switch, for alignment or for a link. -/
  held : List OnfBurst
  /-- Bursts delivered to engines and not taken yet, in order. -/
  inbox : List OnfBurst
  /-- BSEQ of the next broadcast, and broadcasts already forwarded (source and BSEQ), latest first. -/
  bseq : Nat
  seen : List (Nat × Nat)
  /-- The device has been aligned. -/
  aligned : Bool
  /-- Leader's pod time less the device's own, in ns. -/
  offset : Int
  /-- A link has been UP since commit. -/
  upSeen : Bool
  /-- The election has closed, and the lowest rank heard to claim. -/
  closed : Bool
  claim : Option Nat
  /-- A PODTIME has been heard since commit: the device follows its leader. -/
  follows : Bool
  /-- BSEQ, hops and source of the PODTIME copy used last. -/
  lastPod : Option (Nat × Nat × Nat)
  switches : List Switch
  /-- Leader: links reported DEGRADED or DOWN (rank and link), and every element that a set must avoid until one is
  ordered: links and ranks. -/
  failedLinks : List (Nat × Nat)
  avoidLinks : List (Nat × Nat)
  avoidRanks : List Nat
  /-- Peers of links, as FAULT messages with a lost rank told them. -/
  peersTold : List ((Nat × Nat) × Nat)
  /-- Congestion maps: interval and enable as PODTIME gave them, intervals so far, parts received by rank, records
  written. -/
  cmapFrames : Nat
  cmapEn : Bool
  interval : Nat
  parts : Tab (List (Nat × BitVec 384))
  written : Nat
  /-- The leader has sent its first base. -/
  baseSent : Bool
  deriving DecidableEq, Repr


/-! ## Samovar (chapter 8) -/

/-- A recorded abort (R292). -/
structure SmvAbort where
  seq : Nat
  status : Status
  members : W64
  deriving DecidableEq, Repr

/-- A GATHER that waits for its descriptor (R280). -/
structure SmvHeld where
  group : Nat
  die : Nat
  src : Nat
  cell : BitVec 512
  deriving DecidableEq, Repr

/-- A collective that runs on a slice (R275). -/
structure Coll where
  /-- The slice's die, the queue and index of its descriptor, the descriptor, its function and partition. -/
  die : Nat
  qid : Nat
  idx : Nat
  desc : BitVec 512
  fn : Nat
  part : Nat
  /-- The ranks of the members, and this member's index. -/
  members : List Nat
  me : Nat
  seq : Nat
  post : Nat
  /-- 1 HANDSHAKE, 2 DATA, 3 COMMIT. -/
  phase : Nat
  digest : Nat
  /-- The GATHER of this member has gone out; at member 0 and at ROOT, the descriptor has been taken. -/
  gathered : Bool
  /-- Member 0: VERDICT has gone out.  Elsewhere: it has been heard. -/
  verdict : Bool
  mismatch : W64
  earliest : Nat
  latest : Nat
  lateMember : Nat
  /-- ROOT: members whose GATHER, and whose COMMIT, it has. -/
  heard : List Nat
  commits : List Nat
  /-- ROOT of a MULTICAST_WRITE: members left out because they are fenced (R291). -/
  excluded : List Nat
  /-- Bursts received: PHASE, and chunk or sender. -/
  got : List (Nat × Nat)
  /-- COMMIT has arrived, and this member is ready to commit. -/
  commitIn : Bool
  ready : Bool
  deriving DecidableEq, Repr

/-- Samovar. -/
structure Smv where
  /-- A BASE_ALL has arrived. -/
  started : Bool
  /-- The next SEQ of every group but those listed, and of those. -/
  base : Nat
  seqs : Tab Nat
  /-- Recorded aborts, oldest first, by group. -/
  aborts : Tab (List SmvAbort)
  held : List SmvHeld
  /-- Running collectives, by group. -/
  colls : Tab Coll
  deriving DecidableEq, Repr


/-! ## Host links, queues and events (chapter 9) -/

/-- Events of one TYPE collapsed in a function's pending store (R328). -/
structure PendEvent where
  count : Nat
  status : Nat
  body : BitVec 128
  deriving DecidableEq, Repr

/-- An event queue (R326, R327). -/
structure EventQ where
  base : Nat
  vector : Nat
  root : Nat
  /-- Entries written since CREATE_EQ. -/
  written : Nat
  /-- CONSUMED of the last consumer word accepted. -/
  consumed : Nat
  arm : Bool
  failed : Bool
  /-- An entry has been written since the last event interrupt. -/
  news : Bool
  deriving DecidableEq, Repr

/-- Events of all functions. -/
structure Events where
  /-- Event queues, by function. -/
  eqs : Tab EventQ
  /-- Pending stores: function → TYPE → event. -/
  pend : Tab (Tab PendEvent)
  /-- Functions whose collapse episode has posted OVERFLOW. -/
  overflowed : List Nat
  /-- MSI-X table entries that hold other than zero, by 4,096 × function + vector. -/
  msix : Tab (BitVec 128)
  /-- MSI-X vectors pending behind a mask, in the same numbering. -/
  pba : List Nat
  deriving DecidableEq, Repr
/-! ## Work queues (chapter 9) -/

/-- The state of a work queue (R312). -/
inductive QState where
  | reset | active | draining | error | lost | halted
  deriving DecidableEq, Repr

/-- A fetched entry: its absolute index and its 64 bytes. -/
structure WqEntry where
  idx : Nat
  desc : BitVec 512
  deriving DecidableEq, Repr

/-- An entry that its engine has finished: its status and the bytes received (RECV). -/
structure WqDone where
  idx : Nat
  desc : BitVec 512
  status : Status
  bytes : Nat
  /-- RECV: the word written at 0x20 (R392). -/
  imm : Nat
  deriving DecidableEq, Repr

/-- A work queue that is not in RESET (R311, R312). -/
structure Wq where
  /-- The context as created, its read-only words zero. -/
  ctx : BitVec 512
  state : QState
  tail : Nat
  head : Nat
  fails : Nat
  /-- The first entry not started. -/
  next : Nat
  /-- Entries fetched with a matching SEQ and not started, oldest first. -/
  fetched : List WqEntry
  /-- Entries started and not finished. -/
  started : List WqEntry
  /-- Entries finished and not completed, in the order finished. -/
  finished : List WqDone
  /-- Entries completed at or past HEAD. -/
  complete : List Nat
  /-- Mismatching fetches of the slot at the fetch point (R317). -/
  tries : Nat
  /-- A HEAD advance is not in a written completion word yet. -/
  unpub : Bool
  /-- A completion word has been written since the last interrupt. -/
  news : Bool
  arm : Bool
  /-- A ring access failed while DRAINING or HALTED: nothing more is written (R601). -/
  quiet : Bool
  /-- WQ_DONE events that follow the completion word: index, status and USER. -/
  events : List (Nat × Status × Nat)
  deriving DecidableEq, Repr

/-- The service round of an engine (R320): entries started by each queue, the queue visited last and what is left of
the visit. -/
structure Round where
  started : Tab Nat
  at_ : Option Nat
  left : Nat
  deriving DecidableEq, Repr

/-- Work queues. -/
structure Wqs where
  queues : Tab Wq
  /-- Service rounds: 0 QPE, 1 + d the Samovar slice of die d, 5 Caddy. -/
  rounds : Tab Round
  deriving DecidableEq, Repr

/-- Host links. -/
structure Hif where
  /-- Links whose functions are LOST until REINIT (R337). -/
  lost : List Nat
  /-- Reads issued a second time (R335). -/
  reissued : List ReadUser
  /-- 64-byte lines of the CXL range that the host may hold a copy of (R302). -/
  hostLines : List Nat
  deriving DecidableEq, Repr

/-! ## Ethernet ports and transmit scheduling (chapter 10) -/

/-- A packet for QPE, from the first byte of its BTH to its last payload byte, or a frame that a STEER rule names. -/
structure RxPkt where
  qpn : Nat
  /-- The frame is steered: `bytes` is the frame without FCS. -/
  raw : Bool
  /-- It came from this rank over Onaud. -/
  rank : Option Nat
  port : Nat
  cls : Nat
  /-- Packet-buffer cells held, and whether they are headroom. -/
  cells : Nat
  head : Bool
  /-- ECN CE. -/
  ce : Bool
  /-- The 40 bytes of IP header that a UD receive places (R392). -/
  ip : List Byte
  bytes : List Byte
  /-- Reception time, when a rule asks for it (R375). -/
  stamp : Option Nat
  /-- Arrival on the PTP clock. -/
  time : Nat
  deriving DecidableEq, Repr

/-- A frame staged for transmit. -/
structure TxFrame where
  /-- The QP that sends it; 2^24 more for a CNP. -/
  who : Nat
  port : Nat
  cls : Nat
  sub : Nat
  dmac : BitVec 48
  vlan : BitVec 16
  sip : BitVec 128
  dip : BitVec 128
  sport : Nat
  dscp : Nat
  ect : Bool
  hop : Nat
  /-- From the BTH to the last payload byte. -/
  bytes : List Byte
  /-- TS_TAG when the first transmission is to be timestamped. -/
  tag : Option Nat
  /-- The queue and entry of a UD send, which finishes as its frame leaves. -/
  fin : Option (Nat × Nat)
  /-- When it became ready. -/
  ready : Nat
  deriving DecidableEq, Repr

/-- The tokens of a policer in 1/256 B, and when they were counted. -/
structure Bucket where
  c : Nat
  e : Nat
  last : Nat
  deriving DecidableEq, Repr

/-- The Ethernet side. -/
structure Eth where
  /-- Strainer rules and SA entries that are not all zero. -/
  rules : Tab (BitVec 512)
  sas : Tab (BitVec 256)
  /-- Classes for which a pause is asserted toward the peer, by 8 × port + class. -/
  xoff : List Nat
  /-- Policers: 2 × port + class, then 64 + 2 × function + class (0 data, 1 control); unlisted: full. -/
  pol : Tab Bucket
  /-- Packets delivered to QPE and not taken yet, in order. -/
  inbox : List RxPkt
  /-- Transmit timestamps waiting, by port: tag and time. -/
  txts : Tab (List (Nat × Nat))
  /-- Fraction of the PTP clock, in 2^-24 ns. -/
  frac : Nat
  /-- Packet-buffer cells that RAS has retired (R513). -/
  retired : Nat
  deriving DecidableEq, Repr

/-- What waits on the timing wheel: a QP, or a subscriber (2^25 more). -/
structure WheelEnt where
  who : Nat
  /-- Next eligible time in 1/256 ns. -/
  time : Nat
  coarse : Bool
  slot : Nat
  deriving DecidableEq, Repr

/-- A gate-list switch that waits: list and base. -/
structure GatePend where
  list : Nat
  base : Nat
  deriving DecidableEq, Repr

/-- TXS. -/
structure Txs where
  /-- Frames staged, in the order they became ready. -/
  ready : List TxFrame
  /-- QPs with frames staged that are not on the wheel, in the order they became eligible. -/
  order : List Nat
  wheel : List WheelEnt
  /-- Next eligible time of subscribers, in 1/256 ns. -/
  subTime : Tab Nat
  /-- V, by 8 × port + class; start tag of the head frame and finish tag of the last frame, by 8 × subscriber + class. -/
  vtime : Tab Nat
  start : Tab Nat
  finish : Tab Nat
  /-- DRR: class served and deficit, by port and by 8 × port + class. -/
  drrAt : Tab Nat
  deficit : Tab Nat
  /-- CBS credit in bytes times the port rate in Mb/s, by 8 × port + class. -/
  cbs : Tab Int
  /-- Base of the gate list in force, and waiting switches, by port. -/
  base : Tab Nat
  pend : Tab GatePend
  /-- Head frames already counted as waiting for a gate, by 8 × port + class. -/
  waited : List Nat
  /-- High-water marks (depth and delay) by subscriber. -/
  hwm : Tab (Nat × Nat)
  /-- Sample records so far, and those written. -/
  samples : Nat
  written : Nat
  deriving DecidableEq, Repr

/-! ## Queue pairs (chapter 11) -/

/-- Who a message is sent for. -/
inductive MsgOwner where
  /-- The entry of a SEND queue. -/
  | entry (qid idx : Nat)
  /-- Result rows of a dispatch context (64 × die + slot, generation), and whether it is the flag. -/
  | xdu (key gen : Nat) (flag : Bool)
  deriving DecidableEq, Repr

/-- The kinds of outgoing message. -/
inductive MsgKind where
  | send | write | read | atomic
  deriving DecidableEq, Repr

/-- A message that has started and not finished: its PSNs and its packets, each from BTH to payload. -/
structure QpMsg where
  owner : MsgOwner
  kind : MsgKind
  first : Nat
  last : Nat
  pkts : List (List Byte)
  /-- Packets sent at least once. -/
  sent : Nat
  /-- UDP timestamp tag of the first packet. -/
  tag : Option Nat
  /-- READ and atomic: local address, key, bytes and remote address and key. -/
  laddr : Nat
  lkey : Nat
  len : Nat
  raddr : Nat
  rkey : Nat
  /-- READ: response PSNs that have landed, and bytes of the protected stream received. -/
  got : List Nat
  stream : List Byte
  /-- First protected segment number of a READ's response. -/
  seg : Nat
  deriving DecidableEq, Repr

/-- A RECV entry that a message has taken. -/
structure RecvUse where
  idx : Nat
  desc : BitVec 512
  /-- Receive message number (unordered), first PSN. -/
  num : Nat
  first : Nat
  /-- Bytes landed, the highest end landed, and the last PSN once known. -/
  bytes : Nat
  last : Option Nat
  imm : Option Nat
  /-- Ready for its completion with this status. -/
  done : Option Status
  srcQpn : Nat
  deriving DecidableEq, Repr

/-- The SEND or WRITE message that a responder takes in PSN order. -/
structure RespMsg where
  write : Bool
  first : Nat
  /-- WRITE: the address and key of the RETH and the message's length. -/
  addr : Nat
  key : Nat
  len : Nat
  /-- SEND: the RECV entry it lands in, if any. -/
  recv : Option Nat
  /-- Plaintext bytes landed. -/
  off : Nat
  /-- Ciphertext gathered and not opened. -/
  stream : List Byte
  deriving DecidableEq, Repr

/-- A queue pair that is not in RESET. -/
structure Qp where
  /-- The context (R386). -/
  ctx : BitVec 2048
  /-- Outgoing messages, oldest first. -/
  out : List QpMsg
  /-- RECV entries taken and not completed, oldest first; entries taken so far. -/
  recvs : List RecvUse
  recvNo : Nat
  /-- Counters named by trigger messages that have passed, oldest first. -/
  trigs : List Nat
  /-- The incoming message in progress (ordered, or protected). -/
  cur : Option RespMsg
  /-- PSNs of landed packets at or past RQ_EPSN (unordered). -/
  bitmap : List Nat
  /-- Messages of an unordered QP whose last packet has landed and whose last PSN has not been passed: last PSN, and the
  counter of a trigger. -/
  ends : List (Nat × Option Nat)
  /-- Packets of a protected unordered QP that wait for their turn, by PSN. -/
  ahead : List (Nat × List Byte)
  /-- Results of the last 32 atomics, latest first: PSN and original value. -/
  atomics : List (Nat × W64)
  /-- First segment numbers of the last 32 protected READ requests answered, latest first, by PSN. -/
  reads : List (Nat × Nat)
  /-- Packets landed since the last Acknowledge. -/
  unacked : Nat
  /-- A sequence-error NAK has been sent since the last expected packet. -/
  nakSent : Bool
  /-- The requester waits out an RNR time, and will go back to this PSN. -/
  rnrWait : Option Nat
  /-- Times of the last CNP sent, the last decrease and the last RTT cut, in ns. -/
  cnpAt : Option Nat
  decAt : Option Nat
  rttAt : Option Nat
  /-- Next receive message number to send (unordered). -/
  sendNo : Nat
  /-- Syndrome of the NAK that moved the QP to ERROR. -/
  synd : Nat
  /-- QP_DRAINED has been posted. -/
  drained : Bool
  /-- The state that a freeze found the QP in (R454). -/
  frozen : Nat
  deriving DecidableEq, Repr

/-- QPE. -/
structure Qpe where
  qps : Tab Qp
  /-- Trigger counters that are not zero, by 4 × QPN + counter; they outlive the QP (R387). -/
  trig : Tab W32
  /-- Address handles (R421). -/
  ahs : Tab (BitVec 512)
  deriving DecidableEq, Repr


/-! ## Memory regions and translation (chapter 12) -/

/-- A DTU root (R431). -/
structure DtuRoot where
  table : Nat
  fn : Nat
  link : Nat
  deriving DecidableEq, Repr

/-- A table word replaced since a fence, whose old value a translation may still use (R434). -/
structure StaleWord where
  seq : Nat
  addr : Nat
  old : W64
  deriving DecidableEq, Repr

/-- A root setting replaced since a fence (R431). -/
structure StaleRoot where
  seq : Nat
  root : Nat
  old : DtuRoot
  deriving DecidableEq, Repr

/-- The DTU. -/
structure Dtu where
  /-- Memory-region entries (R423) that differ from FREE with GEN 255. -/
  mr : Tab (BitVec 256)
  roots : Tab DtuRoot
  /-- Updates applied so far. -/
  seq : Nat
  /-- The update count at the last SYNC_FENCE that covered a root. -/
  fenced : Tab Nat
  fencedAll : Nat
  staleWords : List StaleWord
  staleRoots : List StaleRoot
  /-- Revokes awaiting REVOKE_DONE, by region index. -/
  revoking : List Nat
  /-- A REVOKE held while 64 were pending. -/
  heldRevoke : Option Nat
  /-- SYNC_FENCEs awaiting SYNC_DONE: the root, none for all, and the update count when written. -/
  syncs : List (Option Nat × Nat)
  /-- Fault records so far, written or dropped, since power-on. -/
  faultNo : Nat
  /-- Fault records written to the ring. -/
  faultWritten : Nat
  /-- Regions whose entry holds a lasting uncorrectable error, until it is written anew (R513). -/
  hurt : List Nat
  deriving DecidableEq, Repr
/-! ## Functions (chapter 13) -/

/-- VFM, beside its registers. -/
structure Vfm where
  /-- VF Enable and NumVFs of P0.A's SR-IOV capability (R453). -/
  vfEnable : Bool
  numVfs : Nat
  /-- Functions that drain because of an FLR, and return to ENABLED (R454). -/
  flr : List Nat
  /-- Mailbox buffers by function, toward it and from it; an unlisted one is zero (R449). -/
  toFn : Tab (List Byte)
  fromFn : Tab (List Byte)
  /-- `VFM_SELF_MBOX_DROP` by function (R450). -/
  selfDrop : Tab Nat
  deriving DecidableEq, Repr

/-! ## Caddy (chapter 14) -/

/-- A key slot (R472). -/
structure KeySlot where
  loaded : Bool
  /-- Key material: K1 in the low 32 bytes, K2 above it (R473). -/
  key : BitVec 512
  salt : BitVec 96
  /-- Imports since commit. -/
  imports : Nat
  /-- An erased key that units on pipelines still hold. -/
  old : Bool
  deriving DecidableEq, Repr

/-- A Caddy stream (R479). -/
structure CadStream where
  qid : Nat
  idx : Nat
  desc : BitVec 512
  fn : Nat
  part : Nat
  /-- The next unit to check; units on pipelines, with the key each took. -/
  next : Nat
  running : List (Nat × BitVec 512)
  /-- The status that ends the stream once running units have ended. -/
  ended : Option Status
  deriving DecidableEq, Repr

/-- Caddy. -/
structure Cad where
  slots : Tab KeySlot
  streams : Tab CadStream
  /-- The IMPORT that waits for a key to be overwritten: its target, and the blob read. -/
  waiting : Option (Nat × HostRead)
  /-- Pipelines that are fenced. -/
  fenced : List Nat
  deriving DecidableEq, Repr


/-! ## Trust (chapter 15) -/

/-- A signed SPDM response that waits for its signature (R498). -/
inductive SignReq where
  | challenge (mctp summary : Bool) (nonce : BitVec 256)
  /-- With the blocks as they stood when the signature started. -/
  | measurements (mctp : Bool) (blocks : List (Nat × Nat × List Byte)) (nonce : BitVec 256)
  deriving DecidableEq, Repr

/-- What an SPDM response carries (R497). -/
inductive SpdmRsp where
  /-- Version 1.3. -/
  | version
  /-- CERT_CAP, CHAL_CAP, MEAS_CAP = 2, and CTExponent. -/
  | capabilities (ctExponent : Nat)
  /-- SHA-256, the one ExtAsym entry (vendor and algorithm), SHA-256 for measurements. -/
  | algorithms (vendor algorithm : Nat)
  /-- The digest of the chain of slot 0. -/
  | digests (chain : BitVec 256)
  /-- A part of the chain of slot 0, and the bytes after it. -/
  | certificate (part : List Byte) (remainder : Nat)
  /-- Signed under the alias public key: the chain's digest, and the measurement summary if asked for. -/
  | challengeAuth (key : List Byte) (nonce : BitVec 256) (chain : BitVec 256) (summary : Option (BitVec 256))
  /-- Blocks with their index, value type and value; the alias public key when it is signed. -/
  | measurements (count : Nat) (blocks : List (Nat × Nat × List Byte)) (signed : Option (List Byte × BitVec 256))
  | error (code : Nat)
  deriving DecidableEq, Repr

/-- What an answer of the management interface carries (R586 to R590), beside its message type and command. -/
inductive MgtRsp where
  /-- MCTP control: completion code and body. -/
  | control (command code : Nat) (body : List Byte)
  /-- PLDM: type, command, completion code and body. -/
  | pldm (type command code : Nat) (body : List Byte)
  /-- A numeric sensor: its number, operational state (0 enabled, 1 disabled, 2 unavailable), reading and the highest of its thresholds
  that the reading meets (1 warning, 2 critical, 3 fatal). -/
  | reading (sensor op reading level : Nat)
  /-- A state sensor: its number, operational state and present state. -/
  | state (sensor op state : Nat)
  /-- The sensor PDR of a sensor, and the handle of the next one, 0 for none. -/
  | pdr (sensor next : Nat)
  /-- A sensor event: its sensor and reading; none when the queue is empty. -/
  | event (e : Option (Nat × Nat))
  /-- A vendor command: completion code and body. -/
  | vendor (command code : Nat) (body : List Byte)
  /-- The error for a message type that is not supported. -/
  | badType (type : Nat)
  deriving DecidableEq, Repr

/-- SEC. -/
structure Trust where
  /-- Rollback fuses that are blown (R489, R491). -/
  fuses : W64
  /-- OWNER_KEY, once programmed. -/
  owner : Option (BitVec 256)
  /-- An advance under way: the fuse being blown, the target, and whether this is its second blow (R492). -/
  blow : Option (Nat × Nat × Bool)
  /-- A debug token is in force (R500). -/
  token : Bool
  /-- SANITIZE waits for a commit to end, or runs (R501). -/
  sanitizeDue : Bool
  sanitizing : Bool
  /-- M2 to M5 (R496). -/
  m2 : List Byte
  m3 : List Byte
  m4 : List Byte
  m5 : List Byte
  /-- The compound device identifier, from which the alias key pair is derived (R493). -/
  cdi : List Byte
  /-- The alias key pair or its certificate is being made (R495). -/
  aliasBusy : Bool
  /-- SPDM connections, DOE and MCTP: 0 nothing, 1 after GET_VERSION, 2 after GET_CAPABILITIES, 3 after NEGOTIATE_ALGORITHMS. -/
  doe : Nat
  mctp : Nat
  signing : Option SignReq
  deriving DecidableEq, Repr

/-! ## Errors and management (chapters 16 and 20) -/

/-- RAS. -/
structure Ras where
  /-- The last 256 records, by RECORD mod 256 (R510). -/
  log : Tab (BitVec 512)
  /-- Log entries not read yet. -/
  unread : List Nat
  /-- Records so far, since power-on. -/
  count : Nat
  /-- Records written to the ring. -/
  written : Nat
  /-- Records of severity 2, 4 or 5 with each UNIT and LOCATION. -/
  repeats : List ((Nat × Nat) × Nat)
  /-- The entry latched by a read of RAS_LOG_DATA0. -/
  latch : BitVec 512
  /-- Errors detected whose retry has not ended. -/
  pending : List ErrSite
  /-- Distinct lines with a lasting uncorrectable error, by cluster and bank (R520). -/
  lines : List (Nat × Nat × Nat)
  /-- Spare lanes of die-to-die links that an in-service test has marked bad (R564). -/
  badSpares : Tab Nat
  /-- Fenced memory channels whose first access has left its record (R521): 16 × stack + channel, from 128 on LP5X devices. -/
  fenceSeen : List Nat
  deriving DecidableEq, Repr

/-- The management interface. -/
structure Mgt where
  /-- Queued sensor events, oldest first: sensor and reading. -/
  events : List (Nat × Nat)
  /-- Sensors with a pending bit. -/
  pend : List Nat
  /-- Disabled sensors. -/
  disabled : List Nat
  /-- Threshold level that each numeric sensor was last found at; unlisted: 0. -/
  levels : Tab Nat
  /-- Lasting uncorrectable and corrected-lasting errors since power-on. -/
  unc : Nat
  corr : Nat
  deriving DecidableEq, Repr

/-! ## Power, clocks, reset and pins (chapters 17 and 19) -/

/-- The straps sampled at release of cold reset (R574). -/
structure Straps where
  split : BitVec 4
  cxl : Bool
  leader : Bool
  smb : BitVec 3
  deriving DecidableEq, Repr

/-- Power, clocks, reset and the CMOS pins. -/
structure Power where
  straps : Straps
  /-- VDD_IO18 and VDD_AON are within tolerance: the outputs are defined (R576). -/
  rails : Bool
  /-- PWROK is high. -/
  pwrok : Bool
  /-- COLD_RST_N is low. -/
  coldPin : Bool
  /-- Cold reset is held. -/
  cold : Bool
  /-- Kettle is locked. -/
  kettle : Bool
  /-- INIT_DONE is high. -/
  initDone : Bool
  /-- BIST_FAIL_N is low. -/
  bistFail : Bool
  /-- THERMTRIP_N is low. -/
  thermtrip : Bool
  /-- PERSTn_N is high, in bit n. -/
  perst : BitVec 4
  /-- PWRBRAKE_N is low. -/
  brakePin : Bool
  /-- Notches named by the thermal response and the cap. -/
  thermal : Nat
  cap : Nat
  /-- The brake has been released and the applied notch still falls toward the others' (R540). -/
  falling : Option Nat
  /-- The notch whose divider is in force (R533). -/
  divider : Nat
  /-- Power estimates, latest first: as many as the longest window takes (R537). -/
  estimates : List Nat
  /-- CAP_CHECKs since the cap requester last lowered its notch, up to 1,000, and those in a row that found it at 6. -/
  sinceLower : Nat
  atSix : Nat
  /-- A THERMAL and a TJMAX event have been posted for the present crossing. -/
  hot : Bool
  tjmax : Bool
  /-- Ethernet lane groups whose reference clock is lost. -/
  erefLost : BitVec 4
  /-- The TAP instruction in force. -/
  tap : TapInstr
  deriving DecidableEq, Repr

/-! ## Self-test (chapter 18) -/

/-- The stages of an in-service test (R563). -/
inductive SvcStage where
  | quiet | prbs | restore
  deriving DecidableEq, Repr

/-- An in-service test that runs. -/
structure SvcTest where
  /-- 1 Onaud link, 2 spare lanes, 3 Ethernet port. -/
  kind : Nat
  index : Nat
  stage : SvcStage
  /-- RESULT so far: 0 pass, 1 transient, 2 lasting. -/
  result : Nat
  deriving DecidableEq, Repr

/-- Self-test. -/
structure Bst where
  /-- Power-on groups started, and ended. -/
  started : BitVec 8
  ended : BitVec 8
  /-- Lanes that self-test has found bad: Onaud lanes (4 × link + lane), Ethernet lanes, PCIe lanes (16 × port + lane). -/
  onfBad : List Nat
  ethBad : List Nat
  pcieBad : List Nat
  svc : Option SvcTest
  deriving DecidableEq, Repr

/-! ## What leaves the block -/

/-- What the block has sent out, newest last: the answers to reads and everything it writes to the world. -/
inductive Output where
  /-- The value of a register read through function `fn`'s BAR0. -/
  | regRead (fn off size : Nat) (val : W64)
  /-- Bytes written to a bus address on host link `link`; `flagged` marks a flagged write, ordered behind all earlier
  data writes. -/
  | hostWrite (link addr : Nat) (bytes : List Byte) (flagged : Bool)
  /-- MSI-X vector `vec` of function `fn`. -/
  | msix (fn vec : Nat)
  /-- A read of a function's BAR4 answered with Unsupported Request. -/
  | unsupported (fn off : Nat)
  /-- Data answered to a CXL.mem read. -/
  | cxlData (bytes : List Byte)
  /-- A back-invalidation of a 64-byte line of the CXL range, by device address. -/
  | backInvalidate (line : Nat)
  /-- A cell sent on an Onaud link, with its CRC (R230); a control cell's body layout is not given, and its CRC is left
  out. -/
  | cell (link : Nat) (hdr : BitVec 96) (payload : BitVec 512) (crc : W32)
  /-- A control cell sent on an Onaud link. -/
  | control (link : Nat) (hdr : BitVec 96) (scope bseq : Nat) (m : CtlMsg)
  /-- IDLE, LINK_NAK or ECHO_REQ: a cell with no payload that the spec gives. -/
  | plainCell (link : Nat) (hdr : BitVec 96)
  /-- An ECHO_RSP. -/
  | echoRsp (link : Nat)
  /-- An IDENT. -/
  | ident (link : Nat) (id : Ident)
  /-- A frame sent on an Ethernet port, and the AN and PN it is protected under. -/
  | frame (port : Nat) (sec : Option (Nat × Nat)) (f : TxFrame)
  /-- A PAUSE (`pfc` false) or PFC frame sent: class and quanta. -/
  | pause (port : Nat) (pfc : Bool) (cls quanta : Nat)
  /-- A PCIe AtomicOp of 8 bytes: a compare-and-swap, or a fetch-and-add of `arg`. -/
  | hostAtomic (link addr : Nat) (cas : Bool) (compare arg : Nat)
  /-- The IDCODE register shifted out of TDO (R578). -/
  | tapIdcode (bits : W32)
  /-- An answer of the management interface to an MCTP message. -/
  | mctp (r : MgtRsp)
  /-- The SMBus address, answered to the Alert Response Address. -/
  | alertAddress (a : Nat)
  /-- An SPDM response over DOE (`mctp` false) or MCTP. -/
  | spdm (mctp : Bool) (r : SpdmRsp)
  deriving DecidableEq, Repr


/-! ## The whole -/

/-- Everything but the queue. -/
structure Dev where
  /-- What has left the block, newest last. -/
  out : List Output
  /-- Counts the values taken from outside the spec's rules (the model's own; see `Config.freeValue`). -/
  fresh : Nat
  /-- Registers. -/
  reg : RegFile
  /-- Images. -/
  img : Img
  /-- Tiles. -/
  tl : Tiles
  /-- Memory and placement. -/
  mem : MemSt
  /-- Caddy. -/
  cad : Cad
  /-- Events. -/
  ev : Events
  /-- The DTU. -/
  dtu : Dtu
  /-- Power, clocks, reset and pins. -/
  pw : Power
  /-- Self-test. -/
  bst : Bst
  /-- Host links. -/
  hif : Hif
  /-- Work queues. -/
  wq : Wqs
  /-- Errors. -/
  ras : Ras
  /-- The management interface. -/
  mg : Mgt
  /-- Onaud. -/
  onf : Onf
  /-- Expert dispatch. -/
  xdu : Xdu
  /-- TCLK time in ns, which the idle block's ticks advance (log entry 1). -/
  clk : Nat
  /-- The Ethernet side. -/
  eth : Eth
  /-- Transmit scheduling. -/
  txs : Txs
  /-- Queue pairs. -/
  qpe : Qpe
  /-- Samovar. -/
  smv : Smv
  /-- Trust. -/
  tr : Trust
  /-- Functions. -/
  vf : Vfm
  deriving DecidableEq, Repr

/-- The state: the commands that wait, first in first out, and the block. -/
structure State where
  /-- Commands waiting, the next one first. -/
  pending : List Instr
  /-- The block. -/
  dev : Dev
  deriving DecidableEq, Repr

/-- No image. -/
def Img.reset : Img := ⟨none, ⟨[]⟩, ⟨[]⟩, false, ⟨[]⟩, none, false, ⟨[]⟩⟩

/-- A tile at its start but for its program's registers (R119). -/
def Tile.reset : Tile :=
  ⟨.idle, 0, ⟨[]⟩, ⟨[]⟩, ⟨[]⟩, ⟨[]⟩, ⟨[]⟩, ⟨[]⟩, [], [], 0, 0, 0, ⟨[]⟩, ⟨[]⟩, ⟨[]⟩, none⟩

/-- No tile has started. -/
def Tiles.reset : Tiles := ⟨⟨[]⟩, [], ⟨[]⟩, 0, ⟨[]⟩, 0⟩

/-- Memory with nothing listed. -/
def MemSt.reset : MemSt := ⟨⟨[]⟩, [], ⟨[]⟩, [], ⟨[]⟩, [], none, [], ⟨[]⟩, ⟨[]⟩, 0⟩

/-- No key loaded. -/
def Cad.reset : Cad := ⟨⟨[]⟩, ⟨[]⟩, none, []⟩

/-- No event queue. -/
def Events.reset : Events := ⟨⟨[]⟩, ⟨[]⟩, [], ⟨[]⟩, []⟩

/-- No region and no root; every GEN is 255 (R424). -/
def Dtu.reset : Dtu := ⟨⟨[]⟩, ⟨[]⟩, 0, ⟨[]⟩, 0, [], [], [], none, [], 0, 0, []⟩

/-- Power has just come on: cold reset is held and no strap has been sampled (log entry 3). -/
def Power.reset : Power :=
  { straps := ⟨0, false, false, 0⟩, rails := false, pwrok := false, coldPin := false, cold := true, kettle := false,
    initDone := false, bistFail := false, thermtrip := false, perst := 0, brakePin := false, thermal := 0, cap := 0,
    falling := none, divider := 0, estimates := [], sinceLower := 1000, atSix := 0, hot := false, tjmax := false, erefLost := 0,
    tap := .idcode }

/-- No self-test has run. -/
def Bst.reset : Bst := ⟨0, 0, [], [], [], none⟩

/-- No link has been lost. -/
def Hif.reset : Hif := ⟨[], [], []⟩

/-- Every queue is in RESET. -/
def Wqs.reset : Wqs := ⟨⟨[]⟩, ⟨[]⟩⟩

/-- No error has been seen. -/
def Ras.reset : Ras := ⟨⟨[]⟩, [], 0, 0, [], 0, [], [], ⟨[]⟩, []⟩

/-- No sensor event waits and every sensor is enabled. -/
def Mgt.reset : Mgt := ⟨[], [], [], ⟨[]⟩, 0, 0⟩

/-- A link with nothing sent, received or measured. -/
def OnfLink.reset : OnfLink :=
  { txSeq := 0, rxSeq := 0, replay := [], credits := ⟨[]⟩, owed := ⟨[]⟩, queue := [], nak := false, failSeq := none, ident := none,
    echoes := 0, echoMax := 0, recal := false, testing := false, saved := none, stalls := 0, replays := 0, slip := 0 }

/-- No link has trained. -/
def Onf.reset : Onf :=
  { links := ⟨[]⟩, txTag := ⟨[]⟩, rxTag := ⟨[]⟩, rx := ⟨[]⟩, held := [], inbox := [], bseq := 0, seen := [], aligned := false,
    offset := 0, upSeen := false, closed := false, claim := none, follows := false, lastPod := none, switches := [],
    failedLinks := [], avoidLinks := [], avoidRanks := [], peersTold := [], cmapFrames := 1024, cmapEn := false, interval := 0, parts := ⟨[]⟩,
    written := 0, baseSent := false }

/-- No context runs. -/
def Xdu.reset : Xdu := ⟨⟨[]⟩, ⟨[]⟩, 0, ⟨[]⟩, ⟨[]⟩, 0, ⟨[]⟩, [], [], []⟩

/-- No rule, no SA, and nothing received. -/
def Eth.reset : Eth := ⟨⟨[]⟩, ⟨[]⟩, [], ⟨[]⟩, [], ⟨[]⟩, 0, 0⟩

/-- Nothing staged. -/
def Txs.reset : Txs := ⟨[], [], [], ⟨[]⟩, ⟨[]⟩, ⟨[]⟩, ⟨[]⟩, ⟨[]⟩, ⟨[]⟩, ⟨[]⟩, ⟨[]⟩, ⟨[]⟩, [], ⟨[]⟩, 0, 0⟩

/-- Every queue pair is in RESET. -/
def Qpe.reset : Qpe := ⟨⟨[]⟩, ⟨[]⟩, ⟨[]⟩⟩

/-- No collective runs, and no base has come. -/
def Smv.reset : Smv := ⟨false, 0, ⟨[]⟩, ⟨[]⟩, [], ⟨[]⟩⟩

/-- As made: no rollback fuse is blown, no owner key is programmed and nothing is derived yet. -/
def Trust.reset : Trust :=
  { fuses := 0, owner := none, blow := none, token := false, sanitizeDue := false, sanitizing := false, m2 := List.replicate 32 0,
    m3 := List.replicate 4 0, m4 := List.replicate 4 0, m5 := List.replicate 32 0, cdi := [], aliasBusy := false, doe := 0, mctp := 0,
    signing := none }

/-- No VF is enabled and every mailbox is empty. -/
def Vfm.reset : Vfm := ⟨false, 0, [], ⟨[]⟩, ⟨[]⟩, ⟨[]⟩⟩

/-- The block when power has just come on: cold reset is held (log entry 3). -/
def Dev.reset : Dev :=
  { out := [],
    fresh := 0,
    reg := ⟨⟨[]⟩, ⟨[]⟩, ⟨[]⟩⟩,
    img := Img.reset,
    tl := Tiles.reset,
    mem := MemSt.reset,
    cad := Cad.reset,
    ev := Events.reset,
    dtu := Dtu.reset,
    pw := Power.reset,
    bst := Bst.reset,
    hif := Hif.reset,
    wq := Wqs.reset,
    ras := Ras.reset,
    mg := Mgt.reset,
    onf := Onf.reset,
    xdu := Xdu.reset,
    clk := 0,
    eth := Eth.reset,
    txs := Txs.reset,
    qpe := Qpe.reset,
    smv := Smv.reset,
    tr := Trust.reset,
    vf := Vfm.reset }

/-- The machine right after reset: the block in cold reset and no command waiting. -/
def State.reset : State := ⟨[], Dev.reset⟩

end Sys2Proof.Machine
end

