-- ==== Sys2Proof/Machine/Fields.lean ====
section
/-! DEFINITION. Change one part of the block. -/
namespace Sys2Proof.Machine
open Sys2Proof

/-- Change the part `reg`. -/
def Dev.upReg (d : Dev) (f : RegFile → RegFile) : Dev := { d with reg := f d.reg }

/-- Change the part `img`. -/
def Dev.upImg (d : Dev) (f : Img → Img) : Dev := { d with img := f d.img }

/-- Change the part `tl`. -/
def Dev.upTl (d : Dev) (f : Tiles → Tiles) : Dev := { d with tl := f d.tl }

/-- Change the part `mem`. -/
def Dev.upMem (d : Dev) (f : MemSt → MemSt) : Dev := { d with mem := f d.mem }

/-- Change the part `cad`. -/
def Dev.upCad (d : Dev) (f : Cad → Cad) : Dev := { d with cad := f d.cad }

/-- Change the part `ev`. -/
def Dev.upEv (d : Dev) (f : Events → Events) : Dev := { d with ev := f d.ev }

/-- Change the part `dtu`. -/
def Dev.upDtu (d : Dev) (f : Dtu → Dtu) : Dev := { d with dtu := f d.dtu }

/-- Change the part `pw`. -/
def Dev.upPw (d : Dev) (f : Power → Power) : Dev := { d with pw := f d.pw }

/-- Change the part `bst`. -/
def Dev.upBst (d : Dev) (f : Bst → Bst) : Dev := { d with bst := f d.bst }

/-- Change the part `hif`. -/
def Dev.upHif (d : Dev) (f : Hif → Hif) : Dev := { d with hif := f d.hif }

/-- Change the part `wq`. -/
def Dev.upWq (d : Dev) (f : Wqs → Wqs) : Dev := { d with wq := f d.wq }

/-- Change the part `ras`. -/
def Dev.upRas (d : Dev) (f : Ras → Ras) : Dev := { d with ras := f d.ras }

/-- Change the part `mg`. -/
def Dev.upMg (d : Dev) (f : Mgt → Mgt) : Dev := { d with mg := f d.mg }

/-- Change the part `onf`. -/
def Dev.upOnf (d : Dev) (f : Onf → Onf) : Dev := { d with onf := f d.onf }

/-- Change the part `xdu`. -/
def Dev.upXdu (d : Dev) (f : Xdu → Xdu) : Dev := { d with xdu := f d.xdu }

/-- Change the part `eth`. -/
def Dev.upEth (d : Dev) (f : Eth → Eth) : Dev := { d with eth := f d.eth }

/-- Change the part `txs`. -/
def Dev.upTxs (d : Dev) (f : Txs → Txs) : Dev := { d with txs := f d.txs }

/-- Change the part `qpe`. -/
def Dev.upQpe (d : Dev) (f : Qpe → Qpe) : Dev := { d with qpe := f d.qpe }

/-- Change the part `smv`. -/
def Dev.upSmv (d : Dev) (f : Smv → Smv) : Dev := { d with smv := f d.smv }

/-- Change the part `tr`. -/
def Dev.upTr (d : Dev) (f : Trust → Trust) : Dev := { d with tr := f d.tr }

/-- Change the part `vf`. -/
def Dev.upVf (d : Dev) (f : Vfm → Vfm) : Dev := { d with vf := f d.vf }

end Sys2Proof.Machine
end

