-- ==== Sys2Proof/Machine/RegMap.lean ====
section
/-! DEFINITION. The register map: every register of the spec's tables, its offset in PF0's BAR0 (R7), its width (R8)
and its fields with their access codes, reset values and clamps.  A name with a lower-case letter in it is a family
of registers indexed by that letter. -/
namespace Sys2Proof.Machine

/-- The access codes of R9. -/
inductive Access where
  | ro | rw | rwl | w1c | w1s | wo | rc
  deriving DecidableEq, Repr

/-- A register field's definition: place, access code, Reset value, whether writing it is a command of its own, and
the range written values are clamped to. -/
structure FieldDef where
  lo : Nat
  w : Nat
  acc : Access
  reset : Nat
  own : Bool
  clamp : Option (Nat × Nat)
  deriving DecidableEq, Repr

/-- A family of registers: first offset, up to two index ranges with their strides, width and fields. -/
structure RegDef where
  base : Nat
  n1 : Nat
  s1 : Nat
  n2 : Nat
  s2 : Nat
  wide : Bool
  fields : List FieldDef
  deriving DecidableEq, Repr

/-- A field of one register: the register's offset and the field's bits. -/
structure RegField where
  off : Nat
  lo : Nat
  w : Nat
  deriving DecidableEq, Repr

namespace Reg

/-- `IMG_CTL` (R67). -/
def IMG_CTL : Nat := 0x100000
/-- `IMG_CTL.ABORT`. -/
def IMG_CTL_ABORT : RegField := ⟨IMG_CTL, 2, 1⟩
/-- `IMG_CTL.COMMIT`. -/
def IMG_CTL_COMMIT : RegField := ⟨IMG_CTL, 1, 1⟩
/-- `IMG_CTL.LOAD`. -/
def IMG_CTL_LOAD : RegField := ⟨IMG_CTL, 0, 1⟩
/-- `IMG_STATUS` (R68). -/
def IMG_STATUS : Nat := 0x100004
/-- `IMG_STATUS.STATUS`. -/
def IMG_STATUS_STATUS : RegField := ⟨IMG_STATUS, 24, 8⟩
/-- `IMG_STATUS.REASON`. -/
def IMG_STATUS_REASON : RegField := ⟨IMG_STATUS, 16, 8⟩
/-- `IMG_STATUS.ERR_SECTION`. -/
def IMG_STATUS_ERR_SECTION : RegField := ⟨IMG_STATUS, 8, 8⟩
/-- `IMG_STATUS.CMD_ERR`. -/
def IMG_STATUS_CMD_ERR : RegField := ⟨IMG_STATUS, 7, 1⟩
/-- `IMG_STATUS.DONE`. -/
def IMG_STATUS_DONE : RegField := ⟨IMG_STATUS, 6, 1⟩
/-- `IMG_STATUS.STATE`. -/
def IMG_STATUS_STATE : RegField := ⟨IMG_STATUS, 0, 3⟩
/-- `IMG_STAGE_ADDR` (R69). -/
def IMG_STAGE_ADDR : Nat := 0x100008
/-- `IMG_STAGE_ADDR.ADDR`. -/
def IMG_STAGE_ADDR_ADDR : RegField := ⟨IMG_STAGE_ADDR, 0, 64⟩
/-- `IMG_STAGE_LEN` (R69). -/
def IMG_STAGE_LEN : Nat := 0x100010
/-- `IMG_STAGE_LEN.LEN`. -/
def IMG_STAGE_LEN_LEN : RegField := ⟨IMG_STAGE_LEN, 0, 32⟩
/-- `IMG_POLICY` (R69). -/
def IMG_POLICY : Nat := 0x100014
/-- `IMG_POLICY.REFUSE_VARIANT`. -/
def IMG_POLICY_REFUSE_VARIANT : RegField := ⟨IMG_POLICY, 0, 1⟩
/-- `IMG_DRAIN_LIMIT` (R69). -/
def IMG_DRAIN_LIMIT : Nat := 0x100018
/-- `IMG_DRAIN_LIMIT.DRAIN_US`. -/
def IMG_DRAIN_LIMIT_DRAIN_US : RegField := ⟨IMG_DRAIN_LIMIT, 0, 32⟩
/-- `GLB_STRUCT_EPOCH` (R69). -/
def GLB_STRUCT_EPOCH : Nat := 0x8
/-- `GLB_STRUCT_EPOCH.EPOCH`. -/
def GLB_STRUCT_EPOCH_EPOCH : RegField := ⟨GLB_STRUCT_EPOCH, 0, 32⟩
/-- `GLB_ROLE_EPOCHn` (R69). -/
def GLB_ROLE_EPOCHn (n : Nat) : Nat := 0x10 + 0x4 * n
/-- `GLB_ROLE_EPOCHn.EPOCHS`. -/
def GLB_ROLE_EPOCHn_EPOCHS (n : Nat) : RegField := ⟨GLB_ROLE_EPOCHn n, 0, 32⟩
/-- `GLB_IMAGE_INFO` (R69). -/
def GLB_IMAGE_INFO : Nat := 0x30
/-- `GLB_IMAGE_INFO.SECURITY_VERSION`. -/
def GLB_IMAGE_INFO_SECURITY_VERSION : RegField := ⟨GLB_IMAGE_INFO, 8, 9⟩
/-- `GLB_IMAGE_INFO.VARIANT`. -/
def GLB_IMAGE_INFO_VARIANT : RegField := ⟨GLB_IMAGE_INFO, 1, 1⟩
/-- `GLB_IMAGE_INFO.COMMITTED`. -/
def GLB_IMAGE_INFO_COMMITTED : RegField := ⟨GLB_IMAGE_INFO, 0, 1⟩
/-- `GLB_POD_IMAGE_ID` (R69). -/
def GLB_POD_IMAGE_ID : Nat := 0x38
/-- `GLB_POD_IMAGE_ID.ID`. -/
def GLB_POD_IMAGE_ID_ID : RegField := ⟨GLB_POD_IMAGE_ID, 0, 64⟩
/-- `CLU_TILE_STATE` (R139). -/
def CLU_TILE_STATE (c : Nat) : Nat := 0x2000000 + 0x100000 * c
/-- `CLU_TILE_RESTART` (R139). -/
def CLU_TILE_RESTART (c : Nat) : Nat := 0x2000004 + 0x100000 * c
/-- `CLU_TILE_RESTART.RESTART`. -/
def CLU_TILE_RESTART_RESTART (c : Nat) : RegField := ⟨CLU_TILE_RESTART c, 0, 16⟩
/-- `CLU_STALL_LIMIT` (R139). -/
def CLU_STALL_LIMIT (c : Nat) : Nat := 0x2000008 + 0x100000 * c
/-- `CLU_STALL_LIMIT.LIMIT_US`. -/
def CLU_STALL_LIMIT_LIMIT_US (c : Nat) : RegField := ⟨CLU_STALL_LIMIT c, 0, 32⟩
/-- `CLU_TILE_CAUSEt` (R139). -/
def CLU_TILE_CAUSEt (c t : Nat) : Nat := 0x2000100 + 0x100000 * c + 0x8 * t
/-- `CLU_TILE_CAUSEt.CAUSE`. -/
def CLU_TILE_CAUSEt_CAUSE (c t : Nat) : RegField := ⟨CLU_TILE_CAUSEt c t, 56, 8⟩
/-- `CLU_TILE_CAUSEt.PC`. -/
def CLU_TILE_CAUSEt_PC (c t : Nat) : RegField := ⟨CLU_TILE_CAUSEt c t, 43, 13⟩
/-- `CLU_TILE_CAUSEt.ADDR`. -/
def CLU_TILE_CAUSEt_ADDR (c t : Nat) : RegField := ⟨CLU_TILE_CAUSEt c t, 0, 40⟩
/-- `CLU_SP_STALLt` (R139). -/
def CLU_SP_STALLt (c t : Nat) : Nat := 0x2000200 + 0x100000 * c + 0x8 * t
/-- `CLU_SP_STALLt.COUNT`. -/
def CLU_SP_STALLt_COUNT (c t : Nat) : RegField := ⟨CLU_SP_STALLt c t, 0, 64⟩
/-- `CLU_CM_STALL` (R139). -/
def CLU_CM_STALL (c : Nat) : Nat := 0x2000300 + 0x100000 * c
/-- `CLU_CM_STALL.COUNT`. -/
def CLU_CM_STALL_COUNT (c : Nat) : RegField := ⟨CLU_CM_STALL c, 0, 64⟩
/-- `CLU_MSG_EPOCH_DROP` (R139). -/
def CLU_MSG_EPOCH_DROP (c : Nat) : Nat := 0x2000308 + 0x100000 * c
/-- `CLU_MSG_EPOCH_DROP.COUNT`. -/
def CLU_MSG_EPOCH_DROP_COUNT (c : Nat) : RegField := ⟨CLU_MSG_EPOCH_DROP c, 0, 32⟩
/-- `CLU_NOC_CREDIT_STALL` (R139). -/
def CLU_NOC_CREDIT_STALL (c : Nat) : Nat := 0x200030c + 0x100000 * c
/-- `CLU_NOC_CREDIT_STALL.COUNT`. -/
def CLU_NOC_CREDIT_STALL_COUNT (c : Nat) : RegField := ⟨CLU_NOC_CREDIT_STALL c, 0, 32⟩
/-- `MEM_PLACE_EN` (R193). -/
def MEM_PLACE_EN : Nat := 0x1000000
/-- `MEM_PLACE_EN.PART_EN`. -/
def MEM_PLACE_EN_PART_EN : RegField := ⟨MEM_PLACE_EN, 0, 32⟩
/-- `MEM_EPOCH_COUNT` (R193). -/
def MEM_EPOCH_COUNT : Nat := 0x1000004
/-- `MEM_EPOCH_COUNT.EPOCH`. -/
def MEM_EPOCH_COUNT_EPOCH : RegField := ⟨MEM_EPOCH_COUNT, 0, 32⟩
/-- `MEM_SCRUB_CTL` (R193). -/
def MEM_SCRUB_CTL : Nat := 0x1000008
/-- `MEM_SCRUB_CTL.HOURS`. -/
def MEM_SCRUB_CTL_HOURS : RegField := ⟨MEM_SCRUB_CTL, 0, 8⟩
/-- `MEM_CLEAR_BUSY` (R193). -/
def MEM_CLEAR_BUSY : Nat := 0x100000c
/-- `MEM_CLEAR_BUSY.BUSY`. -/
def MEM_CLEAR_BUSY_BUSY : RegField := ⟨MEM_CLEAR_BUSY, 0, 32⟩
/-- `MEM_BLK_ADDR` (R193). -/
def MEM_BLK_ADDR : Nat := 0x1000010
/-- `MEM_BLK_ADDR.BLOCK`. -/
def MEM_BLK_ADDR_BLOCK : RegField := ⟨MEM_BLK_ADDR, 21, 21⟩
/-- `MEM_BLK_CMD` (R193). -/
def MEM_BLK_CMD : Nat := 0x1000018
/-- `MEM_BLK_CMD.COUNT`. -/
def MEM_BLK_CMD_COUNT : RegField := ⟨MEM_BLK_CMD, 8, 16⟩
/-- `MEM_BLK_CMD.OP`. -/
def MEM_BLK_CMD_OP : RegField := ⟨MEM_BLK_CMD, 0, 2⟩
/-- `MEM_BLK_STATUS` (R193). -/
def MEM_BLK_STATUS : Nat := 0x100001c
/-- `MEM_BLK_STATUS.BUSY`. -/
def MEM_BLK_STATUS_BUSY : RegField := ⟨MEM_BLK_STATUS, 31, 1⟩
/-- `MEM_BLK_STATUS.CMD_ERR`. -/
def MEM_BLK_STATUS_CMD_ERR : RegField := ⟨MEM_BLK_STATUS, 30, 1⟩
/-- `MEM_BLK_STATUS.STATUS`. -/
def MEM_BLK_STATUS_STATUS : RegField := ⟨MEM_BLK_STATUS, 0, 8⟩
/-- `MEM_THRESHp` (R193). -/
def MEM_THRESHp (p : Nat) : Nat := 0x1001000 + 0x40 * p
/-- `MEM_THRESHp.PROMOTE`. -/
def MEM_THRESHp_PROMOTE (p : Nat) : RegField := ⟨MEM_THRESHp p, 16, 16⟩
/-- `MEM_THRESHp.DEMOTE`. -/
def MEM_THRESHp_DEMOTE (p : Nat) : RegField := ⟨MEM_THRESHp p, 0, 16⟩
/-- `MEM_POLICYp` (R193). -/
def MEM_POLICYp (p : Nat) : Nat := 0x1001004 + 0x40 * p
/-- `MEM_POLICYp.MIN_DWELL`. -/
def MEM_POLICYp_MIN_DWELL (p : Nat) : RegField := ⟨MEM_POLICYp p, 16, 8⟩
/-- `MEM_POLICYp.DECAY_SHIFT`. -/
def MEM_POLICYp_DECAY_SHIFT (p : Nat) : RegField := ⟨MEM_POLICYp p, 8, 4⟩
/-- `MEM_USEp` (R193). -/
def MEM_USEp (p : Nat) : Nat := 0x1001008 + 0x40 * p
/-- `MEM_USEp.REMOTE`. -/
def MEM_USEp_REMOTE (p : Nat) : RegField := ⟨MEM_USEp p, 40, 20⟩
/-- `MEM_USEp.HBM`. -/
def MEM_USEp_HBM (p : Nat) : RegField := ⟨MEM_USEp p, 20, 20⟩
/-- `MEM_USEp.CM`. -/
def MEM_USEp_CM (p : Nat) : RegField := ⟨MEM_USEp p, 0, 20⟩
/-- `MEM_MIG_DONEp` (R193). -/
def MEM_MIG_DONEp (p : Nat) : Nat := 0x1001010 + 0x40 * p
/-- `MEM_MIG_DONEp.COUNT`. -/
def MEM_MIG_DONEp_COUNT (p : Nat) : RegField := ⟨MEM_MIG_DONEp p, 0, 32⟩
/-- `MEM_MIG_ABANDONp` (R193). -/
def MEM_MIG_ABANDONp (p : Nat) : Nat := 0x1001014 + 0x40 * p
/-- `MEM_MIG_ABANDONp.COUNT`. -/
def MEM_MIG_ABANDONp_COUNT (p : Nat) : RegField := ⟨MEM_MIG_ABANDONp p, 0, 32⟩
/-- `MEM_PLACE_ABORTp` (R193). -/
def MEM_PLACE_ABORTp (p : Nat) : Nat := 0x1001018 + 0x40 * p
/-- `MEM_PLACE_ABORTp.COUNT`. -/
def MEM_PLACE_ABORTp_COUNT (p : Nat) : RegField := ⟨MEM_PLACE_ABORTp p, 0, 32⟩
/-- `MEM_LOSTp` (R193). -/
def MEM_LOSTp (p : Nat) : Nat := 0x100101c + 0x40 * p
/-- `MEM_LOSTp.COUNT`. -/
def MEM_LOSTp_COUNT (p : Nat) : RegField := ⟨MEM_LOSTp p, 0, 32⟩
/-- `XDU_BATCH_TIMEOUT` (R223). -/
def XDU_BATCH_TIMEOUT : Nat := 0xf00000
/-- `XDU_BATCH_TIMEOUT.LIMIT_US`. -/
def XDU_BATCH_TIMEOUT_LIMIT_US : RegField := ⟨XDU_BATCH_TIMEOUT, 0, 32⟩
/-- `XDU_EPT_INDEX` (R223). -/
def XDU_EPT_INDEX : Nat := 0xf00004
/-- `XDU_EPT_INDEX.INDEX`. -/
def XDU_EPT_INDEX_INDEX : RegField := ⟨XDU_EPT_INDEX, 0, 16⟩
/-- `XDU_EPT_DATAi` (R223). -/
def XDU_EPT_DATAi (i : Nat) : Nat := 0xf00010 + 0x4 * i
/-- `XDU_EPT_DATAi.WORD`. -/
def XDU_EPT_DATAi_WORD (i : Nat) : RegField := ⟨XDU_EPT_DATAi i, 0, 32⟩
/-- `XDU_ACTIVEd` (R223). -/
def XDU_ACTIVEd (d : Nat) : Nat := 0xf01000 + 0x100 * d
/-- `XDU_ACTIVEd.BATCHES`. -/
def XDU_ACTIVEd_BATCHES (d : Nat) : RegField := ⟨XDU_ACTIVEd d, 16, 16⟩
/-- `XDU_ACTIVEd.CONTEXTS`. -/
def XDU_ACTIVEd_CONTEXTS (d : Nat) : RegField := ⟨XDU_ACTIVEd d, 0, 7⟩
/-- `XDU_FIREDd` (R223). -/
def XDU_FIREDd (d : Nat) : Nat := 0xf01004 + 0x100 * d
/-- `XDU_FIREDd.COUNT`. -/
def XDU_FIREDd_COUNT (d : Nat) : RegField := ⟨XDU_FIREDd d, 0, 32⟩
/-- `XDU_DEFER_TOKd` (R223). -/
def XDU_DEFER_TOKd (d : Nat) : Nat := 0xf01008 + 0x100 * d
/-- `XDU_DEFER_TOKd.COUNT`. -/
def XDU_DEFER_TOKd_COUNT (d : Nat) : RegField := ⟨XDU_DEFER_TOKd d, 0, 32⟩
/-- `XDU_REMOTE_OUTd` (R223). -/
def XDU_REMOTE_OUTd (d : Nat) : Nat := 0xf0100c + 0x100 * d
/-- `XDU_REMOTE_OUTd.COUNT`. -/
def XDU_REMOTE_OUTd_COUNT (d : Nat) : RegField := ⟨XDU_REMOTE_OUTd d, 0, 32⟩
/-- `XDU_REMOTE_INd` (R223). -/
def XDU_REMOTE_INd (d : Nat) : Nat := 0xf01010 + 0x100 * d
/-- `XDU_REMOTE_INd.COUNT`. -/
def XDU_REMOTE_INd_COUNT (d : Nat) : RegField := ⟨XDU_REMOTE_INd d, 0, 32⟩
/-- `XDU_KILLEDd` (R223). -/
def XDU_KILLEDd (d : Nat) : Nat := 0xf01014 + 0x100 * d
/-- `XDU_KILLEDd.COUNT`. -/
def XDU_KILLEDd_COUNT (d : Nat) : RegField := ⟨XDU_KILLEDd d, 0, 32⟩
/-- `XDU_STALE_DROPd` (R223). -/
def XDU_STALE_DROPd (d : Nat) : Nat := 0xf01018 + 0x100 * d
/-- `XDU_STALE_DROPd.COUNT`. -/
def XDU_STALE_DROPd_COUNT (d : Nat) : RegField := ⟨XDU_STALE_DROPd d, 0, 32⟩
/-- `XDU_EPOCH_DROPd` (R223). -/
def XDU_EPOCH_DROPd (d : Nat) : Nat := 0xf0101c + 0x100 * d
/-- `XDU_EPOCH_DROPd.COUNT`. -/
def XDU_EPOCH_DROPd_COUNT (d : Nat) : RegField := ⟨XDU_EPOCH_DROPd d, 0, 32⟩
/-- `XDU_TIMEOUTd` (R223). -/
def XDU_TIMEOUTd (d : Nat) : Nat := 0xf01020 + 0x100 * d
/-- `XDU_TIMEOUTd.COUNT`. -/
def XDU_TIMEOUTd_COUNT (d : Nat) : RegField := ⟨XDU_TIMEOUTd d, 0, 32⟩
/-- `XDU_ZCNTz` (R223). -/
def XDU_ZCNTz (z : Nat) : Nat := 0xf08000 + 0x4 * z
/-- `XDU_ZCNTz.COUNT`. -/
def XDU_ZCNTz_COUNT (z : Nat) : RegField := ⟨XDU_ZCNTz z, 0, 32⟩
/-- `ONF_POD_INFO` (R267). -/
def ONF_POD_INFO : Nat := 0xd00000
/-- `ONF_POD_INFO.IS_LEADER`. -/
def ONF_POD_INFO_IS_LEADER : RegField := ⟨ONF_POD_INFO, 31, 1⟩
/-- `ONF_POD_INFO.LEADER`. -/
def ONF_POD_INFO_LEADER : RegField := ⟨ONF_POD_INFO, 16, 6⟩
/-- `ONF_POD_INFO.POD_SIZE`. -/
def ONF_POD_INFO_POD_SIZE : RegField := ⟨ONF_POD_INFO, 8, 7⟩
/-- `ONF_POD_INFO.RANK`. -/
def ONF_POD_INFO_RANK : RegField := ⟨ONF_POD_INFO, 0, 6⟩
/-- `ONF_PODTIME` (R267). -/
def ONF_PODTIME : Nat := 0xd00008
/-- `ONF_PODTIME.NS`. -/
def ONF_PODTIME_NS : RegField := ⟨ONF_PODTIME, 0, 64⟩
/-- `ONF_ALIGN` (R267). -/
def ONF_ALIGN : Nat := 0xd00010
/-- `ONF_ALIGN.OFFSET`. -/
def ONF_ALIGN_OFFSET : RegField := ⟨ONF_ALIGN, 0, 8⟩
/-- `ONF_ALIGN_ERR` (R267). -/
def ONF_ALIGN_ERR : Nat := 0xd00014
/-- `ONF_ALIGN_ERR.COUNT`. -/
def ONF_ALIGN_ERR_COUNT : RegField := ⟨ONF_ALIGN_ERR, 0, 32⟩
/-- `ONF_ROUTE_STATUS` (R267). -/
def ONF_ROUTE_STATUS : Nat := 0xd00018
/-- `ONF_ROUTE_STATUS.SCHED_EPOCH`. -/
def ONF_ROUTE_STATUS_SCHED_EPOCH : RegField := ⟨ONF_ROUTE_STATUS, 16, 16⟩
/-- `ONF_ROUTE_STATUS.NOCOVER`. -/
def ONF_ROUTE_STATUS_NOCOVER : RegField := ⟨ONF_ROUTE_STATUS, 5, 1⟩
/-- `ONF_ROUTE_STATUS.PENDING`. -/
def ONF_ROUTE_STATUS_PENDING : RegField := ⟨ONF_ROUTE_STATUS, 4, 1⟩
/-- `ONF_ROUTE_STATUS.NEXT_SET`. -/
def ONF_ROUTE_STATUS_NEXT_SET : RegField := ⟨ONF_ROUTE_STATUS, 2, 2⟩
/-- `ONF_ROUTE_STATUS.ACTIVE_SET`. -/
def ONF_ROUTE_STATUS_ACTIVE_SET : RegField := ⟨ONF_ROUTE_STATUS, 0, 2⟩
/-- `ONF_ROUTE_CMD` (R267). -/
def ONF_ROUTE_CMD : Nat := 0xd0001c
/-- `ONF_ROUTE_CMD.GO`. -/
def ONF_ROUTE_CMD_GO : RegField := ⟨ONF_ROUTE_CMD, 2, 1⟩
/-- `ONF_ROUTE_CMD.SET`. -/
def ONF_ROUTE_CMD_SET : RegField := ⟨ONF_ROUTE_CMD, 0, 2⟩
/-- `ONF_LOST` (R267). -/
def ONF_LOST : Nat := 0xd00020
/-- `ONF_LOST.RANKS`. -/
def ONF_LOST_RANKS : RegField := ⟨ONF_LOST, 0, 64⟩
/-- `ONF_FENCE` (R267). -/
def ONF_FENCE : Nat := 0xd00028
/-- `ONF_FENCE.RANKS`. -/
def ONF_FENCE_RANKS : RegField := ⟨ONF_FENCE, 0, 64⟩
/-- `ONF_RECAL` (R267). -/
def ONF_RECAL : Nat := 0xd00030
/-- `ONF_RECAL.LINKS`. -/
def ONF_RECAL_LINKS : RegField := ⟨ONF_RECAL, 0, 64⟩
/-- `ONF_CMAP_CTL` (R267). -/
def ONF_CMAP_CTL : Nat := 0xd00038
/-- `ONF_CMAP_CTL.FRAMES`. -/
def ONF_CMAP_CTL_FRAMES : RegField := ⟨ONF_CMAP_CTL, 16, 16⟩
/-- `ONF_CMAP_CTL.ROOT`. -/
def ONF_CMAP_CTL_ROOT : RegField := ⟨ONF_CMAP_CTL, 6, 10⟩
/-- `ONF_CMAP_CTL.RING_LOG2`. -/
def ONF_CMAP_CTL_RING_LOG2 : RegField := ⟨ONF_CMAP_CTL, 1, 5⟩
/-- `ONF_CMAP_CTL.EN`. -/
def ONF_CMAP_CTL_EN : RegField := ⟨ONF_CMAP_CTL, 0, 1⟩
/-- `ONF_CMAP_BASE` (R267). -/
def ONF_CMAP_BASE : Nat := 0xd00040
/-- `ONF_CMAP_BASE.ADDR`. -/
def ONF_CMAP_BASE_ADDR : RegField := ⟨ONF_CMAP_BASE, 0, 64⟩
/-- `ONF_CMAP_HEAD_ADDR` (R267). -/
def ONF_CMAP_HEAD_ADDR : Nat := 0xd00048
/-- `ONF_CMAP_HEAD_ADDR.ADDR`. -/
def ONF_CMAP_HEAD_ADDR_ADDR : RegField := ⟨ONF_CMAP_HEAD_ADDR, 0, 64⟩
/-- `ONF_CMAP_TAIL` (R267). -/
def ONF_CMAP_TAIL : Nat := 0xd00050
/-- `ONF_CMAP_TAIL.TAIL`. -/
def ONF_CMAP_TAIL_TAIL : RegField := ⟨ONF_CMAP_TAIL, 0, 32⟩
/-- `ONF_CMAP_DROP` (R267). -/
def ONF_CMAP_DROP : Nat := 0xd00054
/-- `ONF_CMAP_DROP.COUNT`. -/
def ONF_CMAP_DROP_COUNT : RegField := ⟨ONF_CMAP_DROP, 0, 32⟩
/-- `ONF_EPOCH_DROP` (R267). -/
def ONF_EPOCH_DROP : Nat := 0xd00058
/-- `ONF_EPOCH_DROP.COUNT`. -/
def ONF_EPOCH_DROP_COUNT : RegField := ⟨ONF_EPOCH_DROP, 0, 32⟩
/-- `ONF_EPOCH_BAD` (R267). -/
def ONF_EPOCH_BAD : Nat := 0xd0005c
/-- `ONF_EPOCH_BAD.COUNT`. -/
def ONF_EPOCH_BAD_COUNT : RegField := ⟨ONF_EPOCH_BAD, 0, 32⟩
/-- `ONF_PART_DROP` (R267). -/
def ONF_PART_DROP : Nat := 0xd00060
/-- `ONF_PART_DROP.COUNT`. -/
def ONF_PART_DROP_COUNT : RegField := ⟨ONF_PART_DROP, 0, 32⟩
/-- `ONF_FENCE_DROP` (R267). -/
def ONF_FENCE_DROP : Nat := 0xd00064
/-- `ONF_FENCE_DROP.COUNT`. -/
def ONF_FENCE_DROP_COUNT : RegField := ⟨ONF_FENCE_DROP, 0, 32⟩
/-- `ONF_LOST_DROP` (R267). -/
def ONF_LOST_DROP : Nat := 0xd00068
/-- `ONF_LOST_DROP.COUNT`. -/
def ONF_LOST_DROP_COUNT : RegField := ⟨ONF_LOST_DROP, 0, 32⟩
/-- `ONF_TAG_GAP` (R267). -/
def ONF_TAG_GAP : Nat := 0xd0006c
/-- `ONF_TAG_GAP.COUNT`. -/
def ONF_TAG_GAP_COUNT : RegField := ⟨ONF_TAG_GAP, 0, 32⟩
/-- `ONF_LINKn_STATE` (R268). -/
def ONF_LINKn_STATE (n : Nat) : Nat := 0xd01000 + 0x40 * n
/-- `ONF_LINKn_STATE.PEER_RANK`. -/
def ONF_LINKn_STATE_PEER_RANK (n : Nat) : RegField := ⟨ONF_LINKn_STATE n, 24, 6⟩
/-- `ONF_LINKn_STATE.PEER_LINK`. -/
def ONF_LINKn_STATE_PEER_LINK (n : Nat) : RegField := ⟨ONF_LINKn_STATE n, 16, 6⟩
/-- `ONF_LINKn_STATE.LANES`. -/
def ONF_LINKn_STATE_LANES (n : Nat) : RegField := ⟨ONF_LINKn_STATE n, 12, 4⟩
/-- `ONF_LINKn_STATE.SLIP`. -/
def ONF_LINKn_STATE_SLIP (n : Nat) : RegField := ⟨ONF_LINKn_STATE n, 11, 1⟩
/-- `ONF_LINKn_STATE.REASON`. -/
def ONF_LINKn_STATE_REASON (n : Nat) : RegField := ⟨ONF_LINKn_STATE n, 8, 3⟩
/-- `ONF_LINKn_STATE.STATE`. -/
def ONF_LINKn_STATE_STATE (n : Nat) : RegField := ⟨ONF_LINKn_STATE n, 0, 4⟩
/-- `ONF_LINKn_CTL` (R268). -/
def ONF_LINKn_CTL (n : Nat) : Nat := 0xd01004 + 0x40 * n
/-- `ONF_LINKn_CTL.RETRAIN`. -/
def ONF_LINKn_CTL_RETRAIN (n : Nat) : RegField := ⟨ONF_LINKn_CTL n, 1, 1⟩
/-- `ONF_LINKn_CTL.DISABLE`. -/
def ONF_LINKn_CTL_DISABLE (n : Nat) : RegField := ⟨ONF_LINKn_CTL n, 0, 1⟩
/-- `ONF_LINKn_LAT` (R268). -/
def ONF_LINKn_LAT (n : Nat) : Nat := 0xd01008 + 0x40 * n
/-- `ONF_LINKn_LAT.LAT0`. -/
def ONF_LINKn_LAT_LAT0 (n : Nat) : RegField := ⟨ONF_LINKn_LAT n, 16, 16⟩
/-- `ONF_LINKn_LAT.LAT_NOW`. -/
def ONF_LINKn_LAT_LAT_NOW (n : Nat) : RegField := ⟨ONF_LINKn_LAT n, 0, 16⟩
/-- `ONF_LINKn_CREDIT_STALL` (R268). -/
def ONF_LINKn_CREDIT_STALL (n : Nat) : Nat := 0xd0100c + 0x40 * n
/-- `ONF_LINKn_CREDIT_STALL.COUNT`. -/
def ONF_LINKn_CREDIT_STALL_COUNT (n : Nat) : RegField := ⟨ONF_LINKn_CREDIT_STALL n, 0, 32⟩
/-- `ONF_LINKn_REPLAY` (R268). -/
def ONF_LINKn_REPLAY (n : Nat) : Nat := 0xd01010 + 0x40 * n
/-- `ONF_LINKn_REPLAY.COUNT`. -/
def ONF_LINKn_REPLAY_COUNT (n : Nat) : RegField := ⟨ONF_LINKn_REPLAY n, 0, 32⟩
/-- `ONF_LINKn_CRC_ERR` (R268). -/
def ONF_LINKn_CRC_ERR (n : Nat) : Nat := 0xd01014 + 0x40 * n
/-- `ONF_LINKn_CRC_ERR.COUNT`. -/
def ONF_LINKn_CRC_ERR_COUNT (n : Nat) : RegField := ⟨ONF_LINKn_CRC_ERR n, 0, 32⟩
/-- `ONF_LINKn_FEC_CORR` (R268). -/
def ONF_LINKn_FEC_CORR (n : Nat) : Nat := 0xd01018 + 0x40 * n
/-- `ONF_LINKn_FEC_CORR.COUNT`. -/
def ONF_LINKn_FEC_CORR_COUNT (n : Nat) : RegField := ⟨ONF_LINKn_FEC_CORR n, 0, 32⟩
/-- `ONF_LINKn_FWD` (R268). -/
def ONF_LINKn_FWD (n : Nat) : Nat := 0xd0101c + 0x40 * n
/-- `ONF_LINKn_FWD.COUNT`. -/
def ONF_LINKn_FWD_COUNT (n : Nat) : RegField := ⟨ONF_LINKn_FWD n, 0, 32⟩
/-- `ONF_LINKn_STEEP_WAIT_MAX` (R268). -/
def ONF_LINKn_STEEP_WAIT_MAX (n : Nat) : Nat := 0xd01020 + 0x40 * n
/-- `ONF_LINKn_STEEP_WAIT_MAX.COUNT`. -/
def ONF_LINKn_STEEP_WAIT_MAX_COUNT (n : Nat) : RegField := ⟨ONF_LINKn_STEEP_WAIT_MAX n, 0, 32⟩
/-- `SMV_SEQ_BASE` (R298). -/
def SMV_SEQ_BASE : Nat := 0xe00000
/-- `SMV_SEQ_BASE.BASE`. -/
def SMV_SEQ_BASE_BASE : RegField := ⟨SMV_SEQ_BASE, 0, 32⟩
/-- `SMV_SEQ_CMD` (R298). -/
def SMV_SEQ_CMD : Nat := 0xe00004
/-- `SMV_SEQ_CMD.GROUP`. -/
def SMV_SEQ_CMD_GROUP : RegField := ⟨SMV_SEQ_CMD, 8, 8⟩
/-- `SMV_SEQ_CMD.ONE`. -/
def SMV_SEQ_CMD_ONE : RegField := ⟨SMV_SEQ_CMD, 1, 1⟩
/-- `SMV_SEQ_CMD.GO`. -/
def SMV_SEQ_CMD_GO : RegField := ⟨SMV_SEQ_CMD, 0, 1⟩
/-- `SMV_LAG_SEL` (R298). -/
def SMV_LAG_SEL : Nat := 0xe00008
/-- `SMV_LAG_SEL.EN`. -/
def SMV_LAG_SEL_EN : RegField := ⟨SMV_LAG_SEL, 8, 1⟩
/-- `SMV_LAG_SEL.GROUP`. -/
def SMV_LAG_SEL_GROUP : RegField := ⟨SMV_LAG_SEL, 0, 8⟩
/-- `SMV_LAG_CLEAR` (R298). -/
def SMV_LAG_CLEAR : Nat := 0xe0000c
/-- `SMV_LAG_CLEAR.CLEAR`. -/
def SMV_LAG_CLEAR_CLEAR : RegField := ⟨SMV_LAG_CLEAR, 0, 1⟩
/-- `SMV_GRP_INDEX` (R298). -/
def SMV_GRP_INDEX : Nat := 0xe00010
/-- `SMV_GRP_INDEX.GROUP`. -/
def SMV_GRP_INDEX_GROUP : RegField := ⟨SMV_GRP_INDEX, 0, 8⟩
/-- `SMV_GRP_STATE` (R298). -/
def SMV_GRP_STATE : Nat := 0xe00014
/-- `SMV_GRP_STATE.ABORTS`. -/
def SMV_GRP_STATE_ABORTS : RegField := ⟨SMV_GRP_STATE, 8, 5⟩
/-- `SMV_GRP_STATE.STATE`. -/
def SMV_GRP_STATE_STATE : RegField := ⟨SMV_GRP_STATE, 0, 3⟩
/-- `SMV_GRP_SEQ` (R298). -/
def SMV_GRP_SEQ : Nat := 0xe00018
/-- `SMV_GRP_SEQ.SEQ`. -/
def SMV_GRP_SEQ_SEQ : RegField := ⟨SMV_GRP_SEQ, 0, 32⟩
/-- `SMV_LAGm` (R298). -/
def SMV_LAGm (m : Nat) : Nat := 0xe00800 + 0x8 * m
/-- `SMV_LAGm.LATE_COUNT`. -/
def SMV_LAGm_LATE_COUNT (m : Nat) : RegField := ⟨SMV_LAGm m, 32, 32⟩
/-- `SMV_LAGm.LAG_MAX_NS`. -/
def SMV_LAGm_LAG_MAX_NS (m : Nat) : RegField := ⟨SMV_LAGm m, 0, 32⟩
/-- `SMV_ACTIVEd` (R298). -/
def SMV_ACTIVEd (d : Nat) : Nat := 0xe01000 + 0x100 * d
/-- `SMV_ACTIVEd.RUNNING`. -/
def SMV_ACTIVEd_RUNNING (d : Nat) : RegField := ⟨SMV_ACTIVEd d, 0, 5⟩
/-- `SMV_DONEd` (R298). -/
def SMV_DONEd (d : Nat) : Nat := 0xe01004 + 0x100 * d
/-- `SMV_DONEd.COUNT`. -/
def SMV_DONEd_COUNT (d : Nat) : RegField := ⟨SMV_DONEd d, 0, 32⟩
/-- `SMV_ABORTd` (R298). -/
def SMV_ABORTd (d : Nat) : Nat := 0xe01008 + 0x100 * d
/-- `SMV_ABORTd.COUNT`. -/
def SMV_ABORTd_COUNT (d : Nat) : RegField := ⟨SMV_ABORTd d, 0, 32⟩
/-- `SMV_STALEd` (R298). -/
def SMV_STALEd (d : Nat) : Nat := 0xe0100c + 0x100 * d
/-- `SMV_STALEd.COUNT`. -/
def SMV_STALEd_COUNT (d : Nat) : RegField := ⟨SMV_STALEd d, 0, 32⟩
/-- `SMV_ABORT_DROPd` (R298). -/
def SMV_ABORT_DROPd (d : Nat) : Nat := 0xe01010 + 0x100 * d
/-- `SMV_ABORT_DROPd.COUNT`. -/
def SMV_ABORT_DROPd_COUNT (d : Nat) : RegField := ⟨SMV_ABORT_DROPd d, 0, 32⟩
/-- `WQS_CMD` (R338). -/
def WQS_CMD : Nat := 0x800000
/-- `WQS_CMD.TARGET`. -/
def WQS_CMD_TARGET : RegField := ⟨WQS_CMD, 16, 16⟩
/-- `WQS_CMD.OP`. -/
def WQS_CMD_OP : RegField := ⟨WQS_CMD, 0, 4⟩
/-- `WQS_CMD_STATUS` (R338). -/
def WQS_CMD_STATUS : Nat := 0x800004
/-- `WQS_CMD_STATUS.BUSY`. -/
def WQS_CMD_STATUS_BUSY : RegField := ⟨WQS_CMD_STATUS, 31, 1⟩
/-- `WQS_CMD_STATUS.CMD_ERR`. -/
def WQS_CMD_STATUS_CMD_ERR : RegField := ⟨WQS_CMD_STATUS, 30, 1⟩
/-- `WQS_CMD_STATUS.STATUS`. -/
def WQS_CMD_STATUS_STATUS : RegField := ⟨WQS_CMD_STATUS, 0, 8⟩
/-- `WQS_MALFORMED_CTL` (R338). -/
def WQS_MALFORMED_CTL : Nat := 0x800008
/-- `WQS_MALFORMED_CTL.DEVICE_MODE`. -/
def WQS_MALFORMED_CTL_DEVICE_MODE : RegField := ⟨WQS_MALFORMED_CTL, 0, 2⟩
/-- `WQS_HALT_INFO` (R338). -/
def WQS_HALT_INFO : Nat := 0x800010
/-- `WQS_HALT_INFO.QID`. -/
def WQS_HALT_INFO_QID : RegField := ⟨WQS_HALT_INFO, 48, 16⟩
/-- `WQS_HALT_INFO.INDEX`. -/
def WQS_HALT_INFO_INDEX : RegField := ⟨WQS_HALT_INFO, 16, 32⟩
/-- `WQS_HALT_INFO.STATUS`. -/
def WQS_HALT_INFO_STATUS : RegField := ⟨WQS_HALT_INFO, 8, 8⟩
/-- `WQS_HALT_INFO.HALTED`. -/
def WQS_HALT_INFO_HALTED : RegField := ⟨WQS_HALT_INFO, 0, 1⟩
/-- `WQS_DB_DROP` (R338). -/
def WQS_DB_DROP : Nat := 0x800018
/-- `WQS_DB_DROP.COUNT`. -/
def WQS_DB_DROP_COUNT : RegField := ⟨WQS_DB_DROP, 0, 32⟩
/-- `WQS_REFETCH` (R338). -/
def WQS_REFETCH : Nat := 0x80001c
/-- `WQS_REFETCH.COUNT`. -/
def WQS_REFETCH_COUNT : RegField := ⟨WQS_REFETCH, 0, 32⟩
/-- `WQS_MALFORMED` (R338). -/
def WQS_MALFORMED : Nat := 0x800020
/-- `WQS_MALFORMED.COUNT`. -/
def WQS_MALFORMED_COUNT : RegField := ⟨WQS_MALFORMED, 0, 32⟩
/-- `WQS_EQ_COLLAPSE` (R338). -/
def WQS_EQ_COLLAPSE : Nat := 0x800024
/-- `WQS_EQ_COLLAPSE.COUNT`. -/
def WQS_EQ_COLLAPSE_COUNT : RegField := ⟨WQS_EQ_COLLAPSE, 0, 32⟩
/-- `WQS_CMD_DATAi` (R338). -/
def WQS_CMD_DATAi (i : Nat) : Nat := 0x800040 + 0x4 * i
/-- `WQS_CMD_DATAi.DATA`. -/
def WQS_CMD_DATAi_DATA (i : Nat) : RegField := ⟨WQS_CMD_DATAi i, 0, 32⟩
/-- `WQS_FN_HALTj` (R338). -/
def WQS_FN_HALTj (j : Nat) : Nat := 0x800100 + 0x4 * j
/-- `WQS_FN_HALTj.HALT`. -/
def WQS_FN_HALTj_HALT (j : Nat) : RegField := ⟨WQS_FN_HALTj j, 0, 32⟩
/-- `HIF_PORT_CFG` (R339). -/
def HIF_PORT_CFG : Nat := 0x700000
/-- `HIF_PORT_CFG.SPLIT`. -/
def HIF_PORT_CFG_SPLIT : RegField := ⟨HIF_PORT_CFG, 8, 4⟩
/-- `HIF_PORT_CFG.CXL_EN`. -/
def HIF_PORT_CFG_CXL_EN : RegField := ⟨HIF_PORT_CFG, 0, 1⟩
/-- `HIF_CPL_TIMEOUT` (R339). -/
def HIF_CPL_TIMEOUT : Nat := 0x700004
/-- `HIF_CPL_TIMEOUT.TIMEOUT_US`. -/
def HIF_CPL_TIMEOUT_TIMEOUT_US : RegField := ⟨HIF_CPL_TIMEOUT, 0, 32⟩
/-- `HIF_CXL_REGION` (R339). -/
def HIF_CXL_REGION : Nat := 0x700008
/-- `HIF_CXL_REGION.EN`. -/
def HIF_CXL_REGION_EN : RegField := ⟨HIF_CXL_REGION, 8, 1⟩
/-- `HIF_CXL_REGION.REGION`. -/
def HIF_CXL_REGION_REGION : RegField := ⟨HIF_CXL_REGION, 0, 8⟩
/-- `HIF_LINKk_STATUS` (R339). -/
def HIF_LINKk_STATUS (k : Nat) : Nat := 0x700100 + 0x20 * k
/-- `HIF_LINKk_STATUS.CXL`. -/
def HIF_LINKk_STATUS_CXL (k : Nat) : RegField := ⟨HIF_LINKk_STATUS k, 17, 1⟩
/-- `HIF_LINKk_STATUS.FLIT`. -/
def HIF_LINKk_STATUS_FLIT (k : Nat) : RegField := ⟨HIF_LINKk_STATUS k, 16, 1⟩
/-- `HIF_LINKk_STATUS.WIDTH`. -/
def HIF_LINKk_STATUS_WIDTH (k : Nat) : RegField := ⟨HIF_LINKk_STATUS k, 8, 5⟩
/-- `HIF_LINKk_STATUS.GEN`. -/
def HIF_LINKk_STATUS_GEN (k : Nat) : RegField := ⟨HIF_LINKk_STATUS k, 4, 3⟩
/-- `HIF_LINKk_STATUS.STATE`. -/
def HIF_LINKk_STATUS_STATE (k : Nat) : RegField := ⟨HIF_LINKk_STATUS k, 0, 3⟩
/-- `HIF_LINKk_CTL` (R339). -/
def HIF_LINKk_CTL (k : Nat) : Nat := 0x700104 + 0x20 * k
/-- `HIF_LINKk_CTL.REINIT`. -/
def HIF_LINKk_CTL_REINIT (k : Nat) : RegField := ⟨HIF_LINKk_CTL k, 0, 1⟩
/-- `HIF_LINKk_RECOVERY` (R339). -/
def HIF_LINKk_RECOVERY (k : Nat) : Nat := 0x700108 + 0x20 * k
/-- `HIF_LINKk_RECOVERY.COUNT`. -/
def HIF_LINKk_RECOVERY_COUNT (k : Nat) : RegField := ⟨HIF_LINKk_RECOVERY k, 0, 32⟩
/-- `HIF_LINKk_REPLAY` (R339). -/
def HIF_LINKk_REPLAY (k : Nat) : Nat := 0x70010c + 0x20 * k
/-- `HIF_LINKk_REPLAY.COUNT`. -/
def HIF_LINKk_REPLAY_COUNT (k : Nat) : RegField := ⟨HIF_LINKk_REPLAY k, 0, 32⟩
/-- `HIF_LINKk_CPL_TO` (R339). -/
def HIF_LINKk_CPL_TO (k : Nat) : Nat := 0x700110 + 0x20 * k
/-- `HIF_LINKk_CPL_TO.COUNT`. -/
def HIF_LINKk_CPL_TO_COUNT (k : Nat) : RegField := ⟨HIF_LINKk_CPL_TO k, 0, 32⟩
/-- `HIF_LINKk_P2P_DROP` (R339). -/
def HIF_LINKk_P2P_DROP (k : Nat) : Nat := 0x700114 + 0x20 * k
/-- `HIF_LINKk_P2P_DROP.COUNT`. -/
def HIF_LINKk_P2P_DROP_COUNT (k : Nat) : RegField := ⟨HIF_LINKk_P2P_DROP k, 0, 32⟩
/-- `HIF_LINKk_LOST_CTX` (R339). -/
def HIF_LINKk_LOST_CTX (k : Nat) : Nat := 0x700118 + 0x20 * k
/-- `HIF_LINKk_LOST_CTX.COUNT`. -/
def HIF_LINKk_LOST_CTX_COUNT (k : Nat) : RegField := ⟨HIF_LINKk_LOST_CTX k, 0, 32⟩
/-- `HIF_WINk_w` (R339). -/
def HIF_WINk_w (k w : Nat) : Nat := 0x701000 + 0x800 * k + 0x8 * w
/-- `HIF_WINk_w.KEY`. -/
def HIF_WINk_w_KEY (k w : Nat) : RegField := ⟨HIF_WINk_w k w, 32, 32⟩
/-- `HIF_WINk_w.OFFSET_4K`. -/
def HIF_WINk_w_OFFSET_4K (k w : Nat) : RegField := ⟨HIF_WINk_w k w, 0, 32⟩
/-- `ETH_GRP_MODE` (R380). -/
def ETH_GRP_MODE : Nat := 0xb00000
/-- `ETH_BUF_SPLIT` (R380). -/
def ETH_BUF_SPLIT : Nat := 0xb00004
/-- `ETH_BUF_SPLIT.INGRESS_CELLS`. -/
def ETH_BUF_SPLIT_INGRESS_CELLS : RegField := ⟨ETH_BUF_SPLIT, 0, 20⟩
/-- `ETH_STR_INDEX` (R380). -/
def ETH_STR_INDEX : Nat := 0xb00008
/-- `ETH_STR_INDEX.RULE`. -/
def ETH_STR_INDEX_RULE : RegField := ⟨ETH_STR_INDEX, 0, 10⟩
/-- `ETH_STR_CMD` (R380). -/
def ETH_STR_CMD : Nat := 0xb0000c
/-- `ETH_STR_CMD.READ`. -/
def ETH_STR_CMD_READ : RegField := ⟨ETH_STR_CMD, 1, 1⟩
/-- `ETH_STR_CMD.WRITE`. -/
def ETH_STR_CMD_WRITE : RegField := ⟨ETH_STR_CMD, 0, 1⟩
/-- `ETH_STR_DATAi` (R380). -/
def ETH_STR_DATAi (i : Nat) : Nat := 0xb00040 + 0x4 * i
/-- `ETH_STR_DATAi.DATA`. -/
def ETH_STR_DATAi_DATA (i : Nat) : RegField := ⟨ETH_STR_DATAi i, 0, 32⟩
/-- `ETH_PTP_NS` (R380). -/
def ETH_PTP_NS : Nat := 0xb00100
/-- `ETH_PTP_NS.NS`. -/
def ETH_PTP_NS_NS : RegField := ⟨ETH_PTP_NS, 0, 64⟩
/-- `ETH_PTP_INCR` (R380). -/
def ETH_PTP_INCR : Nat := 0xb00108
/-- `ETH_PTP_INCR.INCR`. -/
def ETH_PTP_INCR_INCR : RegField := ⟨ETH_PTP_INCR, 0, 32⟩
/-- `ETH_PTP_ADJ` (R380). -/
def ETH_PTP_ADJ : Nat := 0xb00110
/-- `ETH_PTP_ADJ.STEP`. -/
def ETH_PTP_ADJ_STEP : RegField := ⟨ETH_PTP_ADJ, 0, 64⟩
/-- `ETH_SA_INDEX` (R380). -/
def ETH_SA_INDEX : Nat := 0xb00200
/-- `ETH_SA_INDEX.SA`. -/
def ETH_SA_INDEX_SA : RegField := ⟨ETH_SA_INDEX, 0, 12⟩
/-- `ETH_SA_CMD` (R380). -/
def ETH_SA_CMD : Nat := 0xb00204
/-- `ETH_SA_CMD.READ`. -/
def ETH_SA_CMD_READ : RegField := ⟨ETH_SA_CMD, 1, 1⟩
/-- `ETH_SA_CMD.WRITE`. -/
def ETH_SA_CMD_WRITE : RegField := ⟨ETH_SA_CMD, 0, 1⟩
/-- `ETH_SA_DATAi` (R380). -/
def ETH_SA_DATAi (i : Nat) : Nat := 0xb00220 + 0x4 * i
/-- `ETH_SA_DATAi.DATA`. -/
def ETH_SA_DATAi_DATA (i : Nat) : RegField := ⟨ETH_SA_DATAi i, 0, 32⟩
/-- `ETH_PORTp_CTL` (R380). -/
def ETH_PORTp_CTL (p : Nat) : Nat := 0xb01000 + 0x100 * p
/-- `ETH_PORTp_CTL.TX_AN`. -/
def ETH_PORTp_CTL_TX_AN (p : Nat) : RegField := ⟨ETH_PORTp_CTL p, 20, 2⟩
/-- `ETH_PORTp_CTL.PROMISC`. -/
def ETH_PORTp_CTL_PROMISC (p : Nat) : RegField := ⟨ETH_PORTp_CTL p, 19, 1⟩
/-- `ETH_PORTp_CTL.FEC_OFF`. -/
def ETH_PORTp_CTL_FEC_OFF (p : Nat) : RegField := ⟨ETH_PORTp_CTL p, 18, 1⟩
/-- `ETH_PORTp_CTL.FC_MODE`. -/
def ETH_PORTp_CTL_FC_MODE (p : Nat) : RegField := ⟨ETH_PORTp_CTL p, 16, 2⟩
/-- `ETH_PORTp_CTL.MACSEC`. -/
def ETH_PORTp_CTL_MACSEC (p : Nat) : RegField := ⟨ETH_PORTp_CTL p, 15, 1⟩
/-- `ETH_PORTp_CTL.MTU`. -/
def ETH_PORTp_CTL_MTU (p : Nat) : RegField := ⟨ETH_PORTp_CTL p, 0, 14⟩
/-- `ETH_PORTp_STATUS` (R380). -/
def ETH_PORTp_STATUS (p : Nat) : Nat := 0xb01004 + 0x100 * p
/-- `ETH_PORTp_STATUS.PAUSED`. -/
def ETH_PORTp_STATUS_PAUSED (p : Nat) : RegField := ⟨ETH_PORTp_STATUS p, 8, 8⟩
/-- `ETH_PORTp_STATUS.STATE`. -/
def ETH_PORTp_STATUS_STATE (p : Nat) : RegField := ⟨ETH_PORTp_STATUS p, 0, 3⟩
/-- `ETH_PORTp_MAC` (R380). -/
def ETH_PORTp_MAC (p : Nat) : Nat := 0xb01008 + 0x100 * p
/-- `ETH_PORTp_MAC.ADDR`. -/
def ETH_PORTp_MAC_ADDR (p : Nat) : RegField := ⟨ETH_PORTp_MAC p, 0, 48⟩
/-- `ETH_PORTp_RX_FRAMES` (R380). -/
def ETH_PORTp_RX_FRAMES (p : Nat) : Nat := 0xb01010 + 0x100 * p
/-- `ETH_PORTp_RX_FRAMES.COUNT`. -/
def ETH_PORTp_RX_FRAMES_COUNT (p : Nat) : RegField := ⟨ETH_PORTp_RX_FRAMES p, 0, 64⟩
/-- `ETH_PORTp_TX_FRAMES` (R380). -/
def ETH_PORTp_TX_FRAMES (p : Nat) : Nat := 0xb01018 + 0x100 * p
/-- `ETH_PORTp_TX_FRAMES.COUNT`. -/
def ETH_PORTp_TX_FRAMES_COUNT (p : Nat) : RegField := ⟨ETH_PORTp_TX_FRAMES p, 0, 64⟩
/-- `ETH_PORTp_RX_RUNT` (R380). -/
def ETH_PORTp_RX_RUNT (p : Nat) : Nat := 0xb01020 + 0x100 * p
/-- `ETH_PORTp_RX_RUNT.COUNT`. -/
def ETH_PORTp_RX_RUNT_COUNT (p : Nat) : RegField := ⟨ETH_PORTp_RX_RUNT p, 0, 32⟩
/-- `ETH_PORTp_RX_PCS_ERR` (R380). -/
def ETH_PORTp_RX_PCS_ERR (p : Nat) : Nat := 0xb01024 + 0x100 * p
/-- `ETH_PORTp_RX_PCS_ERR.COUNT`. -/
def ETH_PORTp_RX_PCS_ERR_COUNT (p : Nat) : RegField := ⟨ETH_PORTp_RX_PCS_ERR p, 0, 32⟩
/-- `ETH_PORTp_RX_FCS` (R380). -/
def ETH_PORTp_RX_FCS (p : Nat) : Nat := 0xb01028 + 0x100 * p
/-- `ETH_PORTp_RX_FCS.COUNT`. -/
def ETH_PORTp_RX_FCS_COUNT (p : Nat) : RegField := ⟨ETH_PORTp_RX_FCS p, 0, 32⟩
/-- `ETH_PORTp_RX_OVERSIZE` (R380). -/
def ETH_PORTp_RX_OVERSIZE (p : Nat) : Nat := 0xb0102c + 0x100 * p
/-- `ETH_PORTp_RX_OVERSIZE.COUNT`. -/
def ETH_PORTp_RX_OVERSIZE_COUNT (p : Nat) : RegField := ⟨ETH_PORTp_RX_OVERSIZE p, 0, 32⟩
/-- `ETH_PORTp_RX_DA_DROP` (R380). -/
def ETH_PORTp_RX_DA_DROP (p : Nat) : Nat := 0xb01030 + 0x100 * p
/-- `ETH_PORTp_RX_DA_DROP.COUNT`. -/
def ETH_PORTp_RX_DA_DROP_COUNT (p : Nat) : RegField := ⟨ETH_PORTp_RX_DA_DROP p, 0, 32⟩
/-- `ETH_PORTp_STR_DROP` (R380). -/
def ETH_PORTp_STR_DROP (p : Nat) : Nat := 0xb01034 + 0x100 * p
/-- `ETH_PORTp_STR_DROP.COUNT`. -/
def ETH_PORTp_STR_DROP_COUNT (p : Nat) : RegField := ⟨ETH_PORTp_STR_DROP p, 0, 32⟩
/-- `ETH_PORTp_RX_NO_MATCH` (R380). -/
def ETH_PORTp_RX_NO_MATCH (p : Nat) : Nat := 0xb01038 + 0x100 * p
/-- `ETH_PORTp_RX_NO_MATCH.COUNT`. -/
def ETH_PORTp_RX_NO_MATCH_COUNT (p : Nat) : RegField := ⟨ETH_PORTp_RX_NO_MATCH p, 0, 32⟩
/-- `ETH_PORTp_POL_RED` (R380). -/
def ETH_PORTp_POL_RED (p : Nat) : Nat := 0xb0103c + 0x100 * p
/-- `ETH_PORTp_POL_RED.COUNT`. -/
def ETH_PORTp_POL_RED_COUNT (p : Nat) : RegField := ⟨ETH_PORTp_POL_RED p, 0, 32⟩
/-- `ETH_PORTp_POL_YELLOW` (R380). -/
def ETH_PORTp_POL_YELLOW (p : Nat) : Nat := 0xb01040 + 0x100 * p
/-- `ETH_PORTp_POL_YELLOW.COUNT`. -/
def ETH_PORTp_POL_YELLOW_COUNT (p : Nat) : RegField := ⟨ETH_PORTp_POL_YELLOW p, 0, 32⟩
/-- `ETH_PORTp_BUF_DROP` (R380). -/
def ETH_PORTp_BUF_DROP (p : Nat) : Nat := 0xb01044 + 0x100 * p
/-- `ETH_PORTp_BUF_DROP.COUNT`. -/
def ETH_PORTp_BUF_DROP_COUNT (p : Nat) : RegField := ⟨ETH_PORTp_BUF_DROP p, 0, 32⟩
/-- `ETH_PORTp_HEADROOM_DROP` (R380). -/
def ETH_PORTp_HEADROOM_DROP (p : Nat) : Nat := 0xb01048 + 0x100 * p
/-- `ETH_PORTp_HEADROOM_DROP.COUNT`. -/
def ETH_PORTp_HEADROOM_DROP_COUNT (p : Nat) : RegField := ⟨ETH_PORTp_HEADROOM_DROP p, 0, 32⟩
/-- `ETH_PORTp_MACSEC_DROP` (R380). -/
def ETH_PORTp_MACSEC_DROP (p : Nat) : Nat := 0xb0104c + 0x100 * p
/-- `ETH_PORTp_MACSEC_DROP.COUNT`. -/
def ETH_PORTp_MACSEC_DROP_COUNT (p : Nat) : RegField := ⟨ETH_PORTp_MACSEC_DROP p, 0, 32⟩
/-- `ETH_PORTp_TX_OVERSIZE` (R380). -/
def ETH_PORTp_TX_OVERSIZE (p : Nat) : Nat := 0xb01050 + 0x100 * p
/-- `ETH_PORTp_TX_OVERSIZE.COUNT`. -/
def ETH_PORTp_TX_OVERSIZE_COUNT (p : Nat) : RegField := ⟨ETH_PORTp_TX_OVERSIZE p, 0, 32⟩
/-- `ETH_PORTp_PFC_RX` (R380). -/
def ETH_PORTp_PFC_RX (p : Nat) : Nat := 0xb01054 + 0x100 * p
/-- `ETH_PORTp_PFC_RX.COUNT`. -/
def ETH_PORTp_PFC_RX_COUNT (p : Nat) : RegField := ⟨ETH_PORTp_PFC_RX p, 0, 32⟩
/-- `ETH_PORTp_PFC_TX` (R380). -/
def ETH_PORTp_PFC_TX (p : Nat) : Nat := 0xb01058 + 0x100 * p
/-- `ETH_PORTp_PFC_TX.COUNT`. -/
def ETH_PORTp_PFC_TX_COUNT (p : Nat) : RegField := ⟨ETH_PORTp_PFC_TX p, 0, 32⟩
/-- `ETH_PORTp_FC_IGNORED` (R380). -/
def ETH_PORTp_FC_IGNORED (p : Nat) : Nat := 0xb0105c + 0x100 * p
/-- `ETH_PORTp_FC_IGNORED.COUNT`. -/
def ETH_PORTp_FC_IGNORED_COUNT (p : Nat) : RegField := ⟨ETH_PORTp_FC_IGNORED p, 0, 32⟩
/-- `ETH_PORTp_FEC_CORR` (R380). -/
def ETH_PORTp_FEC_CORR (p : Nat) : Nat := 0xb01060 + 0x100 * p
/-- `ETH_PORTp_FEC_CORR.COUNT`. -/
def ETH_PORTp_FEC_CORR_COUNT (p : Nat) : RegField := ⟨ETH_PORTp_FEC_CORR p, 0, 32⟩
/-- `ETH_PORTp_FEC_UNCORR` (R380). -/
def ETH_PORTp_FEC_UNCORR (p : Nat) : Nat := 0xb01064 + 0x100 * p
/-- `ETH_PORTp_FEC_UNCORR.COUNT`. -/
def ETH_PORTp_FEC_UNCORR_COUNT (p : Nat) : RegField := ⟨ETH_PORTp_FEC_UNCORR p, 0, 32⟩
/-- `ETH_PORTp_TXTS_DROP` (R380). -/
def ETH_PORTp_TXTS_DROP (p : Nat) : Nat := 0xb01068 + 0x100 * p
/-- `ETH_PORTp_TXTS_DROP.COUNT`. -/
def ETH_PORTp_TXTS_DROP_COUNT (p : Nat) : RegField := ⟨ETH_PORTp_TXTS_DROP p, 0, 32⟩
/-- `ETH_PORTp_TXTS` (R380). -/
def ETH_PORTp_TXTS (p : Nat) : Nat := 0xb01070 + 0x100 * p
/-- `ETH_PORTp_TXTS.VALID`. -/
def ETH_PORTp_TXTS_VALID (p : Nat) : RegField := ⟨ETH_PORTp_TXTS p, 63, 1⟩
/-- `ETH_PORTp_TXTS.TAG`. -/
def ETH_PORTp_TXTS_TAG (p : Nat) : RegField := ⟨ETH_PORTp_TXTS p, 48, 15⟩
/-- `ETH_PORTp_TXTS.NS`. -/
def ETH_PORTp_TXTS_NS (p : Nat) : RegField := ⟨ETH_PORTp_TXTS p, 0, 48⟩
/-- `ETH_PORTp_BUFc` (R380). -/
def ETH_PORTp_BUFc (p c : Nat) : Nat := 0xb01080 + 0x100 * p + 0x8 * c
/-- `ETH_PORTp_BUFc.HEADROOM`. -/
def ETH_PORTp_BUFc_HEADROOM (p c : Nat) : RegField := ⟨ETH_PORTp_BUFc p c, 48, 16⟩
/-- `ETH_PORTp_BUFc.LIMIT`. -/
def ETH_PORTp_BUFc_LIMIT (p c : Nat) : RegField := ⟨ETH_PORTp_BUFc p c, 32, 16⟩
/-- `ETH_PORTp_BUFc.XON`. -/
def ETH_PORTp_BUFc_XON (p c : Nat) : RegField := ⟨ETH_PORTp_BUFc p c, 16, 16⟩
/-- `ETH_PORTp_BUFc.YELLOW`. -/
def ETH_PORTp_BUFc_YELLOW (p c : Nat) : RegField := ⟨ETH_PORTp_BUFc p c, 0, 16⟩
/-- `ETH_PORTp_DSCPMAPi` (R380). -/
def ETH_PORTp_DSCPMAPi (p i : Nat) : Nat := 0xb010c0 + 0x100 * p + 0x4 * i
/-- `TXS_SAMPLE_CTL` (R381). -/
def TXS_SAMPLE_CTL : Nat := 0xc00000
/-- `TXS_SAMPLE_CTL.ROOT`. -/
def TXS_SAMPLE_CTL_ROOT : RegField := ⟨TXS_SAMPLE_CTL, 6, 10⟩
/-- `TXS_SAMPLE_CTL.RING_LOG2`. -/
def TXS_SAMPLE_CTL_RING_LOG2 : RegField := ⟨TXS_SAMPLE_CTL, 1, 4⟩
/-- `TXS_SAMPLE_CTL.EN`. -/
def TXS_SAMPLE_CTL_EN : RegField := ⟨TXS_SAMPLE_CTL, 0, 1⟩
/-- `TXS_SAMPLE_BASE` (R381). -/
def TXS_SAMPLE_BASE : Nat := 0xc00008
/-- `TXS_SAMPLE_BASE.ADDR`. -/
def TXS_SAMPLE_BASE_ADDR : RegField := ⟨TXS_SAMPLE_BASE, 0, 64⟩
/-- `TXS_SAMPLE_HEAD_ADDR` (R381). -/
def TXS_SAMPLE_HEAD_ADDR : Nat := 0xc00010
/-- `TXS_SAMPLE_HEAD_ADDR.ADDR`. -/
def TXS_SAMPLE_HEAD_ADDR_ADDR : RegField := ⟨TXS_SAMPLE_HEAD_ADDR, 0, 64⟩
/-- `TXS_SAMPLE_TAIL` (R381). -/
def TXS_SAMPLE_TAIL : Nat := 0xc00018
/-- `TXS_SAMPLE_TAIL.TAIL`. -/
def TXS_SAMPLE_TAIL_TAIL : RegField := ⟨TXS_SAMPLE_TAIL, 0, 32⟩
/-- `TXS_SAMPLE_DROP` (R381). -/
def TXS_SAMPLE_DROP : Nat := 0xc0001c
/-- `TXS_SAMPLE_DROP.COUNT`. -/
def TXS_SAMPLE_DROP_COUNT : RegField := ⟨TXS_SAMPLE_DROP, 0, 32⟩
/-- `TXS_HWM_INDEX` (R381). -/
def TXS_HWM_INDEX : Nat := 0xc00020
/-- `TXS_HWM_INDEX.SUBSCRIBER`. -/
def TXS_HWM_INDEX_SUBSCRIBER : RegField := ⟨TXS_HWM_INDEX, 0, 14⟩
/-- `TXS_HWM_DATA` (R381). -/
def TXS_HWM_DATA : Nat := 0xc00028
/-- `TXS_HWM_DATA.DELAY_MAX`. -/
def TXS_HWM_DATA_DELAY_MAX : RegField := ⟨TXS_HWM_DATA, 32, 32⟩
/-- `TXS_HWM_DATA.DEPTH_MAX`. -/
def TXS_HWM_DATA_DEPTH_MAX : RegField := ⟨TXS_HWM_DATA, 0, 32⟩
/-- `TXS_WHEEL_PARK` (R381). -/
def TXS_WHEEL_PARK : Nat := 0xc00030
/-- `TXS_WHEEL_PARK.COUNT`. -/
def TXS_WHEEL_PARK_COUNT : RegField := ⟨TXS_WHEEL_PARK, 0, 32⟩
/-- `TXS_GATEp_CTL` (R381). -/
def TXS_GATEp_CTL (p : Nat) : Nat := 0xc01000 + 0x40 * p
/-- `TXS_GATEp_CTL.SWITCH_ERR`. -/
def TXS_GATEp_CTL_SWITCH_ERR (p : Nat) : RegField := ⟨TXS_GATEp_CTL p, 4, 1⟩
/-- `TXS_GATEp_CTL.PENDING`. -/
def TXS_GATEp_CTL_PENDING (p : Nat) : RegField := ⟨TXS_GATEp_CTL p, 3, 1⟩
/-- `TXS_GATEp_CTL.GO`. -/
def TXS_GATEp_CTL_GO (p : Nat) : RegField := ⟨TXS_GATEp_CTL p, 2, 1⟩
/-- `TXS_GATEp_CTL.LIST`. -/
def TXS_GATEp_CTL_LIST (p : Nat) : RegField := ⟨TXS_GATEp_CTL p, 1, 1⟩
/-- `TXS_GATEp_CTL.EN`. -/
def TXS_GATEp_CTL_EN (p : Nat) : RegField := ⟨TXS_GATEp_CTL p, 0, 1⟩
/-- `TXS_GATEp_BASE` (R381). -/
def TXS_GATEp_BASE (p : Nat) : Nat := 0xc01008 + 0x40 * p
/-- `TXS_GATEp_BASE.NS`. -/
def TXS_GATEp_BASE_NS (p : Nat) : RegField := ⟨TXS_GATEp_BASE p, 0, 64⟩
/-- `TXS_GATEp_STATUS` (R381). -/
def TXS_GATEp_STATUS (p : Nat) : Nat := 0xc01010 + 0x40 * p
/-- `TXS_GATEp_STATUS.ACTIVE_LIST`. -/
def TXS_GATEp_STATUS_ACTIVE_LIST (p : Nat) : RegField := ⟨TXS_GATEp_STATUS p, 16, 1⟩
/-- `TXS_GATEp_STATUS.ENTRY`. -/
def TXS_GATEp_STATUS_ENTRY (p : Nat) : RegField := ⟨TXS_GATEp_STATUS p, 8, 8⟩
/-- `TXS_GATEp_STATUS.GATES`. -/
def TXS_GATEp_STATUS_GATES (p : Nat) : RegField := ⟨TXS_GATEp_STATUS p, 0, 8⟩
/-- `TXS_GATEp_GUARD` (R381). -/
def TXS_GATEp_GUARD (p : Nat) : Nat := 0xc01014 + 0x40 * p
/-- `TXS_GATEp_GUARD.GUARD_NS`. -/
def TXS_GATEp_GUARD_GUARD_NS (p : Nat) : RegField := ⟨TXS_GATEp_GUARD p, 0, 16⟩
/-- `TXS_GATEp_WAIT` (R381). -/
def TXS_GATEp_WAIT (p : Nat) : Nat := 0xc01018 + 0x40 * p
/-- `TXS_GATEp_WAIT.COUNT`. -/
def TXS_GATEp_WAIT_COUNT (p : Nat) : RegField := ⟨TXS_GATEp_WAIT p, 0, 32⟩
/-- `QPE_CMD` (R421). -/
def QPE_CMD : Nat := 0xa00000
/-- `QPE_CMD.TARGET`. -/
def QPE_CMD_TARGET : RegField := ⟨QPE_CMD, 8, 24⟩
/-- `QPE_CMD.OP`. -/
def QPE_CMD_OP : RegField := ⟨QPE_CMD, 0, 4⟩
/-- `QPE_CMD_STATUS` (R421). -/
def QPE_CMD_STATUS : Nat := 0xa00004
/-- `QPE_CMD_STATUS.BUSY`. -/
def QPE_CMD_STATUS_BUSY : RegField := ⟨QPE_CMD_STATUS, 31, 1⟩
/-- `QPE_CMD_STATUS.CMD_ERR`. -/
def QPE_CMD_STATUS_CMD_ERR : RegField := ⟨QPE_CMD_STATUS, 30, 1⟩
/-- `QPE_CMD_STATUS.STATUS`. -/
def QPE_CMD_STATUS_STATUS : RegField := ⟨QPE_CMD_STATUS, 0, 8⟩
/-- `QPE_CTX_CACHE_CTL` (R421). -/
def QPE_CTX_CACHE_CTL : Nat := 0xa00008
/-- `QPE_CTX_CACHE_CTL.FLUSH`. -/
def QPE_CTX_CACHE_CTL_FLUSH : RegField := ⟨QPE_CTX_CACHE_CTL, 0, 1⟩
/-- `QPE_ACK_CTL` (R421). -/
def QPE_ACK_CTL : Nat := 0xa0000c
/-- `QPE_ACK_CTL.ACK_FREQ`. -/
def QPE_ACK_CTL_ACK_FREQ : RegField := ⟨QPE_ACK_CTL, 16, 8⟩
/-- `QPE_ACK_CTL.ACK_DELAY_NS`. -/
def QPE_ACK_CTL_ACK_DELAY_NS : RegField := ⟨QPE_ACK_CTL, 0, 16⟩
/-- `QPE_UNORD_CTL` (R421). -/
def QPE_UNORD_CTL : Nat := 0xa00010
/-- `QPE_UNORD_CTL.GAP_US`. -/
def QPE_UNORD_CTL_GAP_US : RegField := ⟨QPE_UNORD_CTL, 0, 16⟩
/-- `QPE_RTT_CTL` (R421). -/
def QPE_RTT_CTL : Nat := 0xa00014
/-- `QPE_RTT_CTL.RTT_HIGH_US`. -/
def QPE_RTT_CTL_RTT_HIGH_US : RegField := ⟨QPE_RTT_CTL, 16, 16⟩
/-- `QPE_RTT_CTL.INTERVAL_US`. -/
def QPE_RTT_CTL_INTERVAL_US : RegField := ⟨QPE_RTT_CTL, 0, 16⟩
/-- `QPE_CC_CNP` (R421). -/
def QPE_CC_CNP : Nat := 0xa00018
/-- `QPE_CC_CNP.INTERVAL_US`. -/
def QPE_CC_CNP_INTERVAL_US : RegField := ⟨QPE_CC_CNP, 16, 16⟩
/-- `QPE_CC_CNP.CLASS`. -/
def QPE_CC_CNP_CLASS : RegField := ⟨QPE_CC_CNP, 8, 3⟩
/-- `QPE_CC_CNP.DSCP`. -/
def QPE_CC_CNP_DSCP : RegField := ⟨QPE_CC_CNP, 0, 6⟩
/-- `QPE_CC_TIMERS` (R421). -/
def QPE_CC_TIMERS : Nat := 0xa0001c
/-- `QPE_CC_TIMERS.K_DEC_US`. -/
def QPE_CC_TIMERS_K_DEC_US : RegField := ⟨QPE_CC_TIMERS, 16, 16⟩
/-- `QPE_CC_TIMERS.ALPHA_US`. -/
def QPE_CC_TIMERS_ALPHA_US : RegField := ⟨QPE_CC_TIMERS, 0, 16⟩
/-- `QPE_CC_INC` (R421). -/
def QPE_CC_INC : Nat := 0xa00020
/-- `QPE_CC_INC.T_INC_US`. -/
def QPE_CC_INC_T_INC_US : RegField := ⟨QPE_CC_INC, 16, 16⟩
/-- `QPE_CC_INC.F`. -/
def QPE_CC_INC_F : RegField := ⟨QPE_CC_INC, 8, 4⟩
/-- `QPE_CC_INC.G_SHIFT`. -/
def QPE_CC_INC_G_SHIFT : RegField := ⟨QPE_CC_INC, 0, 4⟩
/-- `QPE_CC_BINC` (R421). -/
def QPE_CC_BINC : Nat := 0xa00024
/-- `QPE_CC_BINC.B_INC`. -/
def QPE_CC_BINC_B_INC : RegField := ⟨QPE_CC_BINC, 0, 32⟩
/-- `QPE_CC_RAI` (R421). -/
def QPE_CC_RAI : Nat := 0xa00028
/-- `QPE_CC_RAI.R_AI`. -/
def QPE_CC_RAI_R_AI : RegField := ⟨QPE_CC_RAI, 0, 32⟩
/-- `QPE_CC_RHAI` (R421). -/
def QPE_CC_RHAI : Nat := 0xa0002c
/-- `QPE_CC_RHAI.R_HAI`. -/
def QPE_CC_RHAI_R_HAI : RegField := ⟨QPE_CC_RHAI, 0, 32⟩
/-- `QPE_CC_RMIN` (R421). -/
def QPE_CC_RMIN : Nat := 0xa00030
/-- `QPE_CC_RMIN.R_MIN`. -/
def QPE_CC_RMIN_R_MIN : RegField := ⟨QPE_CC_RMIN, 0, 32⟩
/-- `QPE_CC_BETA` (R421). -/
def QPE_CC_BETA : Nat := 0xa00034
/-- `QPE_CC_BETA.BETA`. -/
def QPE_CC_BETA_BETA : RegField := ⟨QPE_CC_BETA, 0, 11⟩
/-- `QPE_CC_EN` (R421). -/
def QPE_CC_EN : Nat := 0xa00038
/-- `QPE_CC_EN.EN`. -/
def QPE_CC_EN_EN : RegField := ⟨QPE_CC_EN, 0, 1⟩
/-- `QPE_CMD_DATAi` (R421). -/
def QPE_CMD_DATAi (i : Nat) : Nat := 0xa00040 + 0x4 * i
/-- `QPE_CMD_DATAi.DATA`. -/
def QPE_CMD_DATAi_DATA (i : Nat) : RegField := ⟨QPE_CMD_DATAi i, 0, 32⟩
/-- `QPE_TX_PKTS` (R421). -/
def QPE_TX_PKTS : Nat := 0xa00200
/-- `QPE_TX_PKTS.COUNT`. -/
def QPE_TX_PKTS_COUNT : RegField := ⟨QPE_TX_PKTS, 0, 64⟩
/-- `QPE_RX_PKTS` (R421). -/
def QPE_RX_PKTS : Nat := 0xa00208
/-- `QPE_RX_PKTS.COUNT`. -/
def QPE_RX_PKTS_COUNT : RegField := ⟨QPE_RX_PKTS, 0, 64⟩
/-- `QPE_INFLIGHT` (R421). -/
def QPE_INFLIGHT : Nat := 0xa00210
/-- `QPE_INFLIGHT.SLOTS`. -/
def QPE_INFLIGHT_SLOTS : RegField := ⟨QPE_INFLIGHT, 0, 15⟩
/-- `QPE_RETRANS_PKTS` (R421). -/
def QPE_RETRANS_PKTS : Nat := 0xa00214
/-- `QPE_RETRANS_PKTS.COUNT`. -/
def QPE_RETRANS_PKTS_COUNT : RegField := ⟨QPE_RETRANS_PKTS, 0, 32⟩
/-- `QPE_TIMEOUTS` (R421). -/
def QPE_TIMEOUTS : Nat := 0xa00218
/-- `QPE_TIMEOUTS.COUNT`. -/
def QPE_TIMEOUTS_COUNT : RegField := ⟨QPE_TIMEOUTS, 0, 32⟩
/-- `QPE_DUP_PKTS` (R421). -/
def QPE_DUP_PKTS : Nat := 0xa0021c
/-- `QPE_DUP_PKTS.COUNT`. -/
def QPE_DUP_PKTS_COUNT : RegField := ⟨QPE_DUP_PKTS, 0, 32⟩
/-- `QPE_OOS_NAK_TX` (R421). -/
def QPE_OOS_NAK_TX : Nat := 0xa00220
/-- `QPE_OOS_NAK_TX.COUNT`. -/
def QPE_OOS_NAK_TX_COUNT : RegField := ⟨QPE_OOS_NAK_TX, 0, 32⟩
/-- `QPE_RNR_NAK_TX` (R421). -/
def QPE_RNR_NAK_TX : Nat := 0xa00224
/-- `QPE_RNR_NAK_TX.COUNT`. -/
def QPE_RNR_NAK_TX_COUNT : RegField := ⟨QPE_RNR_NAK_TX, 0, 32⟩
/-- `QPE_RNR_NAK_RX` (R421). -/
def QPE_RNR_NAK_RX : Nat := 0xa00228
/-- `QPE_RNR_NAK_RX.COUNT`. -/
def QPE_RNR_NAK_RX_COUNT : RegField := ⟨QPE_RNR_NAK_RX, 0, 32⟩
/-- `QPE_ECN_RX` (R421). -/
def QPE_ECN_RX : Nat := 0xa0022c
/-- `QPE_ECN_RX.COUNT`. -/
def QPE_ECN_RX_COUNT : RegField := ⟨QPE_ECN_RX, 0, 32⟩
/-- `QPE_CNP_TX` (R421). -/
def QPE_CNP_TX : Nat := 0xa00230
/-- `QPE_CNP_TX.COUNT`. -/
def QPE_CNP_TX_COUNT : RegField := ⟨QPE_CNP_TX, 0, 32⟩
/-- `QPE_CNP_RX` (R421). -/
def QPE_CNP_RX : Nat := 0xa00234
/-- `QPE_CNP_RX.COUNT`. -/
def QPE_CNP_RX_COUNT : RegField := ⟨QPE_CNP_RX, 0, 32⟩
/-- `QPE_NO_QP` (R421). -/
def QPE_NO_QP : Nat := 0xa00238
/-- `QPE_NO_QP.COUNT`. -/
def QPE_NO_QP_COUNT : RegField := ⟨QPE_NO_QP, 0, 32⟩
/-- `QPE_UD_DROP` (R421). -/
def QPE_UD_DROP : Nat := 0xa0023c
/-- `QPE_UD_DROP.COUNT`. -/
def QPE_UD_DROP_COUNT : RegField := ⟨QPE_UD_DROP, 0, 32⟩
/-- `QPE_ATOMIC_MISS` (R421). -/
def QPE_ATOMIC_MISS : Nat := 0xa00240
/-- `QPE_ATOMIC_MISS.COUNT`. -/
def QPE_ATOMIC_MISS_COUNT : RegField := ⟨QPE_ATOMIC_MISS, 0, 32⟩
/-- `QPE_UNORD_DROP` (R421). -/
def QPE_UNORD_DROP : Nat := 0xa00244
/-- `QPE_UNORD_DROP.COUNT`. -/
def QPE_UNORD_DROP_COUNT : RegField := ⟨QPE_UNORD_DROP, 0, 32⟩
/-- `QPE_AUTH_FAIL` (R421). -/
def QPE_AUTH_FAIL : Nat := 0xa00248
/-- `QPE_AUTH_FAIL.COUNT`. -/
def QPE_AUTH_FAIL_COUNT : RegField := ⟨QPE_AUTH_FAIL, 0, 32⟩
/-- `QPE_ICRC_ERR` (R421). -/
def QPE_ICRC_ERR : Nat := 0xa0024c
/-- `QPE_ICRC_ERR.COUNT`. -/
def QPE_ICRC_ERR_COUNT : RegField := ⟨QPE_ICRC_ERR, 0, 32⟩
/-- `QPE_CTX_MISS` (R421). -/
def QPE_CTX_MISS : Nat := 0xa00250
/-- `QPE_CTX_MISS.COUNT`. -/
def QPE_CTX_MISS_COUNT : RegField := ⟨QPE_CTX_MISS, 0, 32⟩
/-- `DTU_CMD` (R442). -/
def DTU_CMD : Nat := 0x900000
/-- `DTU_CMD.TARGET`. -/
def DTU_CMD_TARGET : RegField := ⟨DTU_CMD, 8, 24⟩
/-- `DTU_CMD.OP`. -/
def DTU_CMD_OP : RegField := ⟨DTU_CMD, 0, 4⟩
/-- `DTU_CMD_STATUS` (R442). -/
def DTU_CMD_STATUS : Nat := 0x900004
/-- `DTU_CMD_STATUS.BUSY`. -/
def DTU_CMD_STATUS_BUSY : RegField := ⟨DTU_CMD_STATUS, 31, 1⟩
/-- `DTU_CMD_STATUS.CMD_ERR`. -/
def DTU_CMD_STATUS_CMD_ERR : RegField := ⟨DTU_CMD_STATUS, 30, 1⟩
/-- `DTU_CMD_STATUS.STATUS`. -/
def DTU_CMD_STATUS_STATUS : RegField := ⟨DTU_CMD_STATUS, 0, 8⟩
/-- `DTU_UPDATE_ADDR` (R442). -/
def DTU_UPDATE_ADDR : Nat := 0x900008
/-- `DTU_UPDATE_ADDR.ADDR`. -/
def DTU_UPDATE_ADDR_ADDR : RegField := ⟨DTU_UPDATE_ADDR, 0, 64⟩
/-- `DTU_UPDATE_COUNT` (R442). -/
def DTU_UPDATE_COUNT : Nat := 0x900010
/-- `DTU_UPDATE_COUNT.COUNT`. -/
def DTU_UPDATE_COUNT_COUNT : RegField := ⟨DTU_UPDATE_COUNT, 0, 17⟩
/-- `DTU_REVOKE_PENDING` (R442). -/
def DTU_REVOKE_PENDING : Nat := 0x900014
/-- `DTU_REVOKE_PENDING.COUNT`. -/
def DTU_REVOKE_PENDING_COUNT : RegField := ⟨DTU_REVOKE_PENDING, 0, 7⟩
/-- `DTU_FENCE_COUNT` (R442). -/
def DTU_FENCE_COUNT : Nat := 0x900018
/-- `DTU_FENCE_COUNT.COUNT`. -/
def DTU_FENCE_COUNT_COUNT : RegField := ⟨DTU_FENCE_COUNT, 0, 32⟩
/-- `DTU_FAULT_BASE` (R442). -/
def DTU_FAULT_BASE : Nat := 0x900020
/-- `DTU_FAULT_BASE.ADDR`. -/
def DTU_FAULT_BASE_ADDR : RegField := ⟨DTU_FAULT_BASE, 0, 64⟩
/-- `DTU_FAULT_HEAD_ADDR` (R442). -/
def DTU_FAULT_HEAD_ADDR : Nat := 0x900028
/-- `DTU_FAULT_HEAD_ADDR.ADDR`. -/
def DTU_FAULT_HEAD_ADDR_ADDR : RegField := ⟨DTU_FAULT_HEAD_ADDR, 0, 64⟩
/-- `DTU_FAULT_TAIL` (R442). -/
def DTU_FAULT_TAIL : Nat := 0x900030
/-- `DTU_FAULT_TAIL.TAIL`. -/
def DTU_FAULT_TAIL_TAIL : RegField := ⟨DTU_FAULT_TAIL, 0, 32⟩
/-- `DTU_FAULT_CTL` (R442). -/
def DTU_FAULT_CTL : Nat := 0x900034
/-- `DTU_FAULT_CTL.RING_LOG2`. -/
def DTU_FAULT_CTL_RING_LOG2 : RegField := ⟨DTU_FAULT_CTL, 1, 5⟩
/-- `DTU_FAULT_CTL.EN`. -/
def DTU_FAULT_CTL_EN : RegField := ⟨DTU_FAULT_CTL, 0, 1⟩
/-- `DTU_FAULT_DROP` (R442). -/
def DTU_FAULT_DROP : Nat := 0x900038
/-- `DTU_FAULT_DROP.COUNT`. -/
def DTU_FAULT_DROP_COUNT : RegField := ⟨DTU_FAULT_DROP, 0, 32⟩
/-- `DTU_MISS` (R442). -/
def DTU_MISS : Nat := 0x90003c
/-- `DTU_MISS.COUNT`. -/
def DTU_MISS_COUNT : RegField := ⟨DTU_MISS, 0, 32⟩
/-- `DTU_WALK_WAIT` (R442). -/
def DTU_WALK_WAIT : Nat := 0x900040
/-- `DTU_WALK_WAIT.COUNT`. -/
def DTU_WALK_WAIT_COUNT : RegField := ⟨DTU_WALK_WAIT, 0, 32⟩
/-- `DTU_CHECK_FAIL` (R442). -/
def DTU_CHECK_FAIL : Nat := 0x900044
/-- `DTU_CHECK_FAIL.COUNT`. -/
def DTU_CHECK_FAIL_COUNT : RegField := ⟨DTU_CHECK_FAIL, 0, 32⟩
/-- `DTU_CMD_DATAi` (R442). -/
def DTU_CMD_DATAi (i : Nat) : Nat := 0x900080 + 0x4 * i
/-- `DTU_CMD_DATAi.DATA`. -/
def DTU_CMD_DATAi_DATA (i : Nat) : RegField := ⟨DTU_CMD_DATAi i, 0, 32⟩
/-- `VFM_CMD` (R463). -/
def VFM_CMD : Nat := 0x1800000
/-- `VFM_CMD.TARGET`. -/
def VFM_CMD_TARGET : RegField := ⟨VFM_CMD, 16, 9⟩
/-- `VFM_CMD.OP`. -/
def VFM_CMD_OP : RegField := ⟨VFM_CMD, 0, 4⟩
/-- `VFM_CMD_STATUS` (R463). -/
def VFM_CMD_STATUS : Nat := 0x1800004
/-- `VFM_CMD_STATUS.BUSY`. -/
def VFM_CMD_STATUS_BUSY : RegField := ⟨VFM_CMD_STATUS, 31, 1⟩
/-- `VFM_CMD_STATUS.CMD_ERR`. -/
def VFM_CMD_STATUS_CMD_ERR : RegField := ⟨VFM_CMD_STATUS, 30, 1⟩
/-- `VFM_CMD_STATUS.STATUS`. -/
def VFM_CMD_STATUS_STATUS : RegField := ⟨VFM_CMD_STATUS, 0, 8⟩
/-- `VFM_IMG_ADDR` (R463). -/
def VFM_IMG_ADDR : Nat := 0x1800008
/-- `VFM_IMG_ADDR.ADDR`. -/
def VFM_IMG_ADDR_ADDR : RegField := ⟨VFM_IMG_ADDR, 0, 64⟩
/-- `VFM_IMG_LEN` (R463). -/
def VFM_IMG_LEN : Nat := 0x1800010
/-- `VFM_IMG_LEN.LEN`. -/
def VFM_IMG_LEN_LEN : RegField := ⟨VFM_IMG_LEN, 0, 32⟩
/-- `VFM_IMG_NEED` (R463). -/
def VFM_IMG_NEED : Nat := 0x1800014
/-- `VFM_IMG_NEED.BYTES`. -/
def VFM_IMG_NEED_BYTES : RegField := ⟨VFM_IMG_NEED, 0, 32⟩
/-- `VFM_ENABLE_REJECT` (R463). -/
def VFM_ENABLE_REJECT : Nat := 0x1800018
/-- `VFM_ENABLE_REJECT.COUNT`. -/
def VFM_ENABLE_REJECT_COUNT : RegField := ⟨VFM_ENABLE_REJECT, 0, 32⟩
/-- `VFM_MBOX_PENDi` (R463). -/
def VFM_MBOX_PENDi (i : Nat) : Nat := 0x1800020 + 0x4 * i
/-- `VFM_MBOX_PENDi.PEND`. -/
def VFM_MBOX_PENDi_PEND (i : Nat) : RegField := ⟨VFM_MBOX_PENDi i, 0, 32⟩
/-- `VFM_CMD_DATAi` (R463). -/
def VFM_CMD_DATAi (i : Nat) : Nat := 0x1800080 + 0x4 * i
/-- `VFM_CMD_DATAi.DATA`. -/
def VFM_CMD_DATAi_DATA (i : Nat) : RegField := ⟨VFM_CMD_DATAi i, 0, 32⟩
/-- `VFM_FNf_STATE` (R463). -/
def VFM_FNf_STATE (f : Nat) : Nat := 0x1801200 + 0x400 * f
/-- `VFM_FNf_STATE.DRAIN_STUCK`. -/
def VFM_FNf_STATE_DRAIN_STUCK (f : Nat) : RegField := ⟨VFM_FNf_STATE f, 19, 1⟩
/-- `VFM_FNf_STATE.PARTITION`. -/
def VFM_FNf_STATE_PARTITION (f : Nat) : RegField := ⟨VFM_FNf_STATE f, 8, 5⟩
/-- `VFM_FNf_STATE.STATE`. -/
def VFM_FNf_STATE_STATE (f : Nat) : RegField := ⟨VFM_FNf_STATE f, 0, 3⟩
/-- `VFM_FNf_MBOX_CTL` (R463). -/
def VFM_FNf_MBOX_CTL (f : Nat) : Nat := 0x1801204 + 0x400 * f
/-- `VFM_FNf_MBOX_CTL.SEND_REJECT`. -/
def VFM_FNf_MBOX_CTL_SEND_REJECT (f : Nat) : RegField := ⟨VFM_FNf_MBOX_CTL f, 17, 1⟩
/-- `VFM_FNf_MBOX_CTL.ENABLE_REJECT`. -/
def VFM_FNf_MBOX_CTL_ENABLE_REJECT (f : Nat) : RegField := ⟨VFM_FNf_MBOX_CTL f, 16, 1⟩
/-- `VFM_FNf_MBOX_CTL.FROM_FULL`. -/
def VFM_FNf_MBOX_CTL_FROM_FULL (f : Nat) : RegField := ⟨VFM_FNf_MBOX_CTL f, 9, 1⟩
/-- `VFM_FNf_MBOX_CTL.TO_BUSY`. -/
def VFM_FNf_MBOX_CTL_TO_BUSY (f : Nat) : RegField := ⟨VFM_FNf_MBOX_CTL f, 8, 1⟩
/-- `VFM_FNf_MBOX_CTL.ACK`. -/
def VFM_FNf_MBOX_CTL_ACK (f : Nat) : RegField := ⟨VFM_FNf_MBOX_CTL f, 1, 1⟩
/-- `VFM_FNf_MBOX_CTL.SEND`. -/
def VFM_FNf_MBOX_CTL_SEND (f : Nat) : RegField := ⟨VFM_FNf_MBOX_CTL f, 0, 1⟩
/-- `VFM_FNf_DRAIN_US` (R463). -/
def VFM_FNf_DRAIN_US (f : Nat) : Nat := 0x1801208 + 0x400 * f
/-- `VFM_FNf_DRAIN_US.US`. -/
def VFM_FNf_DRAIN_US_US (f : Nat) : RegField := ⟨VFM_FNf_DRAIN_US f, 0, 32⟩
/-- `VFM_FNf_FROZEN_DROP` (R463). -/
def VFM_FNf_FROZEN_DROP (f : Nat) : Nat := 0x180120c + 0x400 * f
/-- `VFM_FNf_FROZEN_DROP.COUNT`. -/
def VFM_FNf_FROZEN_DROP_COUNT (f : Nat) : RegField := ⟨VFM_FNf_FROZEN_DROP f, 0, 32⟩
/-- `CAD_CMD` (R488). -/
def CAD_CMD : Nat := 0x600000
/-- `CAD_CMD.TARGET`. -/
def CAD_CMD_TARGET : RegField := ⟨CAD_CMD, 16, 14⟩
/-- `CAD_CMD.OP`. -/
def CAD_CMD_OP : RegField := ⟨CAD_CMD, 0, 4⟩
/-- `CAD_CMD_STATUS` (R488). -/
def CAD_CMD_STATUS : Nat := 0x600004
/-- `CAD_CMD_STATUS.BUSY`. -/
def CAD_CMD_STATUS_BUSY : RegField := ⟨CAD_CMD_STATUS, 31, 1⟩
/-- `CAD_CMD_STATUS.CMD_ERR`. -/
def CAD_CMD_STATUS_CMD_ERR : RegField := ⟨CAD_CMD_STATUS, 30, 1⟩
/-- `CAD_CMD_STATUS.STATUS`. -/
def CAD_CMD_STATUS_STATUS : RegField := ⟨CAD_CMD_STATUS, 0, 8⟩
/-- `CAD_IMPORT_ADDR` (R488). -/
def CAD_IMPORT_ADDR : Nat := 0x600008
/-- `CAD_IMPORT_ADDR.ADDR`. -/
def CAD_IMPORT_ADDR_ADDR : RegField := ⟨CAD_IMPORT_ADDR, 0, 64⟩
/-- `CAD_SLOT_INFO` (R488). -/
def CAD_SLOT_INFO : Nat := 0x600010
/-- `CAD_SLOT_INFO.KCV`. -/
def CAD_SLOT_INFO_KCV : RegField := ⟨CAD_SLOT_INFO, 40, 24⟩
/-- `CAD_SLOT_INFO.PARENT`. -/
def CAD_SLOT_INFO_PARENT : RegField := ⟨CAD_SLOT_INFO, 24, 16⟩
/-- `CAD_SLOT_INFO.OWNER`. -/
def CAD_SLOT_INFO_OWNER : RegField := ⟨CAD_SLOT_INFO, 16, 8⟩
/-- `CAD_SLOT_INFO.IMPORTS`. -/
def CAD_SLOT_INFO_IMPORTS : RegField := ⟨CAD_SLOT_INFO, 8, 8⟩
/-- `CAD_SLOT_INFO.MODE`. -/
def CAD_SLOT_INFO_MODE : RegField := ⟨CAD_SLOT_INFO, 1, 3⟩
/-- `CAD_SLOT_INFO.LOADED`. -/
def CAD_SLOT_INFO_LOADED : RegField := ⟨CAD_SLOT_INFO, 0, 1⟩
/-- `CAD_SHARE` (R488). -/
def CAD_SHARE : Nat := 0x600018
/-- `CAD_SHARE.MIN_MACSEC`. -/
def CAD_SHARE_MIN_MACSEC : RegField := ⟨CAD_SHARE, 24, 8⟩
/-- `CAD_SHARE.MIN_QP`. -/
def CAD_SHARE_MIN_QP : RegField := ⟨CAD_SHARE, 16, 8⟩
/-- `CAD_SHARE.MIN_TIER`. -/
def CAD_SHARE_MIN_TIER : RegField := ⟨CAD_SHARE, 8, 8⟩
/-- `CAD_SHARE.MIN_QUEUE`. -/
def CAD_SHARE_MIN_QUEUE : RegField := ⟨CAD_SHARE, 0, 8⟩
/-- `CAD_PIPES` (R488). -/
def CAD_PIPES : Nat := 0x60001c
/-- `CAD_PIPES.ACTIVE`. -/
def CAD_PIPES_ACTIVE : RegField := ⟨CAD_PIPES, 0, 7⟩
/-- `CAD_STREAMS` (R488). -/
def CAD_STREAMS : Nat := 0x600020
/-- `CAD_STREAMS.RUNNING`. -/
def CAD_STREAMS_RUNNING : RegField := ⟨CAD_STREAMS, 0, 9⟩
/-- `CAD_AUTH_FAIL` (R488). -/
def CAD_AUTH_FAIL : Nat := 0x600024
/-- `CAD_AUTH_FAIL.COUNT`. -/
def CAD_AUTH_FAIL_COUNT : RegField := ⟨CAD_AUTH_FAIL, 0, 32⟩
/-- `CAD_KEY_EMPTY` (R488). -/
def CAD_KEY_EMPTY : Nat := 0x600028
/-- `CAD_KEY_EMPTY.COUNT`. -/
def CAD_KEY_EMPTY_COUNT : RegField := ⟨CAD_KEY_EMPTY, 0, 32⟩
/-- `CAD_RNG_RETRY` (R488). -/
def CAD_RNG_RETRY : Nat := 0x60002c
/-- `CAD_RNG_RETRY.COUNT`. -/
def CAD_RNG_RETRY_COUNT : RegField := ⟨CAD_RNG_RETRY, 0, 32⟩
/-- `CAD_BLOCKSc` (R488). -/
def CAD_BLOCKSc (c : Nat) : Nat := 0x600040 + 0x8 * c
/-- `CAD_BLOCKSc.COUNT`. -/
def CAD_BLOCKSc_COUNT (c : Nat) : RegField := ⟨CAD_BLOCKSc c, 0, 64⟩
/-- `SEC_CMD` (R503). -/
def SEC_CMD : Nat := 0x500000
/-- `SEC_CMD.ARG`. -/
def SEC_CMD_ARG : RegField := ⟨SEC_CMD, 16, 7⟩
/-- `SEC_CMD.OP`. -/
def SEC_CMD_OP : RegField := ⟨SEC_CMD, 0, 4⟩
/-- `SEC_CMD_STATUS` (R503). -/
def SEC_CMD_STATUS : Nat := 0x500004
/-- `SEC_CMD_STATUS.BUSY`. -/
def SEC_CMD_STATUS_BUSY : RegField := ⟨SEC_CMD_STATUS, 31, 1⟩
/-- `SEC_CMD_STATUS.CMD_ERR`. -/
def SEC_CMD_STATUS_CMD_ERR : RegField := ⟨SEC_CMD_STATUS, 30, 1⟩
/-- `SEC_CMD_STATUS.STATUS`. -/
def SEC_CMD_STATUS_STATUS : RegField := ⟨SEC_CMD_STATUS, 0, 8⟩
/-- `SEC_ROLLBACK` (R503). -/
def SEC_ROLLBACK : Nat := 0x500008
/-- `SEC_ROLLBACK.COUNT`. -/
def SEC_ROLLBACK_COUNT : RegField := ⟨SEC_ROLLBACK, 0, 7⟩
/-- `SEC_STATUS` (R503). -/
def SEC_STATUS : Nat := 0x50000c
/-- `SEC_STATUS.OWNER_SET`. -/
def SEC_STATUS_OWNER_SET : RegField := ⟨SEC_STATUS, 0, 1⟩
/-- `SEC_DEBUG` (R503). -/
def SEC_DEBUG : Nat := 0x500010
/-- `SEC_DEBUG.LEVEL`. -/
def SEC_DEBUG_LEVEL : RegField := ⟨SEC_DEBUG, 0, 2⟩
/-- `SEC_DEBUG_NONCE` (R503). -/
def SEC_DEBUG_NONCE : Nat := 0x500018
/-- `SEC_DEBUG_NONCE.NONCE`. -/
def SEC_DEBUG_NONCE_NONCE : RegField := ⟨SEC_DEBUG_NONCE, 0, 64⟩
/-- `SEC_BUF_ADDR` (R503). -/
def SEC_BUF_ADDR : Nat := 0x500020
/-- `SEC_BUF_ADDR.ADDR`. -/
def SEC_BUF_ADDR_ADDR : RegField := ⟨SEC_BUF_ADDR, 0, 64⟩
/-- `SEC_IMAGE_PK_HASHi` (R503). -/
def SEC_IMAGE_PK_HASHi (i : Nat) : Nat := 0x500040 + 0x4 * i
/-- `SEC_IMAGE_PK_HASHi.HASH`. -/
def SEC_IMAGE_PK_HASHi_HASH (i : Nat) : RegField := ⟨SEC_IMAGE_PK_HASHi i, 0, 32⟩
/-- `SEC_DEBUG_PK_HASHi` (R503). -/
def SEC_DEBUG_PK_HASHi (i : Nat) : Nat := 0x500060 + 0x4 * i
/-- `SEC_DEBUG_PK_HASHi.HASH`. -/
def SEC_DEBUG_PK_HASHi_HASH (i : Nat) : RegField := ⟨SEC_DEBUG_PK_HASHi i, 0, 32⟩
/-- `SEC_DEVID_HASHi` (R503). -/
def SEC_DEVID_HASHi (i : Nat) : Nat := 0x500080 + 0x4 * i
/-- `SEC_DEVID_HASHi.HASH`. -/
def SEC_DEVID_HASHi_HASH (i : Nat) : RegField := ⟨SEC_DEVID_HASHi i, 0, 32⟩
/-- `RAS_REC_CTL` (R526). -/
def RAS_REC_CTL : Nat := 0x300000
/-- `RAS_REC_CTL.RING_LOG2`. -/
def RAS_REC_CTL_RING_LOG2 : RegField := ⟨RAS_REC_CTL, 1, 5⟩
/-- `RAS_REC_CTL.EN`. -/
def RAS_REC_CTL_EN : RegField := ⟨RAS_REC_CTL, 0, 1⟩
/-- `RAS_REC_BASE` (R526). -/
def RAS_REC_BASE : Nat := 0x300008
/-- `RAS_REC_BASE.ADDR`. -/
def RAS_REC_BASE_ADDR : RegField := ⟨RAS_REC_BASE, 0, 64⟩
/-- `RAS_REC_HEAD_ADDR` (R526). -/
def RAS_REC_HEAD_ADDR : Nat := 0x300010
/-- `RAS_REC_HEAD_ADDR.ADDR`. -/
def RAS_REC_HEAD_ADDR_ADDR : RegField := ⟨RAS_REC_HEAD_ADDR, 0, 64⟩
/-- `RAS_REC_TAIL` (R526). -/
def RAS_REC_TAIL : Nat := 0x300018
/-- `RAS_REC_TAIL.TAIL`. -/
def RAS_REC_TAIL_TAIL : RegField := ⟨RAS_REC_TAIL, 0, 32⟩
/-- `RAS_REC_DROP` (R526). -/
def RAS_REC_DROP : Nat := 0x30001c
/-- `RAS_REC_DROP.COUNT`. -/
def RAS_REC_DROP_COUNT : RegField := ⟨RAS_REC_DROP, 0, 32⟩
/-- `RAS_REC_TOTAL` (R526). -/
def RAS_REC_TOTAL : Nat := 0x300020
/-- `RAS_REC_TOTAL.COUNT`. -/
def RAS_REC_TOTAL_COUNT : RegField := ⟨RAS_REC_TOTAL, 0, 32⟩
/-- `RAS_LOG_INDEX` (R526). -/
def RAS_LOG_INDEX : Nat := 0x300024
/-- `RAS_LOG_INDEX.ENTRY`. -/
def RAS_LOG_INDEX_ENTRY : RegField := ⟨RAS_LOG_INDEX, 0, 8⟩
/-- `RAS_LOG_DATAi` (R526). -/
def RAS_LOG_DATAi (i : Nat) : Nat := 0x300040 + 0x4 * i
/-- `RAS_LOG_DATAi.WORD`. -/
def RAS_LOG_DATAi_WORD (i : Nat) : RegField := ⟨RAS_LOG_DATAi i, 0, 32⟩
/-- `RAS_CORR_TRANSIENT` (R526). -/
def RAS_CORR_TRANSIENT : Nat := 0x300080
/-- `RAS_CORR_TRANSIENT.COUNT`. -/
def RAS_CORR_TRANSIENT_COUNT : RegField := ⟨RAS_CORR_TRANSIENT, 0, 64⟩
/-- `RAS_CORR_LASTING` (R526). -/
def RAS_CORR_LASTING : Nat := 0x300088
/-- `RAS_CORR_LASTING.COUNT`. -/
def RAS_CORR_LASTING_COUNT : RegField := ⟨RAS_CORR_LASTING, 0, 32⟩
/-- `RAS_UNC_TRANSIENT` (R526). -/
def RAS_UNC_TRANSIENT : Nat := 0x30008c
/-- `RAS_UNC_TRANSIENT.COUNT`. -/
def RAS_UNC_TRANSIENT_COUNT : RegField := ⟨RAS_UNC_TRANSIENT, 0, 32⟩
/-- `RAS_UNC_LASTING` (R526). -/
def RAS_UNC_LASTING : Nat := 0x300090
/-- `RAS_UNC_LASTING.COUNT`. -/
def RAS_UNC_LASTING_COUNT : RegField := ⟨RAS_UNC_LASTING, 0, 32⟩
/-- `RAS_DUP_MISMATCH` (R526). -/
def RAS_DUP_MISMATCH : Nat := 0x300094
/-- `RAS_DUP_MISMATCH.COUNT`. -/
def RAS_DUP_MISMATCH_COUNT : RegField := ⟨RAS_DUP_MISMATCH, 0, 32⟩
/-- `RAS_LOG_OVERWRITE` (R526). -/
def RAS_LOG_OVERWRITE : Nat := 0x300098
/-- `RAS_LOG_OVERWRITE.COUNT`. -/
def RAS_LOG_OVERWRITE_COUNT : RegField := ⟨RAS_LOG_OVERWRITE, 0, 32⟩
/-- `RAS_FENCE_CMD` (R526). -/
def RAS_FENCE_CMD : Nat := 0x3000a0
/-- `RAS_FENCE_CMD.INDEX`. -/
def RAS_FENCE_CMD_INDEX : RegField := ⟨RAS_FENCE_CMD, 16, 16⟩
/-- `RAS_FENCE_CMD.KIND`. -/
def RAS_FENCE_CMD_KIND : RegField := ⟨RAS_FENCE_CMD, 0, 4⟩
/-- `RAS_FENCE_CTL` (R526). -/
def RAS_FENCE_CTL : Nat := 0x3000a4
/-- `RAS_FENCE_CTL.BANK_LIMIT`. -/
def RAS_FENCE_CTL_BANK_LIMIT : RegField := ⟨RAS_FENCE_CTL, 0, 8⟩
/-- `RAS_FENCED_CLU` (R526). -/
def RAS_FENCED_CLU : Nat := 0x3000a8
/-- `RAS_FENCED_CLU.CLUSTERS`. -/
def RAS_FENCED_CLU_CLUSTERS : RegField := ⟨RAS_FENCED_CLU, 0, 32⟩
/-- `RAS_FENCED_DIE` (R526). -/
def RAS_FENCED_DIE : Nat := 0x3000ac
/-- `RAS_FENCED_DIE.DIES`. -/
def RAS_FENCED_DIE_DIES : RegField := ⟨RAS_FENCED_DIE, 0, 4⟩
/-- `RAS_FENCED_HBMs` (R526). -/
def RAS_FENCED_HBMs (s : Nat) : Nat := 0x3000b0 + 0x4 * s
/-- `RAS_FENCED_HBMs.CHANNELS`. -/
def RAS_FENCED_HBMs_CHANNELS (s : Nat) : RegField := ⟨RAS_FENCED_HBMs s, 0, 16⟩
/-- `RAS_FENCED_LP5X` (R526). -/
def RAS_FENCED_LP5X : Nat := 0x3000d0
/-- `RAS_FENCED_LP5X.CHANNELS`. -/
def RAS_FENCED_LP5X_CHANNELS : RegField := ⟨RAS_FENCED_LP5X, 0, 16⟩
/-- `RAS_FATAL` (R526). -/
def RAS_FATAL : Nat := 0x3000d4
/-- `RAS_FATAL.UNIT`. -/
def RAS_FATAL_UNIT : RegField := ⟨RAS_FATAL, 8, 8⟩
/-- `RAS_FATAL.FATAL`. -/
def RAS_FATAL_FATAL : RegField := ⟨RAS_FATAL, 0, 1⟩
/-- `RAS_HBM_REPAIR_PEND` (R526). -/
def RAS_HBM_REPAIR_PEND : Nat := 0x3000d8
/-- `RAS_HBM_REPAIR_PEND.ROWS`. -/
def RAS_HBM_REPAIR_PEND_ROWS : RegField := ⟨RAS_HBM_REPAIR_PEND, 0, 32⟩
/-- `RAS_CLU_SLOTSc` (R526). -/
def RAS_CLU_SLOTSc (c : Nat) : Nat := 0x300100 + 0x4 * c
/-- `RAS_CLU_SLOTSc.NO_SPARE`. -/
def RAS_CLU_SLOTSc_NO_SPARE (c : Nat) : RegField := ⟨RAS_CLU_SLOTSc c, 31, 1⟩
/-- `RAS_CLU_SLOTSc.SPARE_USED`. -/
def RAS_CLU_SLOTSc_SPARE_USED (c : Nat) : RegField := ⟨RAS_CLU_SLOTSc c, 30, 1⟩
/-- `RAS_CLU_SLOTSc.WAITING`. -/
def RAS_CLU_SLOTSc_WAITING (c : Nat) : RegField := ⟨RAS_CLU_SLOTSc c, 0, 16⟩
/-- `RAS_D2Dk` (R526). -/
def RAS_D2Dk (k : Nat) : Nat := 0x300200 + 0x4 * k
/-- `RAS_D2Dk.SPARES_USED`. -/
def RAS_D2Dk_SPARES_USED (k : Nat) : RegField := ⟨RAS_D2Dk k, 0, 2⟩
/-- `PWR_CMD` (R555). -/
def PWR_CMD : Nat := 0x200000
/-- `PWR_CMD.OP`. -/
def PWR_CMD_OP : RegField := ⟨PWR_CMD, 0, 4⟩
/-- `PWR_CMD_STATUS` (R555). -/
def PWR_CMD_STATUS : Nat := 0x200004
/-- `PWR_CMD_STATUS.BUSY`. -/
def PWR_CMD_STATUS_BUSY : RegField := ⟨PWR_CMD_STATUS, 31, 1⟩
/-- `PWR_CMD_STATUS.CMD_ERR`. -/
def PWR_CMD_STATUS_CMD_ERR : RegField := ⟨PWR_CMD_STATUS, 30, 1⟩
/-- `PWR_CMD_STATUS.STATUS`. -/
def PWR_CMD_STATUS_STATUS : RegField := ⟨PWR_CMD_STATUS, 0, 8⟩
/-- `PWR_STATE` (R555). -/
def PWR_STATE : Nat := 0x200008
/-- `PWR_STATE.STATE`. -/
def PWR_STATE_STATE : RegField := ⟨PWR_STATE, 0, 3⟩
/-- `PWR_RESET_CAUSE` (R555). -/
def PWR_RESET_CAUSE : Nat := 0x20000c
/-- `PWR_RESET_CAUSE.WARM_MGT`. -/
def PWR_RESET_CAUSE_WARM_MGT : RegField := ⟨PWR_RESET_CAUSE, 8, 1⟩
/-- `PWR_RESET_CAUSE.WARM_CMD`. -/
def PWR_RESET_CAUSE_WARM_CMD : RegField := ⟨PWR_RESET_CAUSE, 7, 1⟩
/-- `PWR_RESET_CAUSE.WARM_PIN`. -/
def PWR_RESET_CAUSE_WARM_PIN : RegField := ⟨PWR_RESET_CAUSE, 6, 1⟩
/-- `PWR_RESET_CAUSE.THERMTRIP`. -/
def PWR_RESET_CAUSE_THERMTRIP : RegField := ⟨PWR_RESET_CAUSE, 5, 1⟩
/-- `PWR_RESET_CAUSE.KETTLE_LOSS`. -/
def PWR_RESET_CAUSE_KETTLE_LOSS : RegField := ⟨PWR_RESET_CAUSE, 4, 1⟩
/-- `PWR_RESET_CAUSE.BROWNOUT`. -/
def PWR_RESET_CAUSE_BROWNOUT : RegField := ⟨PWR_RESET_CAUSE, 3, 1⟩
/-- `PWR_RESET_CAUSE.COLD_PIN`. -/
def PWR_RESET_CAUSE_COLD_PIN : RegField := ⟨PWR_RESET_CAUSE, 2, 1⟩
/-- `PWR_RESET_CAUSE.POWER_ON`. -/
def PWR_RESET_CAUSE_POWER_ON : RegField := ⟨PWR_RESET_CAUSE, 0, 1⟩
/-- `PWR_CAP` (R555). -/
def PWR_CAP : Nat := 0x200010
/-- `PWR_CAP.WINDOW_MS`. -/
def PWR_CAP_WINDOW_MS : RegField := ⟨PWR_CAP, 16, 8⟩
/-- `PWR_CAP.CAP_W`. -/
def PWR_CAP_CAP_W : RegField := ⟨PWR_CAP, 0, 11⟩
/-- `PWR_EST` (R555). -/
def PWR_EST : Nat := 0x200014
/-- `PWR_EST.AVG_W`. -/
def PWR_EST_AVG_W : RegField := ⟨PWR_EST, 16, 16⟩
/-- `PWR_EST.NOW_W`. -/
def PWR_EST_NOW_W : RegField := ⟨PWR_EST, 0, 16⟩
/-- `PWR_THROTTLE` (R555). -/
def PWR_THROTTLE : Nat := 0x200018
/-- `PWR_THROTTLE.CAUSE`. -/
def PWR_THROTTLE_CAUSE : RegField := ⟨PWR_THROTTLE, 8, 4⟩
/-- `PWR_THROTTLE.CAP_UNMET`. -/
def PWR_THROTTLE_CAP_UNMET : RegField := ⟨PWR_THROTTLE, 7, 1⟩
/-- `PWR_THROTTLE.NOTCH`. -/
def PWR_THROTTLE_NOTCH : RegField := ⟨PWR_THROTTLE, 0, 3⟩
/-- `PWR_THROT_REQ` (R555). -/
def PWR_THROT_REQ : Nat := 0x20001c
/-- `PWR_THROT_REQ.DRV_NOTCH`. -/
def PWR_THROT_REQ_DRV_NOTCH : RegField := ⟨PWR_THROT_REQ, 0, 3⟩
/-- `PWR_BRAKE` (R555). -/
def PWR_BRAKE : Nat := 0x200020
/-- `PWR_BRAKE.ACTIVE`. -/
def PWR_BRAKE_ACTIVE : RegField := ⟨PWR_BRAKE, 8, 1⟩
/-- `PWR_BRAKE.BRAKE_NOTCH`. -/
def PWR_BRAKE_BRAKE_NOTCH : RegField := ⟨PWR_BRAKE, 0, 3⟩
/-- `PWR_BRAKE_COUNT` (R555). -/
def PWR_BRAKE_COUNT : Nat := 0x200024
/-- `PWR_BRAKE_COUNT.COUNT`. -/
def PWR_BRAKE_COUNT_COUNT : RegField := ⟨PWR_BRAKE_COUNT, 0, 32⟩
/-- `PWR_THERM_CTL` (R555). -/
def PWR_THERM_CTL : Nat := 0x200028
/-- `PWR_THERM_CTL.T_THROT`. -/
def PWR_THERM_CTL_T_THROT : RegField := ⟨PWR_THERM_CTL, 0, 8⟩
/-- `PWR_TEMP_MAX` (R555). -/
def PWR_TEMP_MAX : Nat := 0x20002c
/-- `PWR_TEMP_MAX.SENSOR`. -/
def PWR_TEMP_MAX_SENSOR : RegField := ⟨PWR_TEMP_MAX, 16, 8⟩
/-- `PWR_TEMP_MAX.TEMP`. -/
def PWR_TEMP_MAX_TEMP : RegField := ⟨PWR_TEMP_MAX, 0, 16⟩
/-- `PWR_THROT_TIME` (R555). -/
def PWR_THROT_TIME : Nat := 0x200030
/-- `PWR_THROT_TIME.COUNT`. -/
def PWR_THROT_TIME_COUNT : RegField := ⟨PWR_THROT_TIME, 0, 64⟩
/-- `PWR_TEMPi` (R555). -/
def PWR_TEMPi (i : Nat) : Nat := 0x200100 + 0x4 * i
/-- `PWR_TEMPi.TEMP`. -/
def PWR_TEMPi_TEMP (i : Nat) : RegField := ⟨PWR_TEMPi i, 0, 16⟩
/-- `BST_POST_STATUS` (R566). -/
def BST_POST_STATUS : Nat := 0x400000
/-- `BST_POST_STATUS.DONE`. -/
def BST_POST_STATUS_DONE : RegField := ⟨BST_POST_STATUS, 31, 1⟩
/-- `BST_POST_STATUS.FAIL`. -/
def BST_POST_STATUS_FAIL : RegField := ⟨BST_POST_STATUS, 30, 1⟩
/-- `BST_POST_STATUS.PASSED`. -/
def BST_POST_STATUS_PASSED : RegField := ⟨BST_POST_STATUS, 0, 8⟩
/-- `BST_FAIL_CODE` (R566). -/
def BST_FAIL_CODE : Nat := 0x400004
/-- `BST_FAIL_CODE.CODE`. -/
def BST_FAIL_CODE_CODE : RegField := ⟨BST_FAIL_CODE, 0, 32⟩
/-- `BST_TRANSIENT` (R566). -/
def BST_TRANSIENT : Nat := 0x400008
/-- `BST_TRANSIENT.COUNT`. -/
def BST_TRANSIENT_COUNT : RegField := ⟨BST_TRANSIENT, 0, 32⟩
/-- `BST_GROUPg` (R566). -/
def BST_GROUPg (g : Nat) : Nat := 0x400010 + 0x4 * g
/-- `BST_GROUPg.LASTING`. -/
def BST_GROUPg_LASTING (g : Nat) : RegField := ⟨BST_GROUPg g, 24, 8⟩
/-- `BST_GROUPg.TRANSIENT`. -/
def BST_GROUPg_TRANSIENT (g : Nat) : RegField := ⟨BST_GROUPg g, 16, 8⟩
/-- `BST_GROUPg.TIME_US`. -/
def BST_GROUPg_TIME_US (g : Nat) : RegField := ⟨BST_GROUPg g, 0, 16⟩
/-- `BST_SVC_CMD` (R566). -/
def BST_SVC_CMD : Nat := 0x400040
/-- `BST_SVC_CMD.INDEX`. -/
def BST_SVC_CMD_INDEX : RegField := ⟨BST_SVC_CMD, 16, 16⟩
/-- `BST_SVC_CMD.KIND`. -/
def BST_SVC_CMD_KIND : RegField := ⟨BST_SVC_CMD, 0, 4⟩
/-- `BST_SVC_STATUS` (R566). -/
def BST_SVC_STATUS : Nat := 0x400044
/-- `BST_SVC_STATUS.BUSY`. -/
def BST_SVC_STATUS_BUSY : RegField := ⟨BST_SVC_STATUS, 31, 1⟩
/-- `BST_SVC_STATUS.CMD_ERR`. -/
def BST_SVC_STATUS_CMD_ERR : RegField := ⟨BST_SVC_STATUS, 30, 1⟩
/-- `BST_SVC_STATUS.RESULT`. -/
def BST_SVC_STATUS_RESULT : RegField := ⟨BST_SVC_STATUS, 8, 8⟩
/-- `BST_SVC_STATUS.STATUS`. -/
def BST_SVC_STATUS_STATUS : RegField := ⟨BST_SVC_STATUS, 0, 8⟩
/-- `BST_SVC_DURATION` (R566). -/
def BST_SVC_DURATION : Nat := 0x400048
/-- `BST_SVC_DURATION.PRBS_MS`. -/
def BST_SVC_DURATION_PRBS_MS : RegField := ⟨BST_SVC_DURATION, 0, 16⟩
/-- `BST_SVC_CODE` (R566). -/
def BST_SVC_CODE : Nat := 0x40004c
/-- `BST_SVC_CODE.CODE`. -/
def BST_SVC_CODE_CODE : RegField := ⟨BST_SVC_CODE, 0, 32⟩
/-- `GLB_STRAPS` (R574). -/
def GLB_STRAPS : Nat := 0x40
/-- `GLB_STRAPS.SMB_ADDR`. -/
def GLB_STRAPS_SMB_ADDR : RegField := ⟨GLB_STRAPS, 6, 3⟩
/-- `GLB_STRAPS.LEADER`. -/
def GLB_STRAPS_LEADER : RegField := ⟨GLB_STRAPS, 5, 1⟩
/-- `GLB_STRAPS.CXL_EN`. -/
def GLB_STRAPS_CXL_EN : RegField := ⟨GLB_STRAPS, 4, 1⟩
/-- `GLB_STRAPS.SPLIT`. -/
def GLB_STRAPS_SPLIT : RegField := ⟨GLB_STRAPS, 0, 4⟩
/-- `MGT_STATUS` (R592). -/
def MGT_STATUS : Nat := 0x1900000
/-- `MGT_STATUS.EID`. -/
def MGT_STATUS_EID : RegField := ⟨MGT_STATUS, 16, 8⟩
/-- `MGT_STATUS.TID`. -/
def MGT_STATUS_TID : RegField := ⟨MGT_STATUS, 8, 8⟩
/-- `MGT_STATUS.ALERT`. -/
def MGT_STATUS_ALERT : RegField := ⟨MGT_STATUS, 2, 1⟩
/-- `MGT_STATUS.EID_SET`. -/
def MGT_STATUS_EID_SET : RegField := ⟨MGT_STATUS, 1, 1⟩
/-- `MGT_CTL` (R592). -/
def MGT_CTL : Nat := 0x1900004
/-- `MGT_CTL.RESET_EN`. -/
def MGT_CTL_RESET_EN : RegField := ⟨MGT_CTL, 0, 1⟩
/-- `MGT_PEC_ERR` (R592). -/
def MGT_PEC_ERR : Nat := 0x1900008
/-- `MGT_PEC_ERR.COUNT`. -/
def MGT_PEC_ERR_COUNT : RegField := ⟨MGT_PEC_ERR, 0, 32⟩
/-- `MGT_EVENT_DROP` (R592). -/
def MGT_EVENT_DROP : Nat := 0x190000c
/-- `MGT_EVENT_DROP.COUNT`. -/
def MGT_EVENT_DROP_COUNT : RegField := ⟨MGT_EVENT_DROP, 0, 32⟩
/-- `MGT_REQ_COUNT` (R592). -/
def MGT_REQ_COUNT : Nat := 0x1900010
/-- `MGT_REQ_COUNT.COUNT`. -/
def MGT_REQ_COUNT_COUNT : RegField := ⟨MGT_REQ_COUNT, 0, 32⟩
/-- `GLB_ID` (R2). -/
def GLB_ID : Nat := 0x0
/-- `GLB_ID.PART`. -/
def GLB_ID_PART : RegField := ⟨GLB_ID, 16, 16⟩
/-- `GLB_ID.STEPPING`. -/
def GLB_ID_STEPPING : RegField := ⟨GLB_ID, 8, 8⟩
/-- `GLB_ID.GRADE`. -/
def GLB_ID_GRADE : RegField := ⟨GLB_ID, 4, 4⟩

end Reg

/-- Rows 0 up of the register map: IMG_CTL to MEM_EPOCH_COUNT. -/
def regRows0 : List RegDef := [
  ⟨0x100000, 1, 0x0, 1, 0x0, false,
    [⟨2, 1, .wo, 0, true, none⟩, ⟨1, 1, .wo, 0, true, none⟩, ⟨0, 1, .wo, 0, true, none⟩]⟩,
  ⟨0x100004, 1, 0x0, 1, 0x0, false,
    [⟨24, 8, .ro, 0, false, none⟩, ⟨16, 8, .ro, 0, false, none⟩, ⟨8, 8, .ro, 0, false, none⟩, ⟨7, 1, .w1c, 0, false, none⟩, ⟨6, 1, .w1c, 0, false, none⟩, ⟨0, 3, .ro, 0, false, none⟩]⟩,
  ⟨0x100008, 1, 0x0, 1, 0x0, true,
    [⟨0, 64, .rw, 0, false, none⟩]⟩,
  ⟨0x100010, 1, 0x0, 1, 0x0, false,
    [⟨0, 32, .rw, 0, false, none⟩]⟩,
  ⟨0x100014, 1, 0x0, 1, 0x0, false,
    [⟨0, 1, .w1s, 0, false, none⟩]⟩,
  ⟨0x100018, 1, 0x0, 1, 0x0, false,
    [⟨0, 32, .rw, 10000, false, some (1000, 1000000)⟩]⟩,
  ⟨0x8, 1, 0x0, 1, 0x0, false,
    [⟨0, 32, .ro, 0, false, none⟩]⟩,
  ⟨0x10, 8, 0x4, 1, 0x0, false,
    [⟨0, 32, .ro, 0, false, none⟩]⟩,
  ⟨0x30, 1, 0x0, 1, 0x0, false,
    [⟨8, 9, .ro, 0, false, none⟩, ⟨1, 1, .ro, 0, false, none⟩, ⟨0, 1, .ro, 0, false, none⟩]⟩,
  ⟨0x38, 1, 0x0, 1, 0x0, true,
    [⟨0, 64, .ro, 0, false, none⟩]⟩,
  ⟨0x2000000, 32, 0x100000, 1, 0x0, false,
    [⟨0, 32, .ro, 0, false, none⟩]⟩,
  ⟨0x2000004, 32, 0x100000, 1, 0x0, false,
    [⟨0, 16, .w1s, 0, true, none⟩]⟩,
  ⟨0x2000008, 32, 0x100000, 1, 0x0, false,
    [⟨0, 32, .rw, 0, false, none⟩]⟩,
  ⟨0x2000100, 32, 0x100000, 16, 0x8, true,
    [⟨56, 8, .ro, 0, false, none⟩, ⟨43, 13, .ro, 0, false, none⟩, ⟨0, 40, .ro, 0, false, none⟩]⟩,
  ⟨0x2000200, 32, 0x100000, 16, 0x8, true,
    [⟨0, 64, .rc, 0, false, none⟩]⟩,
  ⟨0x2000300, 32, 0x100000, 1, 0x0, true,
    [⟨0, 64, .rc, 0, false, none⟩]⟩,
  ⟨0x2000308, 32, 0x100000, 1, 0x0, false,
    [⟨0, 32, .rc, 0, false, none⟩]⟩,
  ⟨0x200030c, 32, 0x100000, 1, 0x0, false,
    [⟨0, 32, .rc, 0, false, none⟩]⟩,
  ⟨0x1000000, 1, 0x0, 1, 0x0, false,
    [⟨0, 32, .rw, 0, false, none⟩]⟩,
  ⟨0x1000004, 1, 0x0, 1, 0x0, false,
    [⟨0, 32, .ro, 0, false, none⟩]⟩]

/-- Rows 20 up of the register map: MEM_SCRUB_CTL to XDU_REMOTE_INd. -/
def regRows1 : List RegDef := [
  ⟨0x1000008, 1, 0x0, 1, 0x0, false,
    [⟨0, 8, .rw, 24, false, some (1, 168)⟩]⟩,
  ⟨0x100000c, 1, 0x0, 1, 0x0, false,
    [⟨0, 32, .ro, 0, false, none⟩]⟩,
  ⟨0x1000010, 1, 0x0, 1, 0x0, true,
    [⟨21, 21, .rw, 0, false, none⟩]⟩,
  ⟨0x1000018, 1, 0x0, 1, 0x0, false,
    [⟨8, 16, .wo, 0, true, none⟩, ⟨0, 2, .wo, 0, true, none⟩]⟩,
  ⟨0x100001c, 1, 0x0, 1, 0x0, false,
    [⟨31, 1, .ro, 0, false, none⟩, ⟨30, 1, .w1c, 0, false, none⟩, ⟨0, 8, .ro, 0, false, none⟩]⟩,
  ⟨0x1001000, 32, 0x40, 1, 0x0, false,
    [⟨16, 16, .rw, 2048, false, none⟩, ⟨0, 16, .rw, 128, false, none⟩]⟩,
  ⟨0x1001004, 32, 0x40, 1, 0x0, false,
    [⟨16, 8, .rw, 4, false, none⟩, ⟨8, 4, .rw, 2, false, some (1, 8)⟩]⟩,
  ⟨0x1001008, 32, 0x40, 1, 0x0, true,
    [⟨40, 20, .ro, 0, false, none⟩, ⟨20, 20, .ro, 0, false, none⟩, ⟨0, 20, .ro, 0, false, none⟩]⟩,
  ⟨0x1001010, 32, 0x40, 1, 0x0, false,
    [⟨0, 32, .rc, 0, false, none⟩]⟩,
  ⟨0x1001014, 32, 0x40, 1, 0x0, false,
    [⟨0, 32, .rc, 0, false, none⟩]⟩,
  ⟨0x1001018, 32, 0x40, 1, 0x0, false,
    [⟨0, 32, .rc, 0, false, none⟩]⟩,
  ⟨0x100101c, 32, 0x40, 1, 0x0, false,
    [⟨0, 32, .rc, 0, false, none⟩]⟩,
  ⟨0xf00000, 1, 0x0, 1, 0x0, false,
    [⟨0, 32, .rw, 100000, false, none⟩]⟩,
  ⟨0xf00004, 1, 0x0, 1, 0x0, false,
    [⟨0, 16, .rw, 0, false, none⟩]⟩,
  ⟨0xf00010, 8, 0x4, 1, 0x0, false,
    [⟨0, 32, .ro, 0, false, none⟩]⟩,
  ⟨0xf01000, 4, 0x100, 1, 0x0, false,
    [⟨16, 16, .ro, 0, false, none⟩, ⟨0, 7, .ro, 0, false, none⟩]⟩,
  ⟨0xf01004, 4, 0x100, 1, 0x0, false,
    [⟨0, 32, .rc, 0, false, none⟩]⟩,
  ⟨0xf01008, 4, 0x100, 1, 0x0, false,
    [⟨0, 32, .rc, 0, false, none⟩]⟩,
  ⟨0xf0100c, 4, 0x100, 1, 0x0, false,
    [⟨0, 32, .rc, 0, false, none⟩]⟩,
  ⟨0xf01010, 4, 0x100, 1, 0x0, false,
    [⟨0, 32, .rc, 0, false, none⟩]⟩]

/-- Rows 40 up of the register map: XDU_KILLEDd to ONF_EPOCH_DROP. -/
def regRows2 : List RegDef := [
  ⟨0xf01014, 4, 0x100, 1, 0x0, false,
    [⟨0, 32, .rc, 0, false, none⟩]⟩,
  ⟨0xf01018, 4, 0x100, 1, 0x0, false,
    [⟨0, 32, .rc, 0, false, none⟩]⟩,
  ⟨0xf0101c, 4, 0x100, 1, 0x0, false,
    [⟨0, 32, .rc, 0, false, none⟩]⟩,
  ⟨0xf01020, 4, 0x100, 1, 0x0, false,
    [⟨0, 32, .rc, 0, false, none⟩]⟩,
  ⟨0xf08000, 4096, 0x4, 1, 0x0, false,
    [⟨0, 32, .ro, 0, false, none⟩]⟩,
  ⟨0xd00000, 1, 0x0, 1, 0x0, false,
    [⟨31, 1, .ro, 0, false, none⟩, ⟨16, 6, .ro, 0, false, none⟩, ⟨8, 7, .ro, 1, false, none⟩, ⟨0, 6, .ro, 0, false, none⟩]⟩,
  ⟨0xd00008, 1, 0x0, 1, 0x0, true,
    [⟨0, 64, .ro, 0, false, none⟩]⟩,
  ⟨0xd00010, 1, 0x0, 1, 0x0, false,
    [⟨0, 8, .ro, 0, false, none⟩]⟩,
  ⟨0xd00014, 1, 0x0, 1, 0x0, false,
    [⟨0, 32, .rc, 0, false, none⟩]⟩,
  ⟨0xd00018, 1, 0x0, 1, 0x0, false,
    [⟨16, 16, .ro, 0, false, none⟩, ⟨5, 1, .ro, 0, false, none⟩, ⟨4, 1, .ro, 0, false, none⟩, ⟨2, 2, .ro, 0, false, none⟩, ⟨0, 2, .ro, 0, false, none⟩]⟩,
  ⟨0xd0001c, 1, 0x0, 1, 0x0, false,
    [⟨2, 1, .wo, 0, true, none⟩, ⟨0, 2, .rw, 0, false, none⟩]⟩,
  ⟨0xd00020, 1, 0x0, 1, 0x0, true,
    [⟨0, 64, .ro, 0, false, none⟩]⟩,
  ⟨0xd00028, 1, 0x0, 1, 0x0, true,
    [⟨0, 64, .rw, 0, true, none⟩]⟩,
  ⟨0xd00030, 1, 0x0, 1, 0x0, true,
    [⟨0, 64, .wo, 0, true, none⟩]⟩,
  ⟨0xd00038, 1, 0x0, 1, 0x0, false,
    [⟨16, 16, .rw, 1024, false, some (16, 65535)⟩, ⟨6, 10, .rw, 0, false, none⟩, ⟨1, 5, .rw, 6, false, some (6, 16)⟩, ⟨0, 1, .rw, 0, false, none⟩]⟩,
  ⟨0xd00040, 1, 0x0, 1, 0x0, true,
    [⟨0, 64, .rw, 0, false, none⟩]⟩,
  ⟨0xd00048, 1, 0x0, 1, 0x0, true,
    [⟨0, 64, .rw, 0, false, none⟩]⟩,
  ⟨0xd00050, 1, 0x0, 1, 0x0, false,
    [⟨0, 32, .rw, 0, false, none⟩]⟩,
  ⟨0xd00054, 1, 0x0, 1, 0x0, false,
    [⟨0, 32, .rc, 0, false, none⟩]⟩,
  ⟨0xd00058, 1, 0x0, 1, 0x0, false,
    [⟨0, 32, .rc, 0, false, none⟩]⟩]

/-- Rows 60 up of the register map: ONF_EPOCH_BAD to SMV_GRP_STATE. -/
def regRows3 : List RegDef := [
  ⟨0xd0005c, 1, 0x0, 1, 0x0, false,
    [⟨0, 32, .rc, 0, false, none⟩]⟩,
  ⟨0xd00060, 1, 0x0, 1, 0x0, false,
    [⟨0, 32, .rc, 0, false, none⟩]⟩,
  ⟨0xd00064, 1, 0x0, 1, 0x0, false,
    [⟨0, 32, .rc, 0, false, none⟩]⟩,
  ⟨0xd00068, 1, 0x0, 1, 0x0, false,
    [⟨0, 32, .rc, 0, false, none⟩]⟩,
  ⟨0xd0006c, 1, 0x0, 1, 0x0, false,
    [⟨0, 32, .rc, 0, false, none⟩]⟩,
  ⟨0xd01000, 64, 0x40, 1, 0x0, false,
    [⟨24, 6, .ro, 0, false, none⟩, ⟨16, 6, .ro, 0, false, none⟩, ⟨12, 4, .ro, 0, false, none⟩, ⟨11, 1, .w1c, 0, false, none⟩, ⟨8, 3, .ro, 0, false, none⟩, ⟨0, 4, .ro, 0, false, none⟩]⟩,
  ⟨0xd01004, 64, 0x40, 1, 0x0, false,
    [⟨1, 1, .w1s, 0, true, none⟩, ⟨0, 1, .rw, 0, true, none⟩]⟩,
  ⟨0xd01008, 64, 0x40, 1, 0x0, false,
    [⟨16, 16, .ro, 0, false, none⟩, ⟨0, 16, .ro, 0, false, none⟩]⟩,
  ⟨0xd0100c, 64, 0x40, 1, 0x0, false,
    [⟨0, 32, .rc, 0, false, none⟩]⟩,
  ⟨0xd01010, 64, 0x40, 1, 0x0, false,
    [⟨0, 32, .rc, 0, false, none⟩]⟩,
  ⟨0xd01014, 64, 0x40, 1, 0x0, false,
    [⟨0, 32, .rc, 0, false, none⟩]⟩,
  ⟨0xd01018, 64, 0x40, 1, 0x0, false,
    [⟨0, 32, .rc, 0, false, none⟩]⟩,
  ⟨0xd0101c, 64, 0x40, 1, 0x0, false,
    [⟨0, 32, .rc, 0, false, none⟩]⟩,
  ⟨0xd01020, 64, 0x40, 1, 0x0, false,
    [⟨0, 32, .rc, 0, false, none⟩]⟩,
  ⟨0xe00000, 1, 0x0, 1, 0x0, false,
    [⟨0, 32, .rw, 0, false, none⟩]⟩,
  ⟨0xe00004, 1, 0x0, 1, 0x0, false,
    [⟨8, 8, .wo, 0, true, none⟩, ⟨1, 1, .wo, 0, true, none⟩, ⟨0, 1, .wo, 0, true, none⟩]⟩,
  ⟨0xe00008, 1, 0x0, 1, 0x0, false,
    [⟨8, 1, .rw, 0, false, none⟩, ⟨0, 8, .rw, 0, false, none⟩]⟩,
  ⟨0xe0000c, 1, 0x0, 1, 0x0, false,
    [⟨0, 1, .wo, 0, true, none⟩]⟩,
  ⟨0xe00010, 1, 0x0, 1, 0x0, false,
    [⟨0, 8, .rw, 0, false, none⟩]⟩,
  ⟨0xe00014, 1, 0x0, 1, 0x0, false,
    [⟨8, 5, .ro, 0, false, none⟩, ⟨0, 3, .ro, 0, false, none⟩]⟩]

/-- Rows 80 up of the register map: SMV_GRP_SEQ to HIF_CXL_REGION. -/
def regRows4 : List RegDef := [
  ⟨0xe00018, 1, 0x0, 1, 0x0, false,
    [⟨0, 32, .ro, 0, false, none⟩]⟩,
  ⟨0xe00800, 64, 0x8, 1, 0x0, true,
    [⟨32, 32, .ro, 0, false, none⟩, ⟨0, 32, .ro, 0, false, none⟩]⟩,
  ⟨0xe01000, 4, 0x100, 1, 0x0, false,
    [⟨0, 5, .ro, 0, false, none⟩]⟩,
  ⟨0xe01004, 4, 0x100, 1, 0x0, false,
    [⟨0, 32, .rc, 0, false, none⟩]⟩,
  ⟨0xe01008, 4, 0x100, 1, 0x0, false,
    [⟨0, 32, .rc, 0, false, none⟩]⟩,
  ⟨0xe0100c, 4, 0x100, 1, 0x0, false,
    [⟨0, 32, .rc, 0, false, none⟩]⟩,
  ⟨0xe01010, 4, 0x100, 1, 0x0, false,
    [⟨0, 32, .rc, 0, false, none⟩]⟩,
  ⟨0x800000, 1, 0x0, 1, 0x0, false,
    [⟨16, 16, .wo, 0, true, none⟩, ⟨0, 4, .wo, 0, true, none⟩]⟩,
  ⟨0x800004, 1, 0x0, 1, 0x0, false,
    [⟨31, 1, .ro, 0, false, none⟩, ⟨30, 1, .w1c, 0, false, none⟩, ⟨0, 8, .ro, 0, false, none⟩]⟩,
  ⟨0x800008, 1, 0x0, 1, 0x0, false,
    [⟨0, 2, .rw, 0, false, none⟩]⟩,
  ⟨0x800010, 1, 0x0, 1, 0x0, true,
    [⟨48, 16, .ro, 0, false, none⟩, ⟨16, 32, .ro, 0, false, none⟩, ⟨8, 8, .ro, 0, false, none⟩, ⟨0, 1, .ro, 0, false, none⟩]⟩,
  ⟨0x800018, 1, 0x0, 1, 0x0, false,
    [⟨0, 32, .rc, 0, false, none⟩]⟩,
  ⟨0x80001c, 1, 0x0, 1, 0x0, false,
    [⟨0, 32, .rc, 0, false, none⟩]⟩,
  ⟨0x800020, 1, 0x0, 1, 0x0, false,
    [⟨0, 32, .rc, 0, false, none⟩]⟩,
  ⟨0x800024, 1, 0x0, 1, 0x0, false,
    [⟨0, 32, .rc, 0, false, none⟩]⟩,
  ⟨0x800040, 16, 0x4, 1, 0x0, false,
    [⟨0, 32, .rw, 0, false, none⟩]⟩,
  ⟨0x800100, 9, 0x4, 1, 0x0, false,
    [⟨0, 32, .rw, 0, false, none⟩]⟩,
  ⟨0x700000, 1, 0x0, 1, 0x0, false,
    [⟨8, 4, .ro, 0, false, none⟩, ⟨0, 1, .ro, 0, false, none⟩]⟩,
  ⟨0x700004, 1, 0x0, 1, 0x0, false,
    [⟨0, 32, .rw, 50000, false, some (1000, 4000000)⟩]⟩,
  ⟨0x700008, 1, 0x0, 1, 0x0, false,
    [⟨8, 1, .rwl, 0, false, none⟩, ⟨0, 8, .rwl, 0, false, none⟩]⟩]

/-- Rows 100 up of the register map: HIF_LINKk_STATUS to ETH_PORTp_CTL. -/
def regRows5 : List RegDef := [
  ⟨0x700100, 8, 0x20, 1, 0x0, false,
    [⟨17, 1, .ro, 0, false, none⟩, ⟨16, 1, .ro, 0, false, none⟩, ⟨8, 5, .ro, 0, false, none⟩, ⟨4, 3, .ro, 0, false, none⟩, ⟨0, 3, .ro, 0, false, none⟩]⟩,
  ⟨0x700104, 8, 0x20, 1, 0x0, false,
    [⟨0, 1, .w1s, 0, true, none⟩]⟩,
  ⟨0x700108, 8, 0x20, 1, 0x0, false,
    [⟨0, 32, .rc, 0, false, none⟩]⟩,
  ⟨0x70010c, 8, 0x20, 1, 0x0, false,
    [⟨0, 32, .rc, 0, false, none⟩]⟩,
  ⟨0x700110, 8, 0x20, 1, 0x0, false,
    [⟨0, 32, .rc, 0, false, none⟩]⟩,
  ⟨0x700114, 8, 0x20, 1, 0x0, false,
    [⟨0, 32, .rc, 0, false, none⟩]⟩,
  ⟨0x700118, 8, 0x20, 1, 0x0, false,
    [⟨0, 32, .rc, 0, false, none⟩]⟩,
  ⟨0x701000, 8, 0x800, 255, 0x8, true,
    [⟨32, 32, .rw, 0, false, none⟩, ⟨0, 32, .rw, 0, false, none⟩]⟩,
  ⟨0xb00000, 1, 0x0, 1, 0x0, false,
    [⟨0, 4, .rwl, 15, true, none⟩, ⟨4, 4, .rwl, 15, true, none⟩, ⟨8, 4, .rwl, 15, true, none⟩, ⟨12, 4, .rwl, 15, true, none⟩]⟩,
  ⟨0xb00004, 1, 0x0, 1, 0x0, false,
    [⟨0, 20, .rwl, 196608, false, some (65536, 327680)⟩]⟩,
  ⟨0xb00008, 1, 0x0, 1, 0x0, false,
    [⟨0, 10, .rw, 0, false, none⟩]⟩,
  ⟨0xb0000c, 1, 0x0, 1, 0x0, false,
    [⟨1, 1, .wo, 0, true, none⟩, ⟨0, 1, .wo, 0, true, none⟩]⟩,
  ⟨0xb00040, 16, 0x4, 1, 0x0, false,
    [⟨0, 32, .rw, 0, false, none⟩]⟩,
  ⟨0xb00100, 1, 0x0, 1, 0x0, true,
    [⟨0, 64, .ro, 0, false, none⟩]⟩,
  ⟨0xb00108, 1, 0x0, 1, 0x0, false,
    [⟨0, 32, .rw, 167772160, false, none⟩]⟩,
  ⟨0xb00110, 1, 0x0, 1, 0x0, true,
    [⟨0, 64, .wo, 0, true, none⟩]⟩,
  ⟨0xb00200, 1, 0x0, 1, 0x0, false,
    [⟨0, 12, .rw, 0, false, none⟩]⟩,
  ⟨0xb00204, 1, 0x0, 1, 0x0, false,
    [⟨1, 1, .wo, 0, true, none⟩, ⟨0, 1, .wo, 0, true, none⟩]⟩,
  ⟨0xb00220, 8, 0x4, 1, 0x0, false,
    [⟨0, 32, .rw, 0, false, none⟩]⟩,
  ⟨0xb01000, 32, 0x100, 1, 0x0, false,
    [⟨20, 2, .rw, 0, false, none⟩, ⟨19, 1, .rw, 0, false, none⟩, ⟨18, 1, .rwl, 0, false, none⟩, ⟨16, 2, .rwl, 0, false, none⟩, ⟨15, 1, .rwl, 0, false, none⟩, ⟨0, 14, .rwl, 9216, false, some (1518, 9216)⟩]⟩]

/-- Rows 120 up of the register map: ETH_PORTp_STATUS to ETH_PORTp_FC_IGNORED. -/
def regRows6 : List RegDef := [
  ⟨0xb01004, 32, 0x100, 1, 0x0, false,
    [⟨8, 8, .ro, 0, false, none⟩, ⟨0, 3, .ro, 0, false, none⟩]⟩,
  ⟨0xb01008, 32, 0x100, 1, 0x0, true,
    [⟨0, 48, .rw, 0, false, none⟩]⟩,
  ⟨0xb01010, 32, 0x100, 1, 0x0, true,
    [⟨0, 64, .rc, 0, false, none⟩]⟩,
  ⟨0xb01018, 32, 0x100, 1, 0x0, true,
    [⟨0, 64, .rc, 0, false, none⟩]⟩,
  ⟨0xb01020, 32, 0x100, 1, 0x0, false,
    [⟨0, 32, .rc, 0, false, none⟩]⟩,
  ⟨0xb01024, 32, 0x100, 1, 0x0, false,
    [⟨0, 32, .rc, 0, false, none⟩]⟩,
  ⟨0xb01028, 32, 0x100, 1, 0x0, false,
    [⟨0, 32, .rc, 0, false, none⟩]⟩,
  ⟨0xb0102c, 32, 0x100, 1, 0x0, false,
    [⟨0, 32, .rc, 0, false, none⟩]⟩,
  ⟨0xb01030, 32, 0x100, 1, 0x0, false,
    [⟨0, 32, .rc, 0, false, none⟩]⟩,
  ⟨0xb01034, 32, 0x100, 1, 0x0, false,
    [⟨0, 32, .rc, 0, false, none⟩]⟩,
  ⟨0xb01038, 32, 0x100, 1, 0x0, false,
    [⟨0, 32, .rc, 0, false, none⟩]⟩,
  ⟨0xb0103c, 32, 0x100, 1, 0x0, false,
    [⟨0, 32, .rc, 0, false, none⟩]⟩,
  ⟨0xb01040, 32, 0x100, 1, 0x0, false,
    [⟨0, 32, .rc, 0, false, none⟩]⟩,
  ⟨0xb01044, 32, 0x100, 1, 0x0, false,
    [⟨0, 32, .rc, 0, false, none⟩]⟩,
  ⟨0xb01048, 32, 0x100, 1, 0x0, false,
    [⟨0, 32, .rc, 0, false, none⟩]⟩,
  ⟨0xb0104c, 32, 0x100, 1, 0x0, false,
    [⟨0, 32, .rc, 0, false, none⟩]⟩,
  ⟨0xb01050, 32, 0x100, 1, 0x0, false,
    [⟨0, 32, .rc, 0, false, none⟩]⟩,
  ⟨0xb01054, 32, 0x100, 1, 0x0, false,
    [⟨0, 32, .rc, 0, false, none⟩]⟩,
  ⟨0xb01058, 32, 0x100, 1, 0x0, false,
    [⟨0, 32, .rc, 0, false, none⟩]⟩,
  ⟨0xb0105c, 32, 0x100, 1, 0x0, false,
    [⟨0, 32, .rc, 0, false, none⟩]⟩]

/-- Rows 140 up of the register map: ETH_PORTp_FEC_CORR to QPE_CMD. -/
def regRows7 : List RegDef := [
  ⟨0xb01060, 32, 0x100, 1, 0x0, false,
    [⟨0, 32, .rc, 0, false, none⟩]⟩,
  ⟨0xb01064, 32, 0x100, 1, 0x0, false,
    [⟨0, 32, .rc, 0, false, none⟩]⟩,
  ⟨0xb01068, 32, 0x100, 1, 0x0, false,
    [⟨0, 32, .rc, 0, false, none⟩]⟩,
  ⟨0xb01070, 32, 0x100, 1, 0x0, true,
    [⟨63, 1, .rc, 0, false, none⟩, ⟨48, 15, .rc, 0, false, none⟩, ⟨0, 48, .rc, 0, false, none⟩]⟩,
  ⟨0xb01080, 32, 0x100, 8, 0x8, true,
    [⟨48, 16, .rwl, 0, false, none⟩, ⟨32, 16, .rwl, 4096, false, none⟩, ⟨16, 16, .rwl, 3840, false, none⟩, ⟨0, 16, .rwl, 2048, false, none⟩]⟩,
  ⟨0xb010c0, 32, 0x100, 8, 0x4, false,
    [⟨0, 3, .rw, 0, false, none⟩, ⟨4, 3, .rw, 0, false, none⟩, ⟨8, 3, .rw, 0, false, none⟩, ⟨12, 3, .rw, 0, false, none⟩, ⟨16, 3, .rw, 0, false, none⟩, ⟨20, 3, .rw, 0, false, none⟩, ⟨24, 3, .rw, 0, false, none⟩, ⟨28, 3, .rw, 0, false, none⟩]⟩,
  ⟨0xc00000, 1, 0x0, 1, 0x0, false,
    [⟨6, 10, .rw, 0, false, none⟩, ⟨1, 4, .rw, 4, false, some (4, 12)⟩, ⟨0, 1, .rw, 0, false, none⟩]⟩,
  ⟨0xc00008, 1, 0x0, 1, 0x0, true,
    [⟨0, 64, .rw, 0, false, none⟩]⟩,
  ⟨0xc00010, 1, 0x0, 1, 0x0, true,
    [⟨0, 64, .rw, 0, false, none⟩]⟩,
  ⟨0xc00018, 1, 0x0, 1, 0x0, false,
    [⟨0, 32, .rw, 0, false, none⟩]⟩,
  ⟨0xc0001c, 1, 0x0, 1, 0x0, false,
    [⟨0, 32, .rc, 0, false, none⟩]⟩,
  ⟨0xc00020, 1, 0x0, 1, 0x0, false,
    [⟨0, 14, .rw, 0, false, none⟩]⟩,
  ⟨0xc00028, 1, 0x0, 1, 0x0, true,
    [⟨32, 32, .rc, 0, false, none⟩, ⟨0, 32, .rc, 0, false, none⟩]⟩,
  ⟨0xc00030, 1, 0x0, 1, 0x0, false,
    [⟨0, 32, .rc, 0, false, none⟩]⟩,
  ⟨0xc01000, 32, 0x40, 1, 0x0, false,
    [⟨4, 1, .w1c, 0, false, none⟩, ⟨3, 1, .ro, 0, false, none⟩, ⟨2, 1, .w1s, 0, true, none⟩, ⟨1, 1, .rw, 0, false, none⟩, ⟨0, 1, .rw, 1, false, none⟩]⟩,
  ⟨0xc01008, 32, 0x40, 1, 0x0, true,
    [⟨0, 64, .rw, 0, false, none⟩]⟩,
  ⟨0xc01010, 32, 0x40, 1, 0x0, false,
    [⟨16, 1, .ro, 0, false, none⟩, ⟨8, 8, .ro, 0, false, none⟩, ⟨0, 8, .ro, 255, false, none⟩]⟩,
  ⟨0xc01014, 32, 0x40, 1, 0x0, false,
    [⟨0, 16, .rw, 0, false, none⟩]⟩,
  ⟨0xc01018, 32, 0x40, 1, 0x0, false,
    [⟨0, 32, .rc, 0, false, none⟩]⟩,
  ⟨0xa00000, 1, 0x0, 1, 0x0, false,
    [⟨8, 24, .wo, 0, true, none⟩, ⟨0, 4, .wo, 0, true, none⟩]⟩]

/-- Rows 160 up of the register map: QPE_CMD_STATUS to QPE_TIMEOUTS. -/
def regRows8 : List RegDef := [
  ⟨0xa00004, 1, 0x0, 1, 0x0, false,
    [⟨31, 1, .ro, 0, false, none⟩, ⟨30, 1, .w1c, 0, false, none⟩, ⟨0, 8, .ro, 0, false, none⟩]⟩,
  ⟨0xa00008, 1, 0x0, 1, 0x0, false,
    [⟨0, 1, .w1s, 0, true, none⟩]⟩,
  ⟨0xa0000c, 1, 0x0, 1, 0x0, false,
    [⟨16, 8, .rw, 16, false, none⟩, ⟨0, 16, .rw, 2000, false, some (100, 65535)⟩]⟩,
  ⟨0xa00010, 1, 0x0, 1, 0x0, false,
    [⟨0, 16, .rw, 8, false, some (1, 1000)⟩]⟩,
  ⟨0xa00014, 1, 0x0, 1, 0x0, false,
    [⟨16, 16, .rw, 20, false, none⟩, ⟨0, 16, .rw, 50, false, some (10, 65535)⟩]⟩,
  ⟨0xa00018, 1, 0x0, 1, 0x0, false,
    [⟨16, 16, .rw, 50, false, none⟩, ⟨8, 3, .rw, 6, false, none⟩, ⟨0, 6, .rw, 48, false, none⟩]⟩,
  ⟨0xa0001c, 1, 0x0, 1, 0x0, false,
    [⟨16, 16, .rw, 50, false, none⟩, ⟨0, 16, .rw, 55, false, none⟩]⟩,
  ⟨0xa00020, 1, 0x0, 1, 0x0, false,
    [⟨16, 16, .rw, 100, false, none⟩, ⟨8, 4, .rw, 5, false, none⟩, ⟨0, 4, .rw, 8, false, some (1, 10)⟩]⟩,
  ⟨0xa00024, 1, 0x0, 1, 0x0, false,
    [⟨0, 32, .rw, 10485760, false, none⟩]⟩,
  ⟨0xa00028, 1, 0x0, 1, 0x0, false,
    [⟨0, 32, .rw, 50, false, none⟩]⟩,
  ⟨0xa0002c, 1, 0x0, 1, 0x0, false,
    [⟨0, 32, .rw, 500, false, none⟩]⟩,
  ⟨0xa00030, 1, 0x0, 1, 0x0, false,
    [⟨0, 32, .rw, 10, false, none⟩]⟩,
  ⟨0xa00034, 1, 0x0, 1, 0x0, false,
    [⟨0, 11, .rw, 512, false, none⟩]⟩,
  ⟨0xa00038, 1, 0x0, 1, 0x0, false,
    [⟨0, 1, .rw, 1, false, none⟩]⟩,
  ⟨0xa00040, 64, 0x4, 1, 0x0, false,
    [⟨0, 32, .rw, 0, false, none⟩]⟩,
  ⟨0xa00200, 1, 0x0, 1, 0x0, true,
    [⟨0, 64, .rc, 0, false, none⟩]⟩,
  ⟨0xa00208, 1, 0x0, 1, 0x0, true,
    [⟨0, 64, .rc, 0, false, none⟩]⟩,
  ⟨0xa00210, 1, 0x0, 1, 0x0, false,
    [⟨0, 15, .ro, 0, false, none⟩]⟩,
  ⟨0xa00214, 1, 0x0, 1, 0x0, false,
    [⟨0, 32, .rc, 0, false, none⟩]⟩,
  ⟨0xa00218, 1, 0x0, 1, 0x0, false,
    [⟨0, 32, .rc, 0, false, none⟩]⟩]

/-- Rows 180 up of the register map: QPE_DUP_PKTS to DTU_FENCE_COUNT. -/
def regRows9 : List RegDef := [
  ⟨0xa0021c, 1, 0x0, 1, 0x0, false,
    [⟨0, 32, .rc, 0, false, none⟩]⟩,
  ⟨0xa00220, 1, 0x0, 1, 0x0, false,
    [⟨0, 32, .rc, 0, false, none⟩]⟩,
  ⟨0xa00224, 1, 0x0, 1, 0x0, false,
    [⟨0, 32, .rc, 0, false, none⟩]⟩,
  ⟨0xa00228, 1, 0x0, 1, 0x0, false,
    [⟨0, 32, .rc, 0, false, none⟩]⟩,
  ⟨0xa0022c, 1, 0x0, 1, 0x0, false,
    [⟨0, 32, .rc, 0, false, none⟩]⟩,
  ⟨0xa00230, 1, 0x0, 1, 0x0, false,
    [⟨0, 32, .rc, 0, false, none⟩]⟩,
  ⟨0xa00234, 1, 0x0, 1, 0x0, false,
    [⟨0, 32, .rc, 0, false, none⟩]⟩,
  ⟨0xa00238, 1, 0x0, 1, 0x0, false,
    [⟨0, 32, .rc, 0, false, none⟩]⟩,
  ⟨0xa0023c, 1, 0x0, 1, 0x0, false,
    [⟨0, 32, .rc, 0, false, none⟩]⟩,
  ⟨0xa00240, 1, 0x0, 1, 0x0, false,
    [⟨0, 32, .rc, 0, false, none⟩]⟩,
  ⟨0xa00244, 1, 0x0, 1, 0x0, false,
    [⟨0, 32, .rc, 0, false, none⟩]⟩,
  ⟨0xa00248, 1, 0x0, 1, 0x0, false,
    [⟨0, 32, .rc, 0, false, none⟩]⟩,
  ⟨0xa0024c, 1, 0x0, 1, 0x0, false,
    [⟨0, 32, .rc, 0, false, none⟩]⟩,
  ⟨0xa00250, 1, 0x0, 1, 0x0, false,
    [⟨0, 32, .rc, 0, false, none⟩]⟩,
  ⟨0x900000, 1, 0x0, 1, 0x0, false,
    [⟨8, 24, .wo, 0, true, none⟩, ⟨0, 4, .wo, 0, true, none⟩]⟩,
  ⟨0x900004, 1, 0x0, 1, 0x0, false,
    [⟨31, 1, .ro, 0, false, none⟩, ⟨30, 1, .w1c, 0, false, none⟩, ⟨0, 8, .ro, 0, false, none⟩]⟩,
  ⟨0x900008, 1, 0x0, 1, 0x0, true,
    [⟨0, 64, .rw, 0, false, none⟩]⟩,
  ⟨0x900010, 1, 0x0, 1, 0x0, false,
    [⟨0, 17, .rw, 0, false, none⟩]⟩,
  ⟨0x900014, 1, 0x0, 1, 0x0, false,
    [⟨0, 7, .ro, 0, false, none⟩]⟩,
  ⟨0x900018, 1, 0x0, 1, 0x0, false,
    [⟨0, 32, .ro, 0, false, none⟩]⟩]

/-- Rows 200 up of the register map: DTU_FAULT_BASE to VFM_FNf_DRAIN_US. -/
def regRows10 : List RegDef := [
  ⟨0x900020, 1, 0x0, 1, 0x0, true,
    [⟨0, 64, .rw, 0, false, none⟩]⟩,
  ⟨0x900028, 1, 0x0, 1, 0x0, true,
    [⟨0, 64, .rw, 0, false, none⟩]⟩,
  ⟨0x900030, 1, 0x0, 1, 0x0, false,
    [⟨0, 32, .rw, 0, false, none⟩]⟩,
  ⟨0x900034, 1, 0x0, 1, 0x0, false,
    [⟨1, 5, .rw, 6, false, some (6, 16)⟩, ⟨0, 1, .rw, 0, false, none⟩]⟩,
  ⟨0x900038, 1, 0x0, 1, 0x0, false,
    [⟨0, 32, .rc, 0, false, none⟩]⟩,
  ⟨0x90003c, 1, 0x0, 1, 0x0, false,
    [⟨0, 32, .rc, 0, false, none⟩]⟩,
  ⟨0x900040, 1, 0x0, 1, 0x0, false,
    [⟨0, 32, .rc, 0, false, none⟩]⟩,
  ⟨0x900044, 1, 0x0, 1, 0x0, false,
    [⟨0, 32, .rc, 0, false, none⟩]⟩,
  ⟨0x900080, 8, 0x4, 1, 0x0, false,
    [⟨0, 32, .rw, 0, false, none⟩]⟩,
  ⟨0x1800000, 1, 0x0, 1, 0x0, false,
    [⟨16, 9, .wo, 0, true, none⟩, ⟨0, 4, .wo, 0, true, none⟩]⟩,
  ⟨0x1800004, 1, 0x0, 1, 0x0, false,
    [⟨31, 1, .ro, 0, false, none⟩, ⟨30, 1, .w1c, 0, false, none⟩, ⟨0, 8, .ro, 0, false, none⟩]⟩,
  ⟨0x1800008, 1, 0x0, 1, 0x0, true,
    [⟨0, 64, .rw, 0, false, none⟩]⟩,
  ⟨0x1800010, 1, 0x0, 1, 0x0, false,
    [⟨0, 32, .rw, 0, false, none⟩]⟩,
  ⟨0x1800014, 1, 0x0, 1, 0x0, false,
    [⟨0, 32, .ro, 0, false, none⟩]⟩,
  ⟨0x1800018, 1, 0x0, 1, 0x0, false,
    [⟨0, 32, .rc, 0, false, none⟩]⟩,
  ⟨0x1800020, 9, 0x4, 1, 0x0, false,
    [⟨0, 32, .ro, 0, false, none⟩]⟩,
  ⟨0x1800080, 8, 0x4, 1, 0x0, false,
    [⟨0, 32, .rw, 0, false, none⟩]⟩,
  ⟨0x1801200, 264, 0x400, 1, 0x0, false,
    [⟨19, 1, .ro, 0, false, none⟩, ⟨8, 5, .ro, 0, false, none⟩, ⟨0, 3, .ro, 0, false, none⟩]⟩,
  ⟨0x1801204, 264, 0x400, 1, 0x0, false,
    [⟨17, 1, .w1c, 0, false, none⟩, ⟨16, 1, .w1c, 0, false, none⟩, ⟨9, 1, .ro, 0, false, none⟩, ⟨8, 1, .ro, 0, false, none⟩, ⟨1, 1, .w1s, 0, true, none⟩, ⟨0, 1, .w1s, 0, true, none⟩]⟩,
  ⟨0x1801208, 264, 0x400, 1, 0x0, false,
    [⟨0, 32, .ro, 0, false, none⟩]⟩]

/-- Rows 220 up of the register map: VFM_FNf_FROZEN_DROP to SEC_IMAGE_PK_HASHi. -/
def regRows11 : List RegDef := [
  ⟨0x180120c, 264, 0x400, 1, 0x0, false,
    [⟨0, 32, .rc, 0, false, none⟩]⟩,
  ⟨0x600000, 1, 0x0, 1, 0x0, false,
    [⟨16, 14, .wo, 0, true, none⟩, ⟨0, 4, .wo, 0, true, none⟩]⟩,
  ⟨0x600004, 1, 0x0, 1, 0x0, false,
    [⟨31, 1, .ro, 0, false, none⟩, ⟨30, 1, .w1c, 0, false, none⟩, ⟨0, 8, .ro, 0, false, none⟩]⟩,
  ⟨0x600008, 1, 0x0, 1, 0x0, true,
    [⟨0, 64, .rw, 0, false, none⟩]⟩,
  ⟨0x600010, 1, 0x0, 1, 0x0, true,
    [⟨40, 24, .ro, 0, false, none⟩, ⟨24, 16, .ro, 0, false, none⟩, ⟨16, 8, .ro, 0, false, none⟩, ⟨8, 8, .ro, 0, false, none⟩, ⟨1, 3, .ro, 0, false, none⟩, ⟨0, 1, .ro, 0, false, none⟩]⟩,
  ⟨0x600018, 1, 0x0, 1, 0x0, false,
    [⟨24, 8, .rwl, 16, false, none⟩, ⟨16, 8, .rwl, 32, false, none⟩, ⟨8, 8, .rwl, 28, false, none⟩, ⟨0, 8, .rwl, 8, false, none⟩]⟩,
  ⟨0x60001c, 1, 0x0, 1, 0x0, false,
    [⟨0, 7, .ro, 96, false, none⟩]⟩,
  ⟨0x600020, 1, 0x0, 1, 0x0, false,
    [⟨0, 9, .ro, 0, false, none⟩]⟩,
  ⟨0x600024, 1, 0x0, 1, 0x0, false,
    [⟨0, 32, .rc, 0, false, none⟩]⟩,
  ⟨0x600028, 1, 0x0, 1, 0x0, false,
    [⟨0, 32, .rc, 0, false, none⟩]⟩,
  ⟨0x60002c, 1, 0x0, 1, 0x0, false,
    [⟨0, 32, .rc, 0, false, none⟩]⟩,
  ⟨0x600040, 4, 0x8, 1, 0x0, true,
    [⟨0, 64, .rc, 0, false, none⟩]⟩,
  ⟨0x500000, 1, 0x0, 1, 0x0, false,
    [⟨16, 7, .wo, 0, true, none⟩, ⟨0, 4, .wo, 0, true, none⟩]⟩,
  ⟨0x500004, 1, 0x0, 1, 0x0, false,
    [⟨31, 1, .ro, 0, false, none⟩, ⟨30, 1, .w1c, 0, false, none⟩, ⟨0, 8, .ro, 0, false, none⟩]⟩,
  ⟨0x500008, 1, 0x0, 1, 0x0, false,
    [⟨0, 7, .ro, 0, false, none⟩]⟩,
  ⟨0x50000c, 1, 0x0, 1, 0x0, false,
    [⟨0, 1, .ro, 0, false, none⟩]⟩,
  ⟨0x500010, 1, 0x0, 1, 0x0, false,
    [⟨0, 2, .ro, 1, false, none⟩]⟩,
  ⟨0x500018, 1, 0x0, 1, 0x0, true,
    [⟨0, 64, .ro, 0, false, none⟩]⟩,
  ⟨0x500020, 1, 0x0, 1, 0x0, true,
    [⟨0, 64, .rw, 0, false, none⟩]⟩,
  ⟨0x500040, 8, 0x4, 1, 0x0, false,
    [⟨0, 32, .ro, 0, false, none⟩]⟩]

/-- Rows 240 up of the register map: SEC_DEBUG_PK_HASHi to RAS_FENCED_DIE. -/
def regRows12 : List RegDef := [
  ⟨0x500060, 8, 0x4, 1, 0x0, false,
    [⟨0, 32, .ro, 0, false, none⟩]⟩,
  ⟨0x500080, 8, 0x4, 1, 0x0, false,
    [⟨0, 32, .ro, 0, false, none⟩]⟩,
  ⟨0x300000, 1, 0x0, 1, 0x0, false,
    [⟨1, 5, .rw, 6, false, some (6, 16)⟩, ⟨0, 1, .rw, 0, false, none⟩]⟩,
  ⟨0x300008, 1, 0x0, 1, 0x0, true,
    [⟨0, 64, .rw, 0, false, none⟩]⟩,
  ⟨0x300010, 1, 0x0, 1, 0x0, true,
    [⟨0, 64, .rw, 0, false, none⟩]⟩,
  ⟨0x300018, 1, 0x0, 1, 0x0, false,
    [⟨0, 32, .rw, 0, false, none⟩]⟩,
  ⟨0x30001c, 1, 0x0, 1, 0x0, false,
    [⟨0, 32, .rc, 0, false, none⟩]⟩,
  ⟨0x300020, 1, 0x0, 1, 0x0, false,
    [⟨0, 32, .ro, 0, false, none⟩]⟩,
  ⟨0x300024, 1, 0x0, 1, 0x0, false,
    [⟨0, 8, .rw, 0, false, none⟩]⟩,
  ⟨0x300040, 16, 0x4, 1, 0x0, false,
    [⟨0, 32, .ro, 0, false, none⟩]⟩,
  ⟨0x300080, 1, 0x0, 1, 0x0, true,
    [⟨0, 64, .rc, 0, false, none⟩]⟩,
  ⟨0x300088, 1, 0x0, 1, 0x0, false,
    [⟨0, 32, .rc, 0, false, none⟩]⟩,
  ⟨0x30008c, 1, 0x0, 1, 0x0, false,
    [⟨0, 32, .rc, 0, false, none⟩]⟩,
  ⟨0x300090, 1, 0x0, 1, 0x0, false,
    [⟨0, 32, .rc, 0, false, none⟩]⟩,
  ⟨0x300094, 1, 0x0, 1, 0x0, false,
    [⟨0, 32, .rc, 0, false, none⟩]⟩,
  ⟨0x300098, 1, 0x0, 1, 0x0, false,
    [⟨0, 32, .rc, 0, false, none⟩]⟩,
  ⟨0x3000a0, 1, 0x0, 1, 0x0, false,
    [⟨16, 16, .wo, 0, true, none⟩, ⟨0, 4, .wo, 0, true, none⟩]⟩,
  ⟨0x3000a4, 1, 0x0, 1, 0x0, false,
    [⟨0, 8, .rw, 4, false, none⟩]⟩,
  ⟨0x3000a8, 1, 0x0, 1, 0x0, false,
    [⟨0, 32, .ro, 0, false, none⟩]⟩,
  ⟨0x3000ac, 1, 0x0, 1, 0x0, false,
    [⟨0, 4, .ro, 0, false, none⟩]⟩]

/-- Rows 260 up of the register map: RAS_FENCED_HBMs to PWR_TEMPi. -/
def regRows13 : List RegDef := [
  ⟨0x3000b0, 8, 0x4, 1, 0x0, false,
    [⟨0, 16, .ro, 0, false, none⟩]⟩,
  ⟨0x3000d0, 1, 0x0, 1, 0x0, false,
    [⟨0, 16, .ro, 0, false, none⟩]⟩,
  ⟨0x3000d4, 1, 0x0, 1, 0x0, false,
    [⟨8, 8, .ro, 0, false, none⟩, ⟨0, 1, .ro, 0, false, none⟩]⟩,
  ⟨0x3000d8, 1, 0x0, 1, 0x0, false,
    [⟨0, 32, .ro, 0, false, none⟩]⟩,
  ⟨0x300100, 32, 0x4, 1, 0x0, false,
    [⟨31, 1, .ro, 0, false, none⟩, ⟨30, 1, .ro, 0, false, none⟩, ⟨0, 16, .ro, 0, false, none⟩]⟩,
  ⟨0x300200, 8, 0x4, 1, 0x0, false,
    [⟨0, 2, .ro, 0, false, none⟩]⟩,
  ⟨0x200000, 1, 0x0, 1, 0x0, false,
    [⟨0, 4, .wo, 0, true, none⟩]⟩,
  ⟨0x200004, 1, 0x0, 1, 0x0, false,
    [⟨31, 1, .ro, 0, false, none⟩, ⟨30, 1, .w1c, 0, false, none⟩, ⟨0, 8, .ro, 0, false, none⟩]⟩,
  ⟨0x200008, 1, 0x0, 1, 0x0, false,
    [⟨0, 3, .ro, 0, false, none⟩]⟩,
  ⟨0x20000c, 1, 0x0, 1, 0x0, false,
    [⟨8, 1, .w1c, 0, false, none⟩, ⟨7, 1, .w1c, 0, false, none⟩, ⟨6, 1, .w1c, 0, false, none⟩, ⟨5, 1, .w1c, 0, false, none⟩, ⟨4, 1, .w1c, 0, false, none⟩, ⟨3, 1, .w1c, 0, false, none⟩, ⟨2, 1, .w1c, 0, false, none⟩, ⟨0, 1, .w1c, 0, false, none⟩]⟩,
  ⟨0x200010, 1, 0x0, 1, 0x0, false,
    [⟨16, 8, .rw, 10, false, some (1, 100)⟩, ⟨0, 11, .rw, 1400, false, some (600, 1400)⟩]⟩,
  ⟨0x200014, 1, 0x0, 1, 0x0, false,
    [⟨16, 16, .ro, 0, false, none⟩, ⟨0, 16, .ro, 0, false, none⟩]⟩,
  ⟨0x200018, 1, 0x0, 1, 0x0, false,
    [⟨8, 4, .ro, 0, false, none⟩, ⟨7, 1, .w1c, 0, false, none⟩, ⟨0, 3, .ro, 0, false, none⟩]⟩,
  ⟨0x20001c, 1, 0x0, 1, 0x0, false,
    [⟨0, 3, .rw, 0, false, none⟩]⟩,
  ⟨0x200020, 1, 0x0, 1, 0x0, false,
    [⟨8, 1, .ro, 0, false, none⟩, ⟨0, 3, .rw, 5, false, none⟩]⟩,
  ⟨0x200024, 1, 0x0, 1, 0x0, false,
    [⟨0, 32, .rc, 0, false, none⟩]⟩,
  ⟨0x200028, 1, 0x0, 1, 0x0, false,
    [⟨0, 8, .rw, 100, false, some (85, 105)⟩]⟩,
  ⟨0x20002c, 1, 0x0, 1, 0x0, false,
    [⟨16, 8, .ro, 0, false, none⟩, ⟨0, 16, .ro, 0, false, none⟩]⟩,
  ⟨0x200030, 1, 0x0, 1, 0x0, true,
    [⟨0, 64, .rc, 0, false, none⟩]⟩,
  ⟨0x200100, 48, 0x4, 1, 0x0, false,
    [⟨0, 16, .ro, 0, false, none⟩]⟩]

/-- Rows 280 up of the register map: BST_POST_STATUS to GLB_ID. -/
def regRows14 : List RegDef := [
  ⟨0x400000, 1, 0x0, 1, 0x0, false,
    [⟨31, 1, .ro, 0, false, none⟩, ⟨30, 1, .ro, 0, false, none⟩, ⟨0, 8, .ro, 0, false, none⟩]⟩,
  ⟨0x400004, 1, 0x0, 1, 0x0, false,
    [⟨0, 32, .ro, 0, false, none⟩]⟩,
  ⟨0x400008, 1, 0x0, 1, 0x0, false,
    [⟨0, 32, .rc, 0, false, none⟩]⟩,
  ⟨0x400010, 8, 0x4, 1, 0x0, false,
    [⟨24, 8, .ro, 0, false, none⟩, ⟨16, 8, .ro, 0, false, none⟩, ⟨0, 16, .ro, 0, false, none⟩]⟩,
  ⟨0x400040, 1, 0x0, 1, 0x0, false,
    [⟨16, 16, .wo, 0, true, none⟩, ⟨0, 4, .wo, 0, true, none⟩]⟩,
  ⟨0x400044, 1, 0x0, 1, 0x0, false,
    [⟨31, 1, .ro, 0, false, none⟩, ⟨30, 1, .w1c, 0, false, none⟩, ⟨8, 8, .ro, 0, false, none⟩, ⟨0, 8, .ro, 0, false, none⟩]⟩,
  ⟨0x400048, 1, 0x0, 1, 0x0, false,
    [⟨0, 16, .rw, 10, false, some (1, 1000)⟩]⟩,
  ⟨0x40004c, 1, 0x0, 1, 0x0, false,
    [⟨0, 32, .ro, 0, false, none⟩]⟩,
  ⟨0x40, 1, 0x0, 1, 0x0, false,
    [⟨6, 3, .ro, 0, false, none⟩, ⟨5, 1, .ro, 0, false, none⟩, ⟨4, 1, .ro, 0, false, none⟩, ⟨0, 4, .ro, 0, false, none⟩]⟩,
  ⟨0x1900000, 1, 0x0, 1, 0x0, false,
    [⟨16, 8, .ro, 0, false, none⟩, ⟨8, 8, .ro, 0, false, none⟩, ⟨2, 1, .ro, 0, false, none⟩, ⟨1, 1, .ro, 0, false, none⟩]⟩,
  ⟨0x1900004, 1, 0x0, 1, 0x0, false,
    [⟨0, 1, .rw, 1, false, none⟩]⟩,
  ⟨0x1900008, 1, 0x0, 1, 0x0, false,
    [⟨0, 32, .rc, 0, false, none⟩]⟩,
  ⟨0x190000c, 1, 0x0, 1, 0x0, false,
    [⟨0, 32, .rc, 0, false, none⟩]⟩,
  ⟨0x1900010, 1, 0x0, 1, 0x0, false,
    [⟨0, 32, .rc, 0, false, none⟩]⟩,
  ⟨0x0, 1, 0x0, 1, 0x0, false,
    [⟨16, 16, .ro, 25600, false, none⟩, ⟨8, 8, .ro, 176, false, none⟩, ⟨4, 4, .ro, 1, false, none⟩]⟩]

/-- The register map of PF0's BAR0. -/
def regTable : List RegDef :=
  regRows0 ++
  regRows1 ++
  regRows2 ++
  regRows3 ++
  regRows4 ++
  regRows5 ++
  regRows6 ++
  regRows7 ++
  regRows8 ++
  regRows9 ++
  regRows10 ++
  regRows11 ++
  regRows12 ++
  regRows13 ++
  regRows14

end Sys2Proof.Machine
end

