-- ==== Sys2Proof/Machine/Ops.lean ====
section
/-! DEFINITION. The named operations that the meanings share: registers, image sections, memory. -/
namespace Sys2Proof.Machine
open Sys2Proof

/-- A meaning: what a command does to everything but the queue. -/
def onDev (s : State) (f : Dev → Dev) : Host.Outcome State Fault Refusal := .next { s with dev := f s.dev }

/-- Send something out. -/
def Dev.emit (d : Dev) (o : Output) : Dev := { d with out := d.out ++ [o] }

/-- Use up one free value. -/
def Dev.bump (d : Dev) : Dev := { d with fresh := d.fresh + 1 }

/-- The code of a status (R17). -/
def Status.code : Status → Nat
  | .ok => 0x00 | .lengthError => 0x01 | .malformed => 0x02 | .accessError => 0x03 | .keyRevoked => 0x04
  | .translationFault => 0x05 | .authFail => 0x06 | .rnrExhausted => 0x07 | .retryExhausted => 0x08
  | .remoteError => 0x09 | .collectiveMismatch => 0x0A | .memberLost => 0x0B | .fabricPathLost => 0x0C
  | .hostLost => 0x0D | .flushed => 0x0E | .uncorrectable => 0x0F | .roleEpochMismatch => 0x10
  | .partialDelivery => 0x11 | .keyLimit => 0x12 | .halted => 0x13 | .capacityDeferred => 0x14
  | .varianceRefused => 0x15

/-- The first status that is not OK. -/
def Status.first : Status → Status → Status
  | .ok, b => b
  | a, _ => a

/-- The first status of a list that is not OK. -/
def firstBad : List Status → Status
  | [] => .ok
  | a :: r => a.first (firstBad r)

/-! ## Registers -/

/-- A family holds the register at an offset. -/
def RegDef.covers (r : RegDef) (off : Nat) : Bool :=
  if off < r.base then false
  else
    let x := off - r.base
    let i := if r.s1 = 0 then 0 else min (x / r.s1) (r.n1 - 1)
    let y := x - i * r.s1
    let j := if r.s2 = 0 then 0 else min (y / r.s2) (r.n2 - 1)
    decide (y = j * r.s2)

/-- The register family at an offset.  The per-function registers have no index 0 and no index 256 (R463). -/
def findReg (off : Nat) : Option RegDef :=
  if 0x1801000 ≤ off ∧ (off - 0x1801000) / 0x400 = 0 then none
  else if 0x1801000 ≤ off ∧ (off - 0x1801000) / 0x400 = 256 then none
  else regTable.find? (fun r => r.covers off)

/-- The Reset value that a register's fields give. -/
def fieldsReset : List FieldDef → Nat
  | [] => 0
  | f :: r => f.reset * 2 ^ f.lo + fieldsReset r

/-- The Reset value of the register at an offset. -/
def regReset (off : Nat) : W64 :=
  match findReg off with
  | some r => BitVec.ofNat 64 (fieldsReset r.fields)
  | none => 0

/-- The value a register holds. -/
def Dev.regGet (d : Dev) (off : Nat) : W64 := d.reg.vals.get (regReset off) off

/-- Give a register a value. -/
def Dev.regSet (d : Dev) (off : Nat) (v : W64) : Dev := { d with reg := { d.reg with vals := d.reg.vals.set off v } }

/-- The value of a field. -/
def Dev.fget (d : Dev) (f : RegField) : Nat := bvFld (d.regGet f.off) f.lo f.w

/-- Give a field a value. -/
def Dev.fset (d : Dev) (f : RegField) (v : Nat) : Dev := d.regSet f.off (bvSet (d.regGet f.off) f.lo f.w v)

/-- Add to a counter; it wraps at its width (log entry 8). -/
def Dev.fadd (d : Dev) (f : RegField) (n : Nat) : Dev := d.fset f (d.fget f + n)

/-- Count one. -/
def Dev.finc (d : Dev) (f : RegField) : Dev := d.fadd f 1

/-- Set bits of a field. -/
def Dev.forb (d : Dev) (f : RegField) (mask : Nat) : Dev := d.fset f (d.fget f ||| mask)

/-- Clear bits of a field. -/
def Dev.fclr (d : Dev) (f : RegField) (mask : Nat) : Dev := d.fset f (d.fget f - (d.fget f &&& mask))

/-- A one-bit field is 1. -/
def Dev.fon (d : Dev) (f : RegField) : Bool := decide (d.fget f = 1)

/-- Bit `i` of a field. -/
def Dev.fbit (d : Dev) (f : RegField) (i : Nat) : Bool := (d.fget f).testBit i

/-! ## Image sections in force -/

/-- The empty byte string. -/
def noBlob : Blob := ⟨0, ⟨[]⟩⟩

/-- The section of a type in force; empty when the image has none. -/
def Dev.sec (d : Dev) (ty : Nat) : Blob := d.img.secs.get noBlob ty

/-- A whole image is in force (R69). -/
def Dev.committed (d : Dev) : Bool := d.fon Reg.GLB_IMAGE_INFO_COMMITTED

/-- Section type codes (R58). -/
def secPartitionMap : Nat := 0x0001
/-- CLUSTER_ROLES. -/
def secClusterRoles : Nat := 0x0002
/-- TILE_PROGRAMS. -/
def secTilePrograms : Nat := 0x0003
/-- NOC_SCHEDULE. -/
def secNocSchedule : Nat := 0x0004
/-- ONAUD_SCHEDULE. -/
def secOnaudSchedule : Nat := 0x0005
/-- ROUTE_SETS. -/
def secRouteSets : Nat := 0x0006
/-- POD_TOPOLOGY. -/
def secPodTopology : Nat := 0x0007
/-- COLLECTIVE_GROUPS. -/
def secCollectiveGroups : Nat := 0x0008
/-- QUEUE_SHAPES. -/
def secQueueShapes : Nat := 0x0009
/-- SCHEDULER_SHAPES. -/
def secSchedulerShapes : Nat := 0x000A
/-- POLICER_TABLES. -/
def secPolicerTables : Nat := 0x000B
/-- GATE_TABLES. -/
def secGateTables : Nat := 0x000C
/-- TIER_BUDGETS. -/
def secTierBudgets : Nat := 0x000D
/-- PINNED_EXPERTS. -/
def secPinnedExperts : Nat := 0x000E
/-- EXPERT_PLACEMENT. -/
def secExpertPlacement : Nat := 0x000F
/-- KEY_SLOT_POLICY. -/
def secKeySlotPolicy : Nat := 0x0010

/-- Partition p is VALID in the partition map (R443). -/
def Dev.partValid (d : Dev) (p : Nat) : Bool := decide (p < 32) && (((d.sec secPartitionMap).u8 (64 + 16 * p + 4)).testBit 0)

/-- CLUSTERS of partition p (R443). -/
def Dev.partClusters (d : Dev) (p : Nat) : Nat := if d.partValid p then (d.sec secPartitionMap).u32 (64 + 16 * p) else 0

/-- The partition that holds a cluster. -/
def Dev.clusterPart (d : Dev) (c : Nat) : Option Nat := (List.range 32).find? (fun p => (d.partClusters p).testBit c)

/-- The partition of a function; none when it is unbound (R443). -/
def Dev.fnPart (d : Dev) (f : Nat) : Option Nat :=
  if d.committed then
    let p := (d.sec secPartitionMap).u8 (576 + f)
    if f < 264 ∧ p < 32 then some p else none
  else none

/-- The role code of a cluster (R59; byte nn of the section is Cnn's role, log entry 9). -/
def Dev.role (d : Dev) (c : Nat) : Nat := (d.sec secClusterRoles).u8 c

/-- The cluster is OFF, or no image gives it a role. -/
def Dev.clusterOff (d : Dev) (c : Nat) : Bool := decide (d.role c = 0)

/-- The cluster of a tile (R24, R25). -/
def clusterOf (t : Nat) : Nat := t / 16

/-- The partition of a tile. -/
def Dev.tilePart (d : Dev) (t : Nat) : Option Nat := d.clusterPart (clusterOf t)

/-- The role epoch of a partition (R69). -/
def Dev.roleEpoch (d : Dev) (p : Nat) : BitVec 8 := BitVec.ofNat 8 (fld (d.fget (Reg.GLB_ROLE_EPOCHn_EPOCHS (p / 4))) (8 * (p % 4)) 8)

/-- Set the role epoch of a partition. -/
def Dev.setRoleEpoch (d : Dev) (p : Nat) (e : BitVec 8) : Dev :=
  d.fset (Reg.GLB_ROLE_EPOCHn_EPOCHS (p / 4)) (setFld (d.fget (Reg.GLB_ROLE_EPOCHn_EPOCHS (p / 4))) (8 * (p % 4)) 8 e.toNat)

/-- How a receiver takes an arriving role epoch (R81). -/
inductive EpochKind where
  | current | mismatched | malformed
  deriving DecidableEq, Repr

/-- Compare role epochs with the 64-step guard (R81). -/
def epochKind (x e : BitVec 8) : EpochKind :=
  if x = e then .current
  else if (e - x).toNat ≤ 64 ∨ (x - e).toNat ≤ 64 then .mismatched
  else .malformed

/-! ## Where a device address lies (R160 to R162) -/

/-- HBM_SPLIT in force, in MiB (R161). -/
def Dev.hbmSplit (d : Dev) : Nat := if d.committed then (d.sec secTierBudgets).u32 0 else 128
/-- LP5X_SPLIT in force, in MiB (R161). -/
def Dev.lpSplit (d : Dev) : Nat := if d.committed then (d.sec secTierBudgets).u32 4 else 128

/-- Bytes of an HBM3E stack and of an LP5X device (R161). -/
def hbmStackBytes : Nat := 36000000000
/-- Bytes of an LP5X device. -/
def lpDeviceBytes : Nat := 128000000000

/-- The place of byte `a` of HBM3E stack `h`. -/
def hbmPlace (h a : Nat) : Nat := 0x10000000000 + h * 0x1000000000 + a
/-- The place of byte `a` of LP5X device `m`. -/
def lpPlace (m a : Nat) : Nat := 0x20000000000 + m * 0x2000000000 + a

/-- The kinds of memory. -/
inductive Tier where
  | scratch | cluster | hbm | lp5x
  deriving DecidableEq, Repr

/-- What holds a byte: its tier, the tile, cluster, stack or device, and the byte's place in the memory of the
model. -/
structure Site where
  tier : Tier
  unit : Nat
  place : Nat
  deriving DecidableEq, Repr

/-- The site of a device address under two splits, in MiB; none outside every populated range (R160, R162). -/
def siteOf (hs ls a : Nat) : Option Site :=
  let sh := hs * 1048576
  let sm := ls * 1048576
  if a < 0x40000000 then some ⟨.scratch, a / 0x200000, a⟩
  else if 0x400000000 ≤ a ∧ a < 0x800000000 then
    let o := a - 0x400000000
    if o % 0x20000000 < 503316480 then some ⟨.cluster, o / 0x20000000, a⟩ else none
  else if 0x10000000000 ≤ a ∧ a < 0x18000000000 then
    let o := a - 0x10000000000
    let g := o / 256
    if o < 8 * sh then some ⟨.hbm, g % 8, hbmPlace (g % 8) (g / 8 * 256 + o % 256)⟩ else none
  else if 0x18000000000 ≤ a ∧ a < 0x20000000000 then
    let dd := (a - 0x18000000000) / 0x2000000000
    let o := (a - 0x18000000000) % 0x2000000000
    let g := o / 256
    let h := 2 * dd + g % 2
    if o < 2 * (hbmStackBytes - sh) then some ⟨.hbm, h, hbmPlace h (sh + g / 2 * 256 + o % 256)⟩ else none
  else if 0x20000000000 ≤ a ∧ a < 0x30000000000 then
    let o := a - 0x20000000000
    let g := o / 256
    if o < 4 * sm then some ⟨.lp5x, g % 4, lpPlace (g % 4) (g / 4 * 256 + o % 256)⟩ else none
  else if 0x30000000000 ≤ a ∧ a < 0x38000000000 then
    let dd := (a - 0x30000000000) / 0x2000000000
    let o := (a - 0x30000000000) % 0x2000000000
    if o < lpDeviceBytes - sm then some ⟨.lp5x, dd, lpPlace dd (sm + o)⟩ else none
  else none

/-- The site of a device address now. -/
def Dev.site (d : Dev) (a : Nat) : Option Site := siteOf d.hbmSplit d.lpSplit a

/-- The memory channel a byte of a stack or device lies on (R595). -/
def channelOf (s : Site) : Nat :=
  match s.tier with
  | .hbm =>
    let a := s.place - hbmPlace s.unit 0
    fld a 8 4 ^^^ fld a 12 4 ^^^ fld a 16 4
  | .lp5x =>
    let a := s.place - lpPlace s.unit 0
    fld a 8 2 ^^^ fld a 10 2 ^^^ fld a 12 2
  | _ => 0

/-- The unit that holds a byte is fenced (R521). -/
def Dev.siteFenced (d : Dev) (s : Site) : Bool :=
  match s.tier with
  | .scratch => d.fbit Reg.RAS_FENCED_CLU_CLUSTERS (clusterOf s.unit)
  | .cluster => d.fbit Reg.RAS_FENCED_CLU_CLUSTERS s.unit
  | .hbm => d.fbit (Reg.RAS_FENCED_HBMs_CHANNELS s.unit) (channelOf s)
  | .lp5x => d.fbit Reg.RAS_FENCED_LP5X_CHANNELS (4 * s.unit + channelOf s)

/-- The size of the ECC unit of a tier (R167). -/
def Tier.eccUnit : Tier → Nat
  | .hbm => 32
  | _ => 8

/-- The ECC unit that holds a byte carries a lasting uncorrectable error. -/
def Dev.siteBad (d : Dev) (s : Site) : Bool := d.mem.bad.contains (s.place / s.tier.eccUnit * s.tier.eccUnit)

/-! ## The block map (R177, R178) -/

/-- A field of a block-map entry. -/
def blkHome (e : BitVec 128) : Nat := bvFld e 107 21
/-- COPY. -/
def blkCopy (e : BitVec 128) : Nat := bvFld e 86 21
/-- COPY_RANK. -/
def blkRank (e : BitVec 128) : Nat := bvFld e 80 6
/-- STATE: 0 FREE, 1 SERVING, 2 COPYING, 3 RELEASING, 4 LOST. -/
def blkState (e : BitVec 128) : Nat := bvFld e 77 3
/-- AT_COPY. -/
def blkAtCopy (e : BitVec 128) : Bool := decide (bvFld e 76 1 = 1)
/-- PINNED. -/
def blkPinned (e : BitVec 128) : Bool := decide (bvFld e 75 1 = 1)
/-- KIND. -/
def blkKind (e : BitVec 128) : Nat := bvFld e 74 1
/-- DIRTY. -/
def blkDirty (e : BitVec 128) : Bool := decide (bvFld e 73 1 = 1)
/-- PARTITION. -/
def blkPart (e : BitVec 128) : Nat := bvFld e 68 5
/-- SCORE. -/
def blkScore (e : BitVec 128) : Nat := bvFld e 48 16
/-- COUNT. -/
def blkCount (e : BitVec 128) : Nat := bvFld e 32 16
/-- DWELL. -/
def blkDwell (e : BitVec 128) : Nat := bvFld e 24 8
/-- EXPERT. -/
def blkExpert (e : BitVec 128) : Nat := bvFld e 0 24

/-- The block-map entry whose home holds a device address, if one is registered. -/
def Dev.blockAt (d : Dev) (a : Nat) : Option (Nat × BitVec 128) :=
  d.mem.blk.ents.find? (fun p => decide (blkHome p.2 = a / 2097152) && decide (blkState p.2 ≠ 0))

/-- The device address that serves a device address now: that of the copy when the block is served from it (R176). -/
def Dev.serve (d : Dev) (a : Nat) : Nat :=
  match d.blockAt a with
  | some (_, e) =>
    if blkAtCopy e && decide (blkRank e = d.fget Reg.ONF_POD_INFO_RANK) then blkCopy e * 2097152 + a % 2097152 else a
  | none => a

/-- The block that holds a device address is LOST (R178). -/
def Dev.blockLost (d : Dev) (a : Nat) : Bool :=
  match d.blockAt a with
  | some (_, e) => decide (blkState e = 4)
  | none => false

/-! ## Tier regions (R164) -/

/-- A region entry of TIER_BUDGETS. -/
structure Region where
  num : Nat
  part : Nat
  kind : Nat
  encrypt : Bool
  slot : Nat
  duShift : Nat
  base : Nat
  len : Nat
  deriving DecidableEq, Repr

/-- The region entry at an offset of a TIER_BUDGETS section. -/
def regionEntry (b : Blob) (o : Nat) : Region :=
  ⟨b.u8 o, b.u8 (o + 1), b.u8 (o + 2), (b.u8 (o + 3)).testBit 0, b.u16 (o + 4), b.u8 (o + 6), b.u64 (o + 8), b.u64 (o + 16)⟩

/-- The region entries of a whole image's TIER_BUDGETS section; an all-zero entry pads (log entry 10). -/
def regionsOf (b : Blob) : List Region :=
  ((List.range ((b.len - 2112) / 32)).map (fun i => regionEntry b (2112 + 32 * i))).filter (fun r => decide (r.len ≠ 0))

/-- The tier regions in force. -/
def Dev.regions (d : Dev) : List Region := regionsOf (d.sec secTierBudgets)

/-- The region a partition knows by a number. -/
def Dev.regionOf (d : Dev) (p n : Nat) : Option Region :=
  d.regions.find? (fun r => decide (r.part = p) && decide (r.num = n))

/-- The region that holds a device address. -/
def Dev.regionAt (d : Dev) (a : Nat) : Option Region :=
  d.regions.find? (fun r => decide (r.base ≤ a) && decide (a < r.base + r.len))

/-- The key of a slot, if it holds one. -/
def Dev.slotKey (d : Dev) (n : Nat) : Option (BitVec 512) :=
  match d.cad.slots.find n with
  | some k => if k.loaded then some k.key else none
  | none => none

/-- The encrypted region that holds a device address where it is served now; a copy in a POOL region is plaintext (R170,
R171). -/
def Dev.cryptAt (d : Dev) (a : Nat) : Option Region := (d.regionAt (d.serve a)).filter (·.encrypt)

/-! ## Engine accesses to device memory -/

/-- The bytes an access of `n` bytes at `a` reaches: in an encrypted region, every data unit it touches whole (R170). -/
def Dev.reach (d : Dev) (a n : Nat) : Nat × Nat :=
  match d.cryptAt a with
  | some r =>
    let u := 1 <<< r.duShift
    (a / u * u, (a + n + u - 1) / u * u - a / u * u)
  | none => (a, n)

/-- The first 64-bit word of a 32-byte chunk that an access of `n` bytes at `a` reaches and whose ECC unit is
lasting-uncorrectable. -/
def Dev.badWordIn (d : Dev) (c a n : Nat) : Option Nat :=
  match d.site (d.serve c) with
  | none => none
  | some s =>
    let r := d.reach a n
    ((List.range 4).find? (fun i => decide (r.1 < c + 8 * i + 8) && decide (c + 8 * i < r.1 + r.2) && d.siteBad ⟨s.tier, s.unit, s.place + 8 * i⟩)).map
      (fun i => c + 8 * i)

/-- Whether the 32-byte chunk `c` lets an access of `n` bytes at `a` through (R160, R171, R178, R521; a lasting bad unit
of R513 only when the access reads it). -/
def Dev.chunkStatus (d : Dev) (write : Bool) (c a n : Nat) : Status :=
  if d.blockLost c then .uncorrectable
  else
    match d.site (d.serve c) with
    | none => .accessError
    | some s =>
      if decide (s.tier = .scratch ∨ s.tier = .cluster) && d.clusterOff (if s.tier = .scratch then clusterOf s.unit else s.unit)
      then .accessError
      else if d.siteFenced s || (!write && (d.badWordIn c a n).isSome) then .uncorrectable
      else
        match d.cryptAt c with
        | some r => if (d.slotKey r.slot).isNone then .keyRevoked else .ok
        | none => .ok

/-- The 32-byte chunks that a range of `n` bytes at `a` touches. -/
def chunks (a n : Nat) : List Nat := (List.range ((a % 32 + n + 31) / 32)).map (fun i => a / 32 * 32 + 32 * i)

/-- Whether a range of device memory can be read or written. -/
def Dev.memStatus (d : Dev) (write : Bool) (a n : Nat) : Status :=
  let r := d.reach a n
  firstBad ((chunks r.1 r.2).map (fun c => d.chunkStatus write c a n))

/-- The first byte address of the ECC unit that holds the byte at a device address. -/
def unitStart (s : Site) (a : Nat) : Nat := a - s.place % s.tier.eccUnit

/-- A write of `n` bytes at `a` leaves the byte at `x` alone: its ECC unit is lasting-uncorrectable and the write covers
only part of it (R507). -/
def Dev.partSpoilt (d : Dev) (a n x : Nat) : Bool :=
  match d.site (d.serve x) with
  | some s => d.siteBad s && (decide (unitStart s x < a) || decide (a + n < unitStart s x + s.tier.eccUnit))
  | none => false

/-- A write of `n` bytes at `a` covers part of a lasting-uncorrectable ECC unit, so that its context ends with
UNCORRECTABLE once the rest is written (R507). -/
def Dev.writeSpoilt (d : Dev) (a n : Nat) : Bool :=
  d.mem.bad ≠ [] && (List.range n).any (fun i => d.partSpoilt a n (a + i))

/-- Full-unit writes return bad units to service (R507). -/
def Dev.healUnits (d : Dev) (a n : Nat) : Dev :=
  if d.mem.bad = [] then d
  else
    let healed := (List.range n).filterMap (fun i =>
      match d.site (d.serve (a + i)) with
      | some s => if d.siteBad s && !d.partSpoilt a n (a + i) then some (s.place / s.tier.eccUnit * s.tier.eccUnit) else none
      | none => none)
    { d with mem := { d.mem with bad := d.mem.bad.filter (fun u => !healed.contains u) } }

/-- The byte stored for a device address, as it lies in the memory device. -/
def Dev.rawByte (d : Dev) (a : Nat) : Byte :=
  match d.site (d.serve a) with
  | some s => d.mem.ram.read s.place
  | none => 0

/-- Store a byte for a device address as it lies in the memory device. -/
def Dev.rawStore (d : Dev) (a : Nat) (b : Byte) : Dev :=
  match d.site (d.serve a) with
  | some s => { d with mem := { d.mem with ram := d.mem.ram.write s.place b } }
  | none => d

/-- Store bytes upward from a device address as they lie in the memory device. -/
def Dev.rawStoreN (d : Dev) (a : Nat) : List Byte → Dev
  | [] => d
  | b :: r => (d.rawStore a b).rawStoreN (a + 1) r

/-- The bytes of a data unit of an encrypted region, deciphered (R170). -/
def Dev.unitPlain (d : Dev) (r : Region) (key : BitVec 512) (u : Nat) : List Byte :=
  xtsDecrypt key (BitVec.ofNat 128 u) ((List.range (1 <<< r.duShift)).map (fun i => d.rawByte (u <<< r.duShift + i)))

/-- The byte a device address holds. -/
def Dev.memByte (d : Dev) (a : Nat) : Byte :=
  match d.cryptAt a with
  | some r =>
    match d.slotKey r.slot with
    | some key => (d.unitPlain r key (a >>> r.duShift)).getD (a % (1 <<< r.duShift)) 0
    | none => 0
  | none => d.rawByte a

/-- The `n` bytes at a device address. -/
def Dev.memBytes (d : Dev) (a n : Nat) : List Byte := (List.range n).map (fun i => d.memByte (a + i))

/-- Store one byte at a device address; in an encrypted region the whole data unit is rewritten (R170). -/
def Dev.memStore (d : Dev) (a : Nat) (b : Byte) : Dev :=
  match d.cryptAt a with
  | some r =>
    match d.slotKey r.slot with
    | some key =>
      let u := a >>> r.duShift
      let plain := listSet (d.unitPlain r key u) (a % (1 <<< r.duShift)) b
      d.rawStoreN (u <<< r.duShift) (xtsEncrypt key (BitVec.ofNat 128 u) plain)
    | none => d
  | none => d.rawStore a b

/-- Store bytes upward from a device address. -/
def Dev.memStoreN (d : Dev) (a : Nat) : List Byte → Dev
  | [] => d
  | b :: r => (d.memStore a b).memStoreN (a + 1) r

/-- Note an access to the block that holds a device address: one 4 KiB sub-unit counted, and for a write the copy
DIRTY or, during a move, the sub-unit marked for recopy (R178, R179). -/
def Dev.noteSub (d : Dev) (write : Bool) (a : Nat) : Dev :=
  match d.blockAt a with
  | none => d
  | some (i, e) =>
    let e1 := bvSet e 32 16 (min 65535 (blkCount e + 1))
    let e2 := if write && blkAtCopy e then bvSet e1 73 1 1 else e1
    let sub := a % 2097152 / 4096
    let mark (m : Move) : Move :=
      if write && m.blocks.contains i && m.started && !m.dirty.contains (512 * i + sub) then { m with dirty := m.dirty ++ [512 * i + sub] }
      else m
    { d with mem := { d.mem with blk := d.mem.blk.set i e2, moves := d.mem.moves.map mark } }

/-- The 4 KiB sub-units that a range touches, by the address of each one's first byte. -/
def subUnits (a n : Nat) : List Nat := (List.range ((4095 + a % 4096 + n) / 4096)).map (fun i => a / 4096 * 4096 + 4096 * i)

/-- Back-invalidate the host's copies of the lines of a range (R302). -/
def Dev.backInvalidate (d : Dev) (a n : Nat) : Dev :=
  let hit := d.hif.hostLines.filter (fun l => decide (l < a + n) && decide (a < l + 64))
  let d := { d with hif := { d.hif with hostLines := d.hif.hostLines.filter (fun l => !hit.contains l) } }
  hit.foldl (fun d l => d.emit (.backInvalidate l)) d

/-- Count the AES blocks of an access to an encrypted tier region: each data unit touched costs its blocks and one for the
tweak, twice when a write covers only part of it (R170, R465, R488). -/
def Dev.tierBlocks (d : Dev) (write : Bool) (a n : Nat) : Dev :=
  match d.cryptAt a with
  | some r =>
    let u := 1 <<< r.duShift
    let touched := (a % u + n + u - 1) / u
    let whole := (a + n) / u - (a + u - 1) / u
    d.fadd (Reg.CAD_BLOCKSc_COUNT 2) ((u / 16 + 1) * (if write then 2 * touched - whole else touched))
  | none => d

/-- Count a data unit that an access found without its key (R488). -/
def Dev.keyEmptyNote (d : Dev) (st : Status) : Dev := if st = .keyRevoked then d.finc Reg.CAD_KEY_EMPTY_COUNT else d

/-- Note an access of an engine or a tile to a range: the host's copies of its lines are invalidated, Caddy's blocks and
every sub-unit are counted. -/
def Dev.noteAccess (d : Dev) (write : Bool) (a n : Nat) : Dev :=
  let d := if d.hif.hostLines = [] then d else d.backInvalidate a n
  let d := d.tierBlocks write a n
  if n = 0 ∨ d.mem.blk.ents = [] then d else (subUnits a n).foldl (fun d x => d.noteSub write x) d

/-- The move whose final pass holds writes to a device address. -/
def Dev.holdingMove (d : Dev) (a : Nat) : Bool :=
  match d.blockAt a with
  | none => false
  | some (i, _) => d.mem.moves.any (fun m => m.blocks.contains i && m.held)

/-- Store the bytes of a write that fall in sound ECC units, or in units it covers whole (R507). -/
def Dev.storeSound (d : Dev) (a : Nat) (bs : List Byte) : Dev :=
  if d.mem.bad = [] then d.memStoreN a bs
  else
    ((List.range bs.length).foldl (fun e i => if d.partSpoilt a bs.length (a + i) then e else e.memStore (a + i) (bs.getD i 0)) d).healUnits
      a bs.length

/-- Write a range of device memory that `memStatus` allows: writes to a block under its final recopy are held and
land at the new location (R184, R185). -/
def Dev.memWrite (d : Dev) (a : Nat) (bs : List Byte) : Dev :=
  if d.holdingMove a then
    let add (m : Move) : Move :=
      match d.blockAt a with
      | some (i, _) => if m.held && m.blocks.contains i then { m with heldWrites := m.heldWrites ++ [(a, bs)] } else m
      | none => m
    { d with mem := { d.mem with moves := d.mem.moves.map add } }
  else (d.storeSound a bs).noteAccess true a bs.length

/-- A scratchpad's first device address (R160). -/
def scratchBase (t : Nat) : Nat := t * 0x200000
/-- A cluster memory's first device address (R160). -/
def clusterBase (c : Nat) : Nat := 0x400000000 + c * 0x20000000
/-- The bytes of a cluster memory. -/
def clusterBytes : Nat := 503316480

/-- Clear a range of places of the memory, with correct ECC. -/
def Dev.clearRam (d : Dev) (place n : Nat) : Dev :=
  { d with mem := { d.mem with ram := d.mem.ram.clear place n, bad := d.mem.bad.filter (fun u => decide (u < place) || decide (place + n ≤ u)) } }

end Sys2Proof.Machine
end

