-- ==== Sys2Proof/Machine/EventOps.lean ====
section
/-! DEFINITION. Host links, translation, key checks, fault records and events: what every engine shares when it reaches
outside Holanes (R299 to R301, R326 to R329, R422 to R441, R596). -/
namespace Sys2Proof.Machine
open Sys2Proof

/-! ## Links and functions -/

/-- Host link k exists under the port-split straps (R299). -/
def Dev.linkPresent (d : Dev) (k : Nat) : Bool := decide (k < 8) && (decide (k % 2 = 0) || d.pw.straps.split.getLsbD (k / 2))

/-- A number names a function (R596). -/
def Dev.isFn (d : Dev) (f : Nat) : Bool := decide (f < 256) || (decide (257 ≤ f) && decide (f < 264) && d.linkPresent (f - 256))

/-- The link that presents a function (R300). -/
def fnLink (f : Nat) : Nat := if f < 256 then 0 else f - 256

/-- MSI-X vectors of a function (R301). -/
def fnVectors (f : Nat) : Nat := if f = 0 then 2048 else 64

/-- Link k carries traffic: UP, or in Recovery, where packets are held and sent later (R334, R339). -/
def Dev.linkUp (d : Dev) (k : Nat) : Bool :=
  decide (d.fget (Reg.HIF_LINKk_STATUS_STATE k) = 2) || decide (d.fget (Reg.HIF_LINKk_STATUS_STATE k) = 3)

/-- A read of host memory has its completion: it is issued a second time no more (R335). -/
def Dev.readEnd (d : Dev) (u : ReadUser) : Dev := d.upHif (fun h => { h with reissued := h.reissued.filter (fun x => decide (x ≠ u)) })

/-- Write to a bus address on a link; a link that is not up carries nothing. -/
def Dev.hostWrite (d : Dev) (link addr : Nat) (bytes : List Byte) (flagged : Bool) : Dev :=
  if d.linkUp link then d.emit (.hostWrite link addr bytes flagged) else d

/-- Pod time in ns. -/
def Dev.podTime (d : Dev) : Nat := (d.regGet Reg.ONF_PODTIME).toNat

/-- Send an MSI-X vector: one whose table entry is masked waits in the pending-bit array (R448; the place of PF0's
table is not given, and its vectors are never masked here, log entry 32). -/
def Dev.sendMsix (d : Dev) (fn vec : Nat) : Dev :=
  let n := 4096 * fn + vec
  if fn ≠ 0 ∧ bvFld (d.ev.msix.get 0 n) 96 1 = 1 then
    if d.ev.pba.contains n then d else { d with ev := { d.ev with pba := d.ev.pba ++ [n] } }
  else if d.linkUp (fnLink fn) then d.emit (.msix fn vec) else d

/-! ## Translation (R431 to R434) -/

/-- The first device address of the table pool, and of its end (R422). -/
def poolBase : Nat := 0x10030000000
/-- The end of the table pool. -/
def poolEnd : Nat := 0x1003C000000

/-- Causes of a fault record (R439). -/
inductive FaultCause where
  | keyZero | keyStale | identity | rights | bounds | noRoot | range | notPresent | badEntry | writeDenied
  /-- No cause of R439: the region entry or table word read holds a lasting uncorrectable error, so that no fault record is
  written (R513). -/
  | unreadable
  deriving DecidableEq, Repr

/-- The code of a fault cause. -/
def FaultCause.code : FaultCause → Nat
  | .keyZero => 1 | .keyStale => 2 | .identity => 3 | .rights => 4 | .bounds => 5 | .noRoot => 6 | .range => 7
  | .notPresent => 8 | .badEntry => 9 | .writeDenied => 10 | .unreadable => 0

/-- What a translation comes to: a bus address on a link, or a cause, the level it stopped at and the last entry read. -/
inductive Xlate where
  | ok (link bus : Nat)
  | bad (c : FaultCause) (level : Nat) (entry : W64)
  deriving DecidableEq, Repr

/-- The update count below which a root's cached translations are gone. -/
def Dev.fenceOf (d : Dev) (r : Nat) : Nat := max d.dtu.fencedAll (d.dtu.fenced.get 0 r)

/-- A choice the spec leaves open: bit `i` of a free value. -/
def Dev.choice (d : Dev) (i : Nat) : Bool := (Config.freeValue 64 d.fresh).getLsbD (i % 64)

/-- The table word a walk under root r reads: the stored one, or an old one that no fence has discarded yet (R434). -/
def Dev.tableWord (d : Dev) (r a : Nat) : W64 :=
  match d.dtu.staleWords.find? (fun w => decide (w.addr = a) && decide (d.fenceOf r < w.seq)) with
  | some w => if d.choice (w.seq) then w.old else BitVec.ofNat 64 (leNat (d.memBytes a 8))
  | none => BitVec.ofNat 64 (leNat (d.memBytes a 8))

/-- The setting of a root: the present one, or an old one that no fence has discarded yet (R431). -/
def Dev.rootSetting (d : Dev) (r : Nat) : Option DtuRoot :=
  match d.dtu.roots.find r with
  | none => none
  | some x =>
    match d.dtu.staleRoots.find? (fun w => decide (w.root = r) && decide (d.fenceOf r < w.seq)) with
    | some w => if d.choice w.seq then some w.old else some x
    | none => some x

/-- Walk the levels 4 − n + 1 to 4 of a root's table from `table` (R432, R433).  A word that cannot be read gives its own
address in place of an entry (R513). -/
def Dev.walk (d : Dev) (r link va : Nat) (write : Bool) : Nat → Nat → Xlate
  | 0, _ => .bad .badEntry 4 0
  | n + 1, table =>
    let level := 4 - n
    let place := table + 8 * fld va (48 - 9 * level) 9
    let e := d.tableWord r place
    let x := e.toNat
    if d.memStatus false place 8 = .uncorrectable then .bad .unreadable level (BitVec.ofNat 64 place)
    else if x % 2 = 0 then .bad .notPresent level e
    else
      let leaf := decide (fld x 1 1 = 1)
      let addr := fld x 12 52
      let cont := decide (fld x 3 1 = 1)
      if fld x 4 8 ≠ 0 ∨ (cont ∧ level ≠ 4) ∨ (level = 1 ∧ leaf) ∨ (level = 4 ∧ ¬ leaf) then .bad .badEntry level e
      else if leaf then
        let page := if level = 2 then 0x40000000 else if level = 3 then 0x200000 else if cont then 0x10000 else 0x1000
        if addr * 4096 % page ≠ 0 then .bad .badEntry level e
        else if write ∧ fld x 2 1 = 0 then .bad .writeDenied level e
        else .ok link (addr * 4096 + va % page)
      else if fld x 42 22 ≠ 0 ∨ addr * 4096 < poolBase ∨ poolEnd ≤ addr * 4096 then .bad .badEntry level e
      else d.walk r link va write n (addr * 4096)

/-- Translate an I/O virtual address under a root (R433). -/
def Dev.translate (d : Dev) (r va : Nat) (write : Bool) : Xlate :=
  match d.rootSetting r with
  | none => .bad .noRoot 0 0
  | some x => if 2 ^ 48 ≤ va then .bad .range 0 0 else d.walk r x.link va write 4 x.table

/-! ## Memory regions (R423 to R427) -/

/-- A region entry: FREE with GEN 255 unless the table lists it. -/
def Dev.mrEntry (d : Dev) (i : Nat) : BitVec 256 := d.dtu.mr.get 0xFF00 i

/-- STATE of a region entry: 0 FREE, 1 VALID, 2 REVOKING. -/
def mrState (e : BitVec 256) : Nat := bvFld e 0 8
/-- GEN. -/
def mrGen (e : BitVec 256) : Nat := bvFld e 8 8
/-- KIND: 0 EXTERNAL, 1 DEVICE. -/
def mrKind (e : BitVec 256) : Nat := bvFld e 16 8
/-- RIGHTS. -/
def mrRights (e : BitVec 256) : Nat := bvFld e 24 8
/-- FUNCTION. -/
def mrFunction (e : BitVec 256) : Nat := bvFld e 32 16
/-- ROOT. -/
def mrRoot (e : BitVec 256) : Nat := bvFld e 48 16
/-- BASE. -/
def mrBase (e : BitVec 256) : Nat := bvFld e 64 64
/-- LENGTH. -/
def mrLength (e : BitVec 256) : Nat := bvFld e 128 64
/-- PARTITION. -/
def mrPartition (e : BitVec 256) : Nat := bvFld e 192 8

/-- The rights of R423, by bit. -/
def rLocalRead : Nat := 0
/-- LOCAL_WRITE. -/
def rLocalWrite : Nat := 1
/-- REMOTE_READ. -/
def rRemoteRead : Nat := 2
/-- REMOTE_WRITE. -/
def rRemoteWrite : Nat := 3
/-- REMOTE_ATOMIC. -/
def rRemoteAtomic : Nat := 4
/-- PEER_WRITE. -/
def rPeerWrite : Nat := 5
/-- TILE_READ. -/
def rTileRead : Nat := 6
/-- TILE_WRITE. -/
def rTileWrite : Nat := 7

/-- Who presents a key (R426): the right it needs, whether it writes, the function or partition it must match, and
whether it is limited to DEVICE regions. -/
structure KeyUser where
  right : Nat
  write : Bool
  fn : Option Nat
  part : Option Nat
  deviceOnly : Bool
  deriving DecidableEq, Repr

/-- What the check of a unit comes to (R427). -/
inductive KeyRes where
  /-- A device address. -/
  | dev (a : Nat)
  /-- A bus address on a host link. -/
  | bus (link a : Nat)
  /-- A failure: status, cause, level, root and last entry for the fault record. -/
  | bad (st : Status) (c : FaultCause) (level root : Nat) (entry : W64)
  deriving DecidableEq, Repr

/-- Check one unit of `n` bytes at `a`, which lies in one 4 KiB chunk when the region is EXTERNAL (R427). -/
def Dev.checkKey (d : Dev) (key : Nat) (u : KeyUser) (a n : Nat) : KeyRes :=
  let e := d.mrEntry (key / 256)
  if key % 256 = 0 then .bad .accessError .keyZero 0 0xFFFF 0
  else if d.dtu.hurt.contains (key / 256) then .bad .uncorrectable .unreadable 0 0xFFFF 0
  else if mrState e ≠ 1 ∨ mrGen e ≠ key % 256 then .bad .keyRevoked .keyStale 0 0xFFFF 0
  else if (match u.fn with | some f => decide (f ≠ mrFunction e) | none => false) ||
      (match u.part with | some p => decide (p ≠ mrPartition e) | none => false) then .bad .accessError .identity 0 0xFFFF 0
  else if !(mrRights e).testBit u.right || (u.deviceOnly && decide (mrKind e = 0)) then .bad .accessError .rights 0 0xFFFF 0
  else if a < mrBase e ∨ mrBase e + mrLength e < a + n then .bad .accessError .bounds 0 0xFFFF 0
  else if mrKind e = 1 then .dev a
  else
    match d.translate (mrRoot e) a u.write with
    | .ok link bus => .bus link bus
    | .bad c level entry => .bad (if c = .unreadable then .uncorrectable else .translationFault) c level (mrRoot e) entry

/-! ## Events (R326 to R328) -/

/-- Event types (R329 and the owning chapters). -/
inductive EventType where
  | overflow | wqDone | doorbellBad | wqError | deviceHalted | pcieLink | p2pDrop | imageDone | tileStopped | blockCmdDone
  | blockLost | linkState | linkSlip | recalRefused | rankLost | routeSwitch
  | other (code : Nat)
  deriving DecidableEq, Repr

/-- The code of an event type. -/
def EventType.code : EventType → Nat
  | .overflow => 0x01 | .wqDone => 0x02 | .doorbellBad => 0x03 | .wqError => 0x04 | .deviceHalted => 0x05 | .pcieLink => 0x06
  | .p2pDrop => 0x07 | .imageDone => 0x08 | .tileStopped => 0x09 | .blockCmdDone => 0x0A | .blockLost => 0x0B
  | .linkState => 0x10 | .linkSlip => 0x11 | .recalRefused => 0x12 | .rankLost => 0x13 | .routeSwitch => 0x14
  | .other c => c

/-- The 32 bytes of an event entry (R326). -/
def eventEntry (ty status : Nat) (phase collapsed : Bool) (count time : Nat) (body : BitVec 128) : List Byte :=
  leBytes 1 ty ++ leBytes 1 status ++ leBytes 1 (b2n phase + 2 * b2n collapsed) ++ leBytes 1 0 ++
  leBytes 4 (min count 0xFFFFFFFF) ++ leBytes 8 time ++ leBytes 16 body.toNat

/-- A fault record's contents (R439). -/
structure FaultRec where
  status : Status
  cause : FaultCause
  level : Nat
  engines : Nat
  fn : Nat
  kind : Nat
  write : Bool
  atomic : Bool
  context : Nat
  key : Nat
  address : Nat
  done : Nat
  root : Nat
  entry : W64
  deriving DecidableEq, Repr

/-- The 64 bytes of a fault record. -/
def faultBytes (r : FaultRec) (time : Nat) : List Byte :=
  leBytes 1 r.status.code ++ leBytes 1 r.cause.code ++ leBytes 1 r.level ++ leBytes 1 (min r.engines 255) ++ leBytes 2 r.fn ++
  leBytes 1 r.kind ++ leBytes 1 (b2n r.write + 2 * b2n r.atomic) ++ leBytes 4 r.context ++ leBytes 4 r.key ++
  leBytes 8 r.address ++ leBytes 8 r.done ++ leBytes 8 time ++ leBytes 2 r.root ++ leBytes 6 0 ++ leBytes 8 r.entry.toNat ++ leBytes 8 0

/-- Write a record to the next entry of a ring on P0.A and then its head word, unless the ring is off or full (R440,
R511): the new count of records written, and whether it was written. -/
def ringFull (written tail log2 : Nat) : Bool := decide (2 ^ log2 ≤ (2 ^ 32 + written - tail) % 2 ^ 32)

/-- Write a fault record (R439, R440). -/
def Dev.writeFault (d : Dev) (r : FaultRec) : Dev :=
  let d := d.finc Reg.DTU_CHECK_FAIL_COUNT
  let lg := d.fget Reg.DTU_FAULT_CTL_RING_LOG2
  let n := d.dtu.faultWritten
  let full := ringFull n (d.fget Reg.DTU_FAULT_TAIL_TAIL) lg
  let d :=
    if d.fon Reg.DTU_FAULT_CTL_EN && !full then
      let d := d.hostWrite 0 (d.fget Reg.DTU_FAULT_BASE_ADDR + 64 * (n % 2 ^ lg)) (faultBytes r d.podTime) false
      let d := d.hostWrite 0 (d.fget Reg.DTU_FAULT_HEAD_ADDR_ADDR) (leBytes 8 (n + 1)) true
      { d with dtu := { d.dtu with faultWritten := n + 1 } }
    else d.finc Reg.DTU_FAULT_DROP_COUNT
  { d with dtu := { d.dtu with faultNo := d.dtu.faultNo + 1 } }

/-- A function's pending store. -/
def Dev.pendStore (d : Dev) (fn : Nat) : Tab PendEvent := d.ev.pend.get ⟨[]⟩ fn

/-- The pending-bit mask of a function's store. -/
def Dev.pendMask (d : Dev) (fn : Nat) : Nat := maskOf (d.pendStore fn).keys

/-- Collapse an event into the pending store (R328). -/
def Dev.collapse (d : Dev) (fn ty status : Nat) (body : BitVec 128) : Dev :=
  let p := d.pendStore fn
  let old := p.get ⟨0, 0, 0⟩ ty
  let d := { d with ev := { d.ev with pend := d.ev.pend.set fn (p.set ty ⟨min (old.count + 1) 0xFFFFFFFF, status, body⟩) } }
  d.finc Reg.WQS_EQ_COLLAPSE_COUNT

/-- The state of a function (R452): 0 DISABLED, 1 ENABLED, 2 DRAINING, 3 FREEZING, 4 FROZEN, 5 RESTORING; PF0 is always
enabled. -/
def Dev.fnState (d : Dev) (f : Nat) : Nat := if f = 0 then 1 else d.fget (Reg.VFM_FNf_STATE_STATE f)

/-- Entries of a function's queues start, and its descriptors fire. -/
def Dev.fnStarts (d : Dev) (f : Nat) : Bool := decide (d.fnState f = 1)

/-- Where entry e of a function's event queue goes: a bus address on a link (R326). -/
def Dev.eqPlace (d : Dev) (fn : Nat) (q : EventQ) : Xlate :=
  let a := q.base + q.written % 4096 * 32
  if fn = 0 then .ok 0 a else d.translate q.root a true

/-- The walk for an event entry meets no uncorrectable table word; an event whose walk does waits in the pending store. -/
def Dev.eqReadable (d : Dev) (fn : Nat) (q : EventQ) : Bool :=
  match d.eqPlace fn q with
  | .ok _ _ => true
  | .bad c _ _ => decide (c ≠ .unreadable)

/-- An event queue can take an entry now: the events of a function that drains or is frozen collapse (R454, R458). -/
def Dev.eqSpace (d : Dev) (fn : Nat) : Bool :=
  match d.ev.eqs.find fn with
  | some q => d.eqReadable fn q && decide (d.fnState fn ≠ 2 ∧ d.fnState fn ≠ 4) && !q.failed && decide ((2 ^ 32 + q.written - q.consumed) % 2 ^ 32 < 4096) && d.linkUp (fnLink fn) &&
      !d.hif.lost.contains (fnLink fn)
  | none => false

/-- Write one event entry, then the interrupt if it is armed (R327).  A failed translation marks the queue FAILED, and
answers false (R600). -/
def Dev.eqWrite (d : Dev) (fn ty status : Nat) (collapsed : Bool) (count : Nat) (body : BitVec 128) : Dev × Bool :=
  match d.ev.eqs.find fn with
  | none => (d, false)
  | some q =>
    match d.eqPlace fn q with
    | .ok link bus =>
      let e := eventEntry ty status (decide ((q.written / 4096 + 1) % 2 = 1)) collapsed count d.podTime body
      let d := d.hostWrite link bus e false
      let irq := q.arm && decide (q.vector ≠ 0xFFFF)
      let q' := { q with written := q.written + 1, arm := q.arm && !irq, news := !irq }
      let d := { d with ev := { d.ev with eqs := d.ev.eqs.set fn q' } }
      (if irq then d.sendMsix fn q.vector else d, true)
    | .bad c level entry =>
      let d := { d with ev := { d.ev with eqs := d.ev.eqs.set fn { q with failed := true } } }
      (d.writeFault ⟨.translationFault, c, level, 1, fn, 7, true, false, 0x10000 + fn, 0, q.base + q.written % 4096 * 32, 0, q.root, entry⟩,
        false)

/-- Post an event without following up a failed write. -/
def Dev.postOnce (d : Dev) (fn ty status : Nat) (body : BitVec 128) : Dev × Bool :=
  if d.eqSpace fn && decide ((d.pendStore fn).ents = []) then
    let r := d.eqWrite fn ty status false 1 body
    if r.2 then r else (r.1.collapse fn ty status body, false)
  else (d.collapse fn ty status body, true)

/-- The FAULT event's body (R441). -/
def faultBody (no context kind cause : Nat) : BitVec 128 :=
  BitVec.ofNat 128 (no % 2 ^ 32 + context * 2 ^ 32 + kind * 2 ^ 64 + cause * 2 ^ 72)

/-- FAULT to PF0 for an event entry whose write failed (R600). -/
def Dev.eqFault (d : Dev) (fn : Nat) : Dev :=
  (d.postOnce 0 0x22 Status.translationFault.code (faultBody (d.dtu.faultNo - 1) (0x10000 + fn) 7 8)).1

/-- Post an event to a function (R327 to R329).  An entry whose write fails translation posts FAULT to PF0 (R600). -/
def Dev.post (d : Dev) (fn : Nat) (ty : EventType) (status : Nat) (body : Nat) : Dev :=
  let r := d.postOnce fn ty.code status (BitVec.ofNat 128 body)
  if r.2 then r.1 else r.1.eqFault fn

/-- Post what a function's pending store holds while its queue has space: OVERFLOW once an episode, then the lowest
pending TYPE first (R328); `n` bounds the entries. -/
def Dev.postPending (d : Dev) (fn : Nat) : Nat → Dev
  | 0 => d
  | n + 1 =>
    let p := d.pendStore fn
    match p.ents with
    | [] => d
    | (ty, e) :: rest =>
      if !d.eqSpace fn then d
      else if !d.ev.overflowed.contains fn then
        let r := d.eqWrite fn 0x01 0 false 1 (BitVec.ofNat 128 (d.pendMask fn))
        if r.2 then ({ r.1 with ev := { r.1.ev with overflowed := fn :: r.1.ev.overflowed } }).postPending fn n else r.1.eqFault fn
      else
        let r := d.eqWrite fn ty e.status true e.count e.body
        if r.2 then
          let d := { r.1 with ev := { r.1.ev with pend := r.1.ev.pend.set fn ⟨rest⟩ } }
          let d := if rest = [] then { d with ev := { d.ev with overflowed := d.ev.overflowed.filter (fun f => decide (f ≠ fn)) } } else d
          d.postPending fn n
        else r.1.eqFault fn

end Sys2Proof.Machine
end

