-- ==== Sys2Proof/Machine/RasOps.lean ====
section
/-! DEFINITION. Error records, sensor events, and the conditions that every command or arrival meets (R505 to R512, R517,
R551, R588, R589). -/
namespace Sys2Proof.Machine
open Sys2Proof

/-! ## Conditions -/

/-- BAR0 writes are taken: no cold reset is held, start-up has ended with INIT_DONE, and no warm reset runs (R549, R551,
R552). -/
def Dev.alive (d : Dev) : Bool := !d.pw.cold && d.pw.initDone && decide (d.fget Reg.PWR_STATE_STATE ≠ 4)

/-- Device fatal (R517). -/
def Dev.fatal (d : Dev) : Bool := d.fon Reg.RAS_FATAL_FATAL

/-- Out of reset and not device fatal. -/
def Dev.running (d : Dev) : Bool := d.alive && !d.fatal

/-- Engines run and arrivals are taken: SANITIZE stops both (R501). -/
def Dev.live (d : Dev) : Bool := d.running && !d.tr.sanitizing

/-- The management interface answers: VDD_IO18 and VDD_AON are within tolerance and PWROK is high (R585). -/
def Dev.mgtUp (d : Dev) : Bool := d.pw.rails && d.pw.pwrok

/-- PWR_STATE.STATE is STANDBY: commands to most blocks are refused (R545). -/
def Dev.inStandby (d : Dev) : Bool := decide (d.fget Reg.PWR_STATE_STATE = 2)

/-- A command of a block with a command register: dropped in reset; refused with CMD_ERR in STANDBY or while BUSY. -/
def Dev.command (d : Dev) (busy err : RegField) (f : Dev → Dev) : Dev :=
  if !d.alive then d
  else if d.inStandby || d.fon busy then d.fset err 1
  else f d

/-! ## Sensors and their events (R588, R589) -/

/-- The state that sensor 168 reports. -/
def Dev.deviceState (d : Dev) : Nat :=
  if d.pw.bistFail then 2
  else if d.fatal then 7
  else if d.fget Reg.PWR_STATE_STATE = 4 then 6
  else if !d.pw.initDone then 1
  else if d.fget Reg.PWR_STATE_STATE = 2 then 5
  else if d.committed then 4
  else 3

/-- The reading of a sensor. -/
def Dev.sensorReading (d : Dev) (id : Nat) : Nat :=
  if 1 ≤ id ∧ id ≤ 48 then d.fget (Reg.PWR_TEMPi_TEMP (id - 1))
  else if id = 49 then d.fget Reg.PWR_TEMP_MAX_TEMP
  else if id = 50 then d.fget Reg.PWR_EST_NOW_W
  else if id = 51 then d.fget Reg.PWR_EST_AVG_W
  else if id = 52 then d.fget Reg.PWR_CAP_CAP_W
  else if id = 53 then d.fget Reg.PWR_THROTTLE_NOTCH
  else if id = 54 then d.mg.unc
  else if id = 55 then d.mg.corr
  else if 64 ≤ id ∧ id ≤ 127 then d.fget (Reg.ONF_LINKn_STATE_STATE (id - 64)) + 1
  else if 128 ≤ id ∧ id ≤ 159 then d.fget (Reg.ETH_PORTp_STATUS_STATE (id - 128)) + 1
  else if 160 ≤ id ∧ id ≤ 167 then d.fget (Reg.HIF_LINKk_STATUS_STATE (id - 160)) + 1
  else d.deviceState

/-- Queue a sensor's event, or set its pending bit when 32 wait (R589). -/
def Dev.sensorEvent (d : Dev) (id : Nat) : Dev :=
  if d.mg.disabled.contains id then d
  else if d.mg.events.length < 32 ∧ d.mg.pend = [] then
    (d.upMg (fun m => { m with events := m.events ++ [(id, d.sensorReading id)] })).fset Reg.MGT_STATUS_ALERT 1
  else
    (d.upMg (fun m => { m with pend := if m.pend.contains id then m.pend else id :: m.pend })).finc Reg.MGT_EVENT_DROP_COUNT

/-- The pending sensors in ascending order. -/
def pendOrder (l : List Nat) : List Nat := (List.range 169).filter (fun i => l.contains i)

/-- Queue the events of pending sensors while there is space (R589); `n` bounds them. -/
def Dev.sensorRefill (d : Dev) : Nat → Dev
  | 0 => d
  | n + 1 =>
    match pendOrder d.mg.pend with
    | [] => d
    | id :: rest =>
      if d.mg.events.length < 32 then
        (d.upMg (fun m => { m with events := m.events ++ [(id, d.sensorReading id)], pend := rest })).sensorRefill n
      else d

/-- A change of state of a state sensor's source. -/
def Dev.noteState (d : Dev) (id old : Nat) : Dev := if d.sensorReading id = old then d else d.sensorEvent id

/-- The threshold level that a numeric sensor's reading meets: 1 warning, 2 critical, 3 fatal.  A threshold is met at its own
value (DESIGN CHOICE, log entry 46). -/
def Dev.sensorLevel (d : Dev) (id : Nat) : Nat :=
  let v := d.sensorReading id
  if (1 ≤ id ∧ id ≤ 49) then
    let t := sext 16 v
    let warn : Int := if 37 ≤ id ∧ id ≤ 44 then 95 else d.fget Reg.PWR_THERM_CTL_T_THROT
    if 16 * 125 ≤ t then 3 else if 16 * 105 ≤ t then 2 else if 16 * warn ≤ t then 1 else 0
  else if id = 51 then b2n (decide (d.fget Reg.PWR_CAP_CAP_W ≤ v))
  else if id = 53 then b2n (decide (4 ≤ v))
  else if id = 54 then b2n (decide (1 ≤ v))
  else 0

/-- A numeric sensor's reading or thresholds may have changed: crossing one queues an event (R589). -/
def Dev.noteLevel (d : Dev) (id : Nat) : Dev :=
  let l := d.sensorLevel id
  if d.mg.levels.get 0 id = l then d
  else (d.upMg (fun m => { m with levels := if l = 0 then m.levels.del id else m.levels.set id l })).sensorEvent id

/-- The same for a list of sensors. -/
def Dev.noteLevels (d : Dev) (ids : List Nat) : Dev := ids.foldl Dev.noteLevel d

/-! ## Records (R508 to R512) -/

/-- The contents of an error record that its writer supplies. -/
structure RasRec where
  sev : Nat
  unit : Nat
  action : Nat
  status : Nat
  loc : Nat
  detail : Nat
  kind : Nat := 0
  part : Nat := 0xFF
  fn : Nat := 0xFFFF
  ctx : Nat := 0
  deriving DecidableEq, Repr

/-- The times a UNIT and LOCATION have been recorded with severity 2, 4 or 5. -/
def repeatsOf (l : List ((Nat × Nat) × Nat)) (k : Nat × Nat) : Nat := ((l.find? (fun p => decide (p.1 = k))).map (·.2)).getD 0

/-- The 64 bytes of a record, as a number. -/
def rasBits (r : RasRec) (n time rep : Nat) : BitVec 512 :=
  BitVec.ofNat 512 (leNat (
    leBytes 1 r.sev ++ leBytes 1 r.unit ++ leBytes 1 r.action ++ leBytes 1 r.status ++ leBytes 4 n ++ leBytes 8 r.loc ++
    leBytes 8 r.detail ++ leBytes 1 r.kind ++ leBytes 1 r.part ++ leBytes 2 r.fn ++ leBytes 4 r.ctx ++ leBytes 8 time ++
    leBytes 4 (min rep 0xFFFFFFFF)))

/-- Write a record to the ring and then its head word, unless the ring is off or full (R511). -/
def Dev.rasRing (d : Dev) (bits : BitVec 512) : Dev :=
  if d.fon Reg.RAS_REC_CTL_EN then
    let lg := d.fget Reg.RAS_REC_CTL_RING_LOG2
    let n := d.ras.written
    if ringFull n (d.fget Reg.RAS_REC_TAIL_TAIL) lg then d.finc Reg.RAS_REC_DROP_COUNT
    else
      let d := d.hostWrite 0 (d.fget Reg.RAS_REC_BASE_ADDR + 64 * (n % 2 ^ lg)) (leBytes 64 bits.toNat) false
      let d := d.hostWrite 0 (d.fget Reg.RAS_REC_HEAD_ADDR_ADDR) (leBytes 8 (n + 1)) true
      d.upRas (fun x => { x with written := n + 1 })
  else d

/-- Count a record by severity, for RAS and for the sensors 54 and 55. -/
def Dev.rasCount (d : Dev) (sev : Nat) : Dev :=
  match sev with
  | 2 => (d.finc Reg.RAS_CORR_LASTING_COUNT).upMg (fun m => { m with corr := m.corr + 1 })
  | 3 => d.finc Reg.RAS_UNC_TRANSIENT_COUNT
  | 4 => ((d.finc Reg.RAS_UNC_LASTING_COUNT).upMg (fun m => { m with unc := m.unc + 1 })).noteLevel 54
  | _ => d

/-- Write an error record: the store, the ring, the event and the sensor event (R508 to R512, R589). -/
def Dev.rasRecord (d : Dev) (r : RasRec) : Dev :=
  let n := d.ras.count
  let key := (r.unit, r.loc)
  let lasting := decide (r.sev ≠ 3)
  let rep := repeatsOf d.ras.repeats key + b2n lasting
  let bits := rasBits r n d.podTime rep
  let d := if d.ras.unread.contains (n % 256) then d.finc Reg.RAS_LOG_OVERWRITE_COUNT else d
  let d := d.upRas (fun x =>
    { x with log := x.log.set (n % 256) bits, unread := (n % 256) :: x.unread.filter (fun i => decide (i ≠ n % 256)), count := n + 1,
             repeats := if lasting then (key, rep) :: x.repeats.filter (fun p => decide (p.1 ≠ key)) else x.repeats })
  let d := (d.fset Reg.RAS_REC_TOTAL_COUNT (n + 1)).rasCount r.sev
  let d := d.rasRing bits
  if 3 ≤ r.sev then
    let d := d.post 0 (.other 0x38) r.status (n % 2 ^ 32 + r.unit * 2 ^ 32 + r.sev * 2 ^ 40 + r.action * 2 ^ 48)
    d.sensorEvent (if r.sev = 5 then 168 else 54)
  else d

/-- The record UNIT, LOCATION and DETAIL of a memory word (R509): its bank, or its channel; an ECC syndrome is a free value, and
the failing symbol is unknown (log entry 4). -/
def Dev.wordUnit (d : Dev) (a : Nat) : Nat × Nat × Nat :=
  let syndrome := (Config.freeValue 8 d.fresh).toNat
  match d.site (d.serve a) with
  | some s =>
    (match s.tier with
     | .scratch => (1, s.unit + fld s.place 0 21 / 8 * 8 * 2 ^ 32, syndrome + fld s.place 5 5 * 65536)
     | .cluster => (3, a / 8 * 8, syndrome + (s.place - (0x400000000 + s.unit * 0x20000000)) / 64 % 240 * 65536)
     | .hbm => (4, a / 32 * 32, s.unit + channelOf s * 256 + 0xFF * 65536)
     | .lp5x => (6, a / 8 * 8, s.unit + channelOf s * 256 + syndrome * 65536))
  | none => (4, a, 0)

/-- Write the record of a memory word. -/
def Dev.wordRecord (d : Dev) (a sev action status kind part fn ctx : Nat) : Dev :=
  let u := d.wordUnit a
  (d.rasRecord { sev := sev, unit := u.1, action := action, status := status, loc := u.2.1, detail := u.2.2, kind := kind, part := part,
                 fn := fn, ctx := ctx }).bump

/-- The record of the first access to a fenced memory channel (R521), as an error of its interface (R509); a fenced cluster
leaves none. -/
def Dev.fencedRecord (d : Dev) (s : Site) (action status kind part fn ctx : Nat) : Dev :=
  let ch := channelOf s
  let note (unit key : Nat) : Dev :=
    if d.ras.fenceSeen.contains key then d
    else
      (d.upRas (fun r => { r with fenceSeen := r.fenceSeen ++ [key] })).bump.rasRecord
        { sev := 4, unit := unit, action := action, status := status, loc := s.unit + ch * 256, detail := (Config.freeValue 8 d.fresh).toNat,
          kind := kind, part := part, fn := fn, ctx := ctx }
  match s.tier with
  | .hbm => note 5 (16 * s.unit + ch)
  | .lp5x => note 7 (128 + 16 * s.unit + ch)
  | _ => d

/-- The record of what a context met when an access of `n` bytes at `a` ended it with UNCORRECTABLE (R507, R508, R513): severity
4, the context ended or the tile stopped; none for a LOST block, whose map entry has its own. -/
def Dev.badWordRecord (d : Dev) (a n : Nat) (action kind part fn ctx : Nat) : Dev :=
  let r := d.reach a n
  match (chunks r.1 r.2).find? (fun c => decide (d.chunkStatus false c a n = .uncorrectable)) with
  | none => d
  | some c =>
    if d.blockLost c then d
    else
      let status := if action = 1 then Status.uncorrectable.code else 0
      match d.site (d.serve c) with
      | none => d
      | some s =>
        if d.siteFenced s then d.fencedRecord s action status kind part fn ctx
        else d.wordRecord ((d.badWordIn c a n).getD c) 4 action status kind part fn ctx

/-- A unit's failed check: its fault record, and FAULT to the function whose context faulted, PF0 for none (R437, R439, R441).
One that met an uncorrectable region entry or table word writes an error record in place of both (R513). -/
def Dev.faultUnit (d : Dev) (r : FaultRec) (toFn : Nat) : Dev :=
  if r.cause = .unreadable then
    let part := if r.kind = 2 then d.tilePart (r.context / 8) else d.fnPart toFn
    d.rasRecord { sev := 4, unit := if r.level = 0 then 0x0D else 0x0E, action := 1, status := r.status.code,
                  loc := if r.level = 0 then r.key / 256 else r.entry.toNat, detail := r.level, kind := r.kind, part := part.getD 0xFF,
                  fn := if r.kind = 2 then 0xFFFF else toFn, ctx := r.context }
  else
    let d := d.writeFault r
    d.post toFn (.other 0x22) r.status.code (faultBody (d.dtu.faultNo - 1) r.context r.kind r.cause.code).toNat

end Sys2Proof.Machine
end

