-- ==== Sys2Proof/Machine/CadOps.lean ====
section
/-! DEFINITION. Key slots and their policy (R469 to R476). -/
namespace Sys2Proof.Machine
open Sys2Proof

/-- MODE of a slot's policy: 0 UNUSED, 1 WRAP, 2 XTS_TIER, 3 XTS_QUEUE, 4 GCM_QP, 5 MACSEC; UNUSED before a commit. -/
def Dev.slotMode (d : Dev) (n : Nat) : Nat := (d.sec secKeySlotPolicy).u8 (64 + 8 * n)
/-- OWNER. -/
def Dev.slotOwner (d : Dev) (n : Nat) : Nat := (d.sec secKeySlotPolicy).u8 (64 + 8 * n + 1)
/-- PARENT. -/
def Dev.slotParent (d : Dev) (n : Nat) : Nat := (d.sec secKeySlotPolicy).u16 (64 + 8 * n + 2)

/-- A slot's policy allows a mode for a partition (R471). -/
def Dev.slotAllows (d : Dev) (n m p : Nat) : Bool := decide (n < 16384) && decide (d.slotMode n = m) && (decide (d.slotOwner n = p) || decide (d.slotOwner n = 0xFF))

/-- A slot; an unlisted one is EMPTY. -/
def Dev.slot (d : Dev) (n : Nat) : KeySlot := d.cad.slots.get ⟨false, 0, 0, 0, false⟩ n

/-- K1 of key material. -/
def keyK1 (k : BitVec 512) : BitVec 256 := BitVec.ofNat 256 k.toNat

/-- The blocks of a GCM unit of `n` bytes (R465). -/
def gcmBlocks (n : Nat) : Nat := (n + 15) / 16 + 1

/-- Count AES blocks run for a class. -/
def Dev.cadBlocks (d : Dev) (cls n : Nat) : Dev := d.fadd (Reg.CAD_BLOCKSc_COUNT cls) n

end Sys2Proof.Machine
end

