-- ==== Sys2Proof/Machine/OnaudOps.lean ====
section
/-! DEFINITION. Onaud: cells, credits, replay, routes and control messages (R224 to R264). -/
namespace Sys2Proof.Machine
open Sys2Proof

/-! ## CRC-32 (R230) -/

/-- Eight steps of the reflected CRC. -/
def crcStep (poly : Nat) : Nat → Nat → Nat
  | 0, c => c
  | n + 1, c => crcStep poly n (if c % 2 = 1 then (c / 2) ^^^ poly else c / 2)

/-- The reflected CRC of `w` bits over bytes, with all ones as initial value and final XOR. -/
def crcBytes (w poly : Nat) (bs : List Byte) : Nat :=
  (bs.foldl (fun c b => crcStep poly 8 (c ^^^ b.toNat)) (2 ^ w - 1)) ^^^ (2 ^ w - 1)

/-- The CRC-32 of IEEE 802.3. -/
def crc32 (bs : List Byte) : W32 := BitVec.ofNat 32 (crcBytes 32 0xEDB88320 bs)

/-! ## Links -/

/-- A link. -/
def Dev.onfLink (d : Dev) (n : Nat) : OnfLink := d.onf.links.get OnfLink.reset n

/-- Change a link. -/
def Dev.updLink (d : Dev) (n : Nat) (f : OnfLink → OnfLink) : Dev := d.upOnf (fun o => { o with links := o.links.upd OnfLink.reset n f })

/-- STATE of a link (R225): 0 DOWN, 1 TRAINING, 2 ADMIT, 3 UP, 4 DEGRADED, 5 RETRAINING, 6 DISABLED. -/
def Dev.linkState (d : Dev) (n : Nat) : Nat := d.fget (Reg.ONF_LINKn_STATE_STATE n)

/-- A link carries all cells. -/
def Dev.linkOpen (d : Dev) (n : Nat) : Bool := decide (d.linkState n = 3) || decide (d.linkState n = 4)

/-- Own rank (R245). -/
def Dev.rank (d : Dev) : Nat := d.fget Reg.ONF_POD_INFO_RANK

/-- The number of the frame that pod time lies in (R237). -/
def Dev.frameNo (d : Dev) : Nat := d.podTime / 1024

/-- Devices in the pod. -/
def Dev.podSize (d : Dev) : Nat := d.fget Reg.ONF_POD_INFO_POD_SIZE

/-- PEER_RANK, PEER_LINK, and USED of a link's LINK_MAP entry (R245). -/
def Dev.mapRank (d : Dev) (n : Nat) : Nat := (d.sec secPodTopology).u8 (0x40 + 4 * n)
/-- PEER_LINK. -/
def Dev.mapLink (d : Dev) (n : Nat) : Nat := (d.sec secPodTopology).u8 (0x40 + 4 * n + 1)
/-- USED. -/
def Dev.mapUsed (d : Dev) (n : Nat) : Bool := ((d.sec secPodTopology).u8 (0x40 + 4 * n + 3)).testBit 0

/-- LEADER of POD_TOPOLOGY. -/
def Dev.imageLeader (d : Dev) : Nat := (d.sec secPodTopology).u8 3

/-- The links of the bundle toward a rank (R236). -/
def Dev.bundle (d : Dev) (r : Nat) : List Nat := (List.range 64).filter (fun n => d.mapUsed n && decide (d.mapRank n = r))

/-- The bundle's members that take steep-window flows: UP and not under test, or DEGRADED ones when none is UP. -/
def Dev.members (d : Dev) (r : Nat) : List Nat :=
  let up := (d.bundle r).filter (fun n => decide (d.linkState n = 3) && !(d.onfLink n).testing)
  if up = [] then (d.bundle r).filter (fun n => decide (d.linkState n = 4) && !(d.onfLink n).testing) else up

/-- Post LINK_STATE and the sensor event as a link changes state (R225, R263, R589). -/
def Dev.setLinkState (d : Dev) (n st : Nat) : Dev :=
  let old := d.linkState n
  if old = st then d
  else
    let d := d.fset (Reg.ONF_LINKn_STATE_STATE n) st
    let d := if st = 2 then d else d.fset (Reg.ONF_LINKn_STATE_REASON n) 0
    (d.post 0 .linkState 0 (n + old * 256 + st * 4096 + d.fget (Reg.ONF_LINKn_STATE_LANES n) * 65536)).sensorEvent (64 + n)

/-! ## Cell headers (R231) -/

/-- A field of a cell header. -/
def hdrLseq (h : BitVec 96) : Nat := bvFld h 87 9
/-- LACK. -/
def hdrLack (h : BitVec 96) : Nat := bvFld h 78 9
/-- CR_CLASS. -/
def hdrCrClass (h : BitVec 96) : Nat := bvFld h 75 3
/-- CR_COUNT. -/
def hdrCrCount (h : BitVec 96) : Nat := bvFld h 71 4
/-- TYPE. -/
def hdrType (h : BitVec 96) : Nat := bvFld h 67 4
/-- CLASS. -/
def hdrClass (h : BitVec 96) : Nat := bvFld h 64 3
/-- DST_RANK. -/
def hdrDst (h : BitVec 96) : Nat := bvFld h 58 6
/-- SRC_RANK. -/
def hdrSrc (h : BitVec 96) : Nat := bvFld h 52 6
/-- PARTITION. -/
def hdrPart (h : BitVec 96) : Nat := bvFld h 47 5
/-- ROLE_EPOCH. -/
def hdrEpoch (h : BitVec 96) : BitVec 8 := BitVec.ofNat 8 (bvFld h 39 8)
/-- DST_UNIT. -/
def hdrUnit (h : BitVec 96) : Nat := bvFld h 28 11
/-- ROUTE. -/
def hdrRoute (h : BitVec 96) : Nat := bvFld h 26 2
/-- MSG_TAG. -/
def hdrTag (h : BitVec 96) : Nat := bvFld h 16 10
/-- REMAIN. -/
def hdrRemain (h : BitVec 96) : Nat := bvFld h 0 16

/-- A header with its link fields zero. -/
def mkHdr (type cls dst src part epoch unit route tag remain : Nat) : BitVec 96 :=
  BitVec.ofNat 96 (remain % 65536 + tag % 1024 * 2 ^ 16 + route % 4 * 2 ^ 26 + unit % 2048 * 2 ^ 28 + epoch % 256 * 2 ^ 39 +
    part % 32 * 2 ^ 47 + src % 64 * 2 ^ 52 + dst % 64 * 2 ^ 58 + cls % 8 * 2 ^ 64 + type % 16 * 2 ^ 67)

/-- DST_UNIT of an engine endpoint: die and endpoint number. -/
def engineUnit (die ep : Nat) : Nat := 1024 + die * 256 + ep

/-! ## Sending (R241 to R243) -/

/-- The classes with credits owed, lowest first. -/
def owedClass (l : OnfLink) : Option Nat := (List.range 5).find? (fun c => decide (0 < l.owed.get 0 c))

/-- Fill in the LACK and credit-return fields of a header, taking the credits returned (R231, R242). -/
def fillHdr (l : OnfLink) (h : BitVec 96) : OnfLink × BitVec 96 :=
  let h := bvSet h 78 9 (l.rxSeq + 511)
  match owedClass l with
  | none => (l, h)
  | some c =>
    let k := min 15 (l.owed.get 0 c)
    ({ l with owed := l.owed.set c (l.owed.get 0 c - k) }, bvSet (bvSet h 75 3 c) 71 4 k)

/-- Put a cell on the wire. -/
def Dev.wire (d : Dev) (n : Nat) (c : OnfCell) : Dev :=
  match c.body with
  | .data p => d.emit (.cell n c.hdr p (crc32 (leBytes 12 c.hdr.toNat ++ leBytes 64 p.toNat)))
  | .ctl scope bseq m => d.emit (.control n c.hdr scope bseq m)

/-- Send an unsequenced cell that carries LACK and credits: IDLE (0x0) or LINK_NAK (0x4). -/
def Dev.sendPlain (d : Dev) (n type : Nat) : Dev :=
  let r := fillHdr (d.onfLink n) (mkHdr type 0 0 d.rank 0 0 0 0 0 0)
  (d.updLink n (fun _ => r.1)).emit (.plainCell n r.2)

/-- The priority of control messages (R253). -/
def ctlPriority : CellBody → Nat
  | .ctl _ _ (.switch ..) | .ctl _ _ (.fault ..) | .ctl _ _ (.fence _) => 1
  | .ctl _ _ (.cmap ..) => 3
  | _ => 2

/-- The lane a waiting cell queues in: 0 control by priority, 1 static, 2 steep window. -/
def cellLane (c : OnfCell) : Nat := if hdrClass c.hdr = 4 then 0 else if hdrClass c.hdr = 0 then 1 else 2

/-- Take the first element of a list that passes a test. -/
def takeFirst {α : Type} (p : α → Bool) : List α → Option (α × List α)
  | [] => none
  | x :: r => if p x then some (x, r) else (takeFirst p r).map (fun q => (q.1, x :: q.2))

/-- The next cell of a lane. -/
def laneHead (q : List OnfCell) (lane : Nat) : Option (OnfCell × List OnfCell) :=
  if lane = 0 then
    match takeFirst (fun c => decide (cellLane c = 0) && decide (ctlPriority c.body = 1)) q with
    | some r => some r
    | none =>
      match takeFirst (fun c => decide (cellLane c = 0) && decide (ctlPriority c.body = 2)) q with
      | some r => some r
      | none => takeFirst (fun c => decide (cellLane c = 0)) q
  else takeFirst (fun c => decide (cellLane c = lane)) q

/-- The cell a link sends next: the first lane whose next cell has a credit; static and steep cells only once the device
has been aligned (R242, R252). -/
def Dev.nextCell (d : Dev) (l : OnfLink) : Option (OnfCell × List OnfCell) :=
  let can (lane : Nat) : Option (OnfCell × List OnfCell) :=
    match laneHead l.queue lane with
    | some (c, r) => if (lane = 0 ∨ d.onf.aligned = true) ∧ 0 < l.credits.get 512 (hdrClass c.hdr) then some (c, r) else none
    | none => none
  ((can 0).orElse (fun _ => can 1)).orElse (fun _ => can 2)

/-- Send what a link's queue holds while credits and the replay buffer allow; `n` bounds the cells (R242, R243). -/
def Dev.pump (d : Dev) (k : Nat) : Nat → Dev
  | 0 => d
  | n + 1 =>
    let l := d.onfLink k
    if !d.linkOpen k || l.queue = [] || decide (256 ≤ l.replay.length) then d
    else
      match d.nextCell l with
      | none => d
      | some (c, rest) =>
        let r := fillHdr l (bvSet c.hdr 87 9 l.txSeq)
        let c := { c with hdr := r.2 }
        let l := { r.1 with txSeq := (l.txSeq + 1) % 512, replay := l.replay ++ [c], queue := rest,
                            credits := r.1.credits.set (hdrClass c.hdr) (r.1.credits.get 512 (hdrClass c.hdr) - 1) }
        ((d.updLink k (fun _ => l)).wire k c).pump k n

/-- Steep-window cells waiting on a link. -/
def steepWaiting (l : OnfLink) : Nat := (l.queue.filter (fun c => decide (cellLane c = 2))).length

/-- Account for cells that wait: the high-water mark, and the slots stalled on a credit, whose number is a free value
(R242, R268; log entry 4). -/
def Dev.noteWaiting (d : Dev) (k : Nat) : Dev :=
  let l := d.onfLink k
  if l.queue = [] then d
  else
    let d := d.fset (Reg.ONF_LINKn_STEEP_WAIT_MAX_COUNT k) (max (d.fget (Reg.ONF_LINKn_STEEP_WAIT_MAX_COUNT k)) (steepWaiting l))
    if d.linkOpen k ∧ l.queue.any (fun c => decide (l.credits.get 512 (hdrClass c.hdr) = 0)) then
      let x := (Config.freeValue 16 d.fresh).toNat
      ((d.bump).fadd (Reg.ONF_LINKn_CREDIT_STALL_COUNT k) x).updLink k (fun l => { l with stalls := l.stalls + x })
    else d

/-- Queue cells on a link and send what can go. -/
def Dev.pushCells (d : Dev) (k : Nat) (cs : List OnfCell) : Dev :=
  let d := d.updLink k (fun l => { l with queue := l.queue ++ cs })
  (d.pump k (cs.length + 256)).noteWaiting k

/-! ## Bursts (R234 to R236, R241, R250, R255, R261) -/

/-- The active route set. -/
def Dev.activeSet (d : Dev) : Nat := d.fget Reg.ONF_ROUTE_STATUS_ACTIVE_SET

/-- The next-hop rank toward a destination under a set; none where there is none (R249). -/
def Dev.nextHop (d : Dev) (set dst : Nat) : Option Nat :=
  let r := (d.sec secRouteSets).u8 (256 * set + dst)
  if r = 0xFF then none else some r

/-- A rank is lost. -/
def Dev.rankLost (d : Dev) (r : Nat) : Bool := d.fbit Reg.ONF_LOST_RANKS r

/-- A rank is fenced. -/
def Dev.rankFenced (d : Dev) (r : Nat) : Bool := d.fbit Reg.ONF_FENCE_RANKS r

/-- The route toward a destination under the active set crosses an element that the device knows has failed. -/
def Dev.routeFailed (d : Dev) (dst : Nat) : Bool :=
  match d.nextHop d.activeSet dst with
  | none => true
  | some h => d.rankLost dst || d.rankLost h || decide (d.members h = []) ||
      d.onf.avoidRanks.contains h && decide (d.nextHop d.activeSet dst ≠ some dst)

/-- A new burst toward a destination is dropped: its route crosses a failed element and no set covers it (R261). -/
def Dev.pathBlocked (d : Dev) (dst : Nat) : Bool := d.fon Reg.ONF_ROUTE_STATUS_NOCOVER && d.routeFailed dst

/-- The class and stream of a slot entry of a schedule table (R239). -/
def Dev.slotEntry (d : Dev) (set link slot : Nat) : Nat := (d.sec secOnaudSchedule).u16 (576 + ((set * 64 + link) * 1024 + slot) * 2)

/-- A link has a STATIC slot of a stream in the active schedule; stream 0x3FFF marks transit slots. -/
def Dev.linkHasStream (d : Dev) (link stream : Nat) : Bool :=
  (List.range 1024).any (fun s => decide (d.slotEntry d.activeSet link s = stream))

/-- The link that a static stream's cells leave on. -/
def Dev.streamLink (d : Dev) (stream : Nat) : Option Nat := (List.range 64).find? (fun n => d.linkHasStream n stream)

/-- The member of the bundle toward a next hop that a flow uses (R236). -/
def Dev.flowLink (d : Dev) (hop cls dst : Nat) : Option Nat :=
  let m := d.members hop
  m[(5 * dst + cls) % m.length]?

/-- Another member of a bundle still has cells of a flow that wait or are not acknowledged (R236). -/
def Dev.oldMember (d : Dev) (hop link cls dst : Nat) : Option Nat :=
  (d.bundle hop).find? (fun n => decide (n ≠ link) && ((d.onfLink n).replay ++ (d.onfLink n).queue).any (fun c =>
    decide (hdrClass c.hdr = cls) && decide (hdrDst c.hdr = dst)))

/-- The cells of one burst. -/
def burstCells (h : Nat → BitVec 96) (ps : List (BitVec 512)) : List OnfCell :=
  (List.range ps.length).map (fun i => ⟨h (ps.length - 1 - i), .data (ps.getD i 0)⟩)

/-- Queue one burst of this device on a link, with the next MSG_TAG of its flow. -/
def Dev.queueBurst (d : Dev) (k : Nat) (b : OnfBurst) : Dev :=
  let flow := 64 * b.cls + b.peer
  let tag := d.onf.txTag.get 0 flow
  let d := d.upOnf (fun o => { o with txTag := o.txTag.set flow ((tag + 1) % 1024) })
  d.pushCells k (burstCells (fun rem => mkHdr 1 b.cls b.peer d.rank b.part b.epoch.toNat b.unit d.activeSet tag rem) b.cells)

/-- Send one burst toward a rank in a steep-window class: dropped at a fence, held while its route crosses a failed
element or no member is UP (R236, R261, R263). -/
def Dev.sendBurst (d : Dev) (b : OnfBurst) : Dev :=
  let hold := d.upOnf (fun o => { o with held := o.held ++ [b] })
  match d.nextHop d.activeSet b.peer with
  | none => if d.fon Reg.ONF_ROUTE_STATUS_NOCOVER then d.fadd Reg.ONF_LOST_DROP_COUNT b.cells.length else hold
  | some h =>
    if d.rankFenced h then d.fadd Reg.ONF_FENCE_DROP_COUNT b.cells.length
    else if d.pathBlocked b.peer then d.fadd Reg.ONF_LOST_DROP_COUNT b.cells.length
    else if d.routeFailed b.peer || d.onf.held.any (fun x => decide (x.cls = b.cls) && decide (x.peer = b.peer)) then hold
    else
      match d.flowLink h b.cls b.peer with
      | some k => if d.oldMember h k b.cls b.peer = none then d.queueBurst k b else hold
      | none => hold

/-- Split a message into bursts of 65,536 cells and send them (R234); `n` bounds the bursts. -/
def Dev.sendMessage (d : Dev) (cls dst unit part : Nat) (ps : List (BitVec 512)) : Nat → Dev
  | 0 => d
  | n + 1 =>
    if ps = [] then d
    else (d.sendBurst ⟨cls, dst, unit, part, d.roleEpoch part, ps.take 65536⟩).sendMessage cls dst unit part (ps.drop 65536) n

/-- Send a burst of a static stream (R241); without a slot it waits for a schedule that has one. -/
def Dev.sendStatic (d : Dev) (stream dst unit part : Nat) (ps : List (BitVec 512)) : Dev :=
  let b : OnfBurst := ⟨0, dst, unit, part, d.roleEpoch part, ps⟩
  if d.rankFenced dst then d.fadd Reg.ONF_FENCE_DROP_COUNT ps.length
  else
    match d.streamLink stream with
    | some k => d.queueBurst k b
    | none => d.upOnf (fun o => { o with held := o.held ++ [{ b with unit := unit + 2048 * stream }] })

/-- Send again what waited (R261); a static burst carries its stream above its unit. -/
def Dev.releaseHeld (d : Dev) : Dev :=
  let waiting := d.onf.held
  waiting.foldl (fun d b =>
    if b.cls = 0 then d.sendStatic (b.unit / 2048) b.peer (b.unit % 2048) b.part b.cells else d.sendBurst b)
    (d.upOnf (fun o => { o with held := [] }))

/-- The link that a transit cell leaves on: toward NEXT of its own set; a static cell in a transit slot (R241, R250). -/
def Dev.transitLink (d : Dev) (h : BitVec 96) : Option (Nat × Nat) :=
  match d.nextHop (hdrRoute h) (hdrDst h) with
  | none => none
  | some hop =>
    let static := if hdrClass h = 0 then (d.bundle hop).find? (fun n => d.linkOpen n && d.linkHasStream n 0x3FFF) else none
    match static with
    | some k => some (hop, k)
    | none => (d.flowLink hop (hdrClass h) (hdrDst h)).map (fun k => (hop, (d.oldMember hop k (hdrClass h) (hdrDst h)).getD k))

/-- Forward a transit cell, or drop it at a fence or a lost hop (R250, R259, R263). -/
def Dev.forward (d : Dev) (c : OnfCell) : Dev :=
  match d.nextHop (hdrRoute c.hdr) (hdrDst c.hdr) with
  | none => d.finc Reg.ONF_LOST_DROP_COUNT
  | some hop =>
    if d.rankFenced hop then d.finc Reg.ONF_FENCE_DROP_COUNT
    else if d.rankLost hop then d.finc Reg.ONF_LOST_DROP_COUNT
    else
      match d.transitLink c.hdr with
      | some (_, k) => (d.pushCells k [c]).finc (Reg.ONF_LINKn_FWD_COUNT k)
      | none => d.finc Reg.ONF_LOST_DROP_COUNT

/-! ## Receiving (R242 to R244) -/

/-- LACK and credit fields of an arriving cell: acknowledged cells leave the replay buffer (R242, R243). -/
def ackCells (l : OnfLink) (lack : Nat) : List OnfCell :=
  if l.replay.any (fun c => decide (hdrLseq c.hdr = lack)) then
    l.replay.drop (((l.replay.map (fun c => hdrLseq c.hdr)).findIdx (fun q => decide (q = lack))) + 1)
  else l.replay

/-- Take in the LACK and credits of an arriving cell and send what they allow. -/
def Dev.takeReturns (d : Dev) (k : Nat) (h : BitVec 96) : Dev :=
  let d := d.updLink k (fun l =>
    { l with replay := ackCells l (hdrLack h),
             credits := l.credits.set (hdrCrClass h) (min 512 (l.credits.get 512 (hdrCrClass h) + hdrCrCount h)) })
  (d.pump k ((d.onfLink k).queue.length)).releaseHeld

/-- The link enters RETRAINING; its replay buffer is kept (R226, R244). -/
def Dev.startRetrain (d : Dev) (k : Nat) : Dev := if d.linkOpen k then d.setLinkState k 5 else d

/-- A sequenced cell cannot be taken: it and every later one are discarded and one LINK_NAK goes out; the second failure
of one LSEQ is lasting (R243, R244). -/
def Dev.cellFailed (d : Dev) (k : Nat) : Dev :=
  let l := d.onfLink k
  if l.failSeq = some l.rxSeq ∧ l.nak = false then (d.updLink k (fun l => { l with failSeq := none })).startRetrain k
  else if l.nak then d
  else (d.updLink k (fun l => { l with nak := true, failSeq := some l.rxSeq })).sendPlain k 4

/-- Link-level reception of a sequenced cell (R232, R233, R242, R243): whether it is taken. -/
def Dev.takeCell (d : Dev) (k : Nat) (h : BitVec 96) : Dev × Bool :=
  if !d.live || !d.linkOpen k then (d, false)
  else
    let d := d.takeReturns k h
    let l := d.onfLink k
    if 4 < hdrClass h then ((d.finc (Reg.ONF_LINKn_CRC_ERR_COUNT k)).cellFailed k, false)
    else if hdrLseq h ≠ l.rxSeq then (d.cellFailed k, false)
    else
      let replayed := l.nak
      let d := d.updLink k (fun l =>
        { l with rxSeq := (l.rxSeq + 1) % 512, nak := false, failSeq := if replayed then none else l.failSeq,
                 owed := l.owed.set (hdrClass h) (l.owed.get 0 (hdrClass h) + 1) })
      (d.sendPlain k 0, true)

/-- Resend every cell that LACK does not cover (R243). -/
def Dev.replayAll (d : Dev) (k : Nat) : Dev :=
  let cs := (d.onfLink k).replay
  let d := d.fadd (Reg.ONF_LINKn_REPLAY_COUNT k) cs.length
  let d := d.updLink k (fun l => { l with replays := l.replays + cs.length })
  cs.foldl (fun d c => d.wire k c) d

/-! ## Control messages (R253) -/

/-- Ranks that a device's UP links reach, with the lowest such link of each. -/
def Dev.upLinks (d : Dev) : List Nat := (List.range 64).filter (fun n => d.linkOpen n && !(d.onfLink n).testing)

/-- The header of a control cell. -/
def Dev.ctlHdr (d : Dev) (dst src : Nat) : BitVec 96 := mkHdr 2 4 dst src 0 0 0 d.activeSet 0 0

/-- Send a control cell of a source toward a rank on one link. -/
def Dev.sendCtl (d : Dev) (k dst src scope bseq : Nat) (m : CtlMsg) : Dev := d.pushCells k [⟨d.ctlHdr dst src, .ctl scope bseq m⟩]

/-- A PODTIME leaves with the device's own pod time (R251). -/
def Dev.stamp (d : Dev) : CtlMsg → CtlMsg
  | .podtime leader _ frames en hops => .podtime leader (d.regGet Reg.ONF_PODTIME) frames en hops
  | m => m

/-- Send a broadcast that starts here on every UP link (R253). -/
def Dev.broadcast (d : Dev) (m : CtlMsg) : Dev :=
  let b := d.onf.bseq
  let d := d.upOnf (fun o => { o with bseq := (b + 1) % 65536, seen := (d.rank, b) :: o.seen.take 1023 })
  d.upLinks.foldl (fun d k => d.sendCtl k (d.mapRank k) d.rank 2 b (d.stamp m)) d

/-- Forward a broadcast once on every UP link but the one it came on; answers whether it was new (R253). -/
def Dev.relay (d : Dev) (from_ src bseq : Nat) (m : CtlMsg) : Dev × Bool :=
  if d.onf.seen.contains (src, bseq) then (d, false)
  else
    let d := d.upOnf (fun o => { o with seen := (src, bseq) :: o.seen.take 1023 })
    ((d.upLinks.filter (fun k => decide (k ≠ from_))).foldl (fun d k => d.sendCtl k (d.mapRank k) src 2 bseq (d.stamp m)) d, true)

/-- The device leads. -/
def Dev.leads (d : Dev) : Bool := d.fon Reg.ONF_POD_INFO_IS_LEADER

/-- The leader's rank. -/
def Dev.leader (d : Dev) : Nat := d.fget Reg.ONF_POD_INFO_LEADER

/-- Send a source's message toward the leader by the active set. -/
def Dev.toLeader (d : Dev) (src : Nat) (m : CtlMsg) : Dev :=
  match (d.nextHop d.activeSet d.leader).bind (fun h => (d.members h).head?) with
  | some k => d.sendCtl k d.leader src 1 0 m
  | none => d

/-- Send a message that every device acts on: the leader broadcasts its own and acts at once; another device sends it
toward the leader and acts when the broadcast reaches it (R253, R292). -/
def Dev.announce (d : Dev) (m : CtlMsg) (act : Dev → Dev) : Dev :=
  if d.leads then act (d.broadcast m) else d.toLeader d.rank m

/-- A control cell arrives (R243, R253, R263): one from a fenced rank is dropped; a broadcast is forwarded and acted on
once; a message toward the leader is passed on, or broadcast and acted on by the leader. -/
def Dev.ctlArrive (d : Dev) (h : CtlHead) (m : CtlMsg) (act : Dev → Dev) : Dev :=
  let k := h.link.val
  match d.takeCell k h.hdr with
  | (d, false) => d
  | (d, true) =>
    if d.rankFenced (d.mapRank k) then d.finc Reg.ONF_FENCE_DROP_COUNT
    else if h.scope = 2 then
      match d.relay k (hdrSrc h.hdr) h.bseq.toNat m with
      | (d, true) => act d
      | (d, false) => d
    else if h.scope = 1 then
      if d.leads then act (d.broadcast m) else d.toLeader (hdrSrc h.hdr) m
    else act d

/-- A control cell meant for the leader alone arrives (FAULT, CMAP): others pass it on. -/
def Dev.ctlToLeader (d : Dev) (h : CtlHead) (m : CtlMsg) (act : Dev → Dev) : Dev :=
  let k := h.link.val
  match d.takeCell k h.hdr with
  | (d, false) => d
  | (d, true) =>
    if d.rankFenced (d.mapRank k) then d.finc Reg.ONF_FENCE_DROP_COUNT
    else if d.leads then act d else d.toLeader (hdrSrc h.hdr) m

end Sys2Proof.Machine
end

