-- ==== Sys2Proof/Machine/WqOps.lean ====
section
/-! DEFINITION. Work queues: what the engines share with WQS when they take and finish entries (R310 to R332). -/
namespace Sys2Proof.Machine
open Sys2Proof

/-! ## Contexts (R311) -/

/-- RING. -/
def wqRing (c : BitVec 512) : Nat := bvFld c 0 64
/-- CWORD. -/
def wqCword (c : BitVec 512) : Nat := bvFld c 64 64
/-- FUNCTION. -/
def wqFn (c : BitVec 512) : Nat := bvFld c 128 16
/-- CLASS: 0 SEND, 1 RECV, 2 DISPATCH, 3 COLLECTIVE, 4 CIPHER. -/
def wqClass (c : BitVec 512) : Nat := bvFld c 144 8
/-- LOG2_SIZE. -/
def wqLog2 (c : BitVec 512) : Nat := bvFld c 152 8
/-- WEIGHT. -/
def wqWeight (c : BitVec 512) : Nat := bvFld c 160 8
/-- BURST. -/
def wqBurst (c : BitVec 512) : Nat := bvFld c 168 8
/-- COAL. -/
def wqCoal (c : BitVec 512) : Nat := bvFld c 176 8
/-- VECTOR. -/
def wqVector (c : BitVec 512) : Nat := bvFld c 192 16
/-- ROOT. -/
def wqRoot (c : BitVec 512) : Nat := bvFld c 208 10
/-- BIND. -/
def wqBind (c : BitVec 512) : Nat := bvFld c 224 32

/-- The code of a queue state (R312). -/
def QState.code : QState → Nat
  | .reset => 0 | .active => 1 | .draining => 2 | .error => 3 | .lost => 4 | .halted => 5

/-- A queue, if it is not in RESET. -/
def Dev.wqFind (d : Dev) (qid : Nat) : Option Wq := d.wq.queues.find qid

/-- Replace a queue. -/
def Dev.wqSet (d : Dev) (qid : Nat) (q : Wq) : Dev := d.upWq (fun w => { w with queues := w.queues.set qid q })

/-- Change a queue that is not in RESET. -/
def Dev.wqUpd (d : Dev) (qid : Nat) (f : Wq → Wq) : Dev :=
  match d.wqFind qid with
  | some q => d.wqSet qid (f q)
  | none => d

/-- Put a queue into RESET: its whole context is zero (R597). -/
def Dev.wqReset (d : Dev) (qid : Nat) : Dev := d.upWq (fun w => { w with queues := w.queues.del qid })

/-- The partition of a queue's function. -/
def Dev.wqPart (d : Dev) (q : Wq) : Option Nat := d.fnPart (wqFn q.ctx)

/-- An absolute index, modulo 2^32. -/
def idx32 (n : Nat) : Nat := n % 4294967296

/-- `a` lies before `b` in a queue's absolute indices. -/
def idxBefore (a b : Nat) : Bool := decide (idx32 (4294967296 + b - a) ≠ 0) && decide (idx32 (4294967296 + b - a) < 2147483648)

/-! ## Descriptors (R314, R330) -/

/-- OPCODE. -/
def descOpcode (x : BitVec 512) : Nat := bvFld x 0 8
/-- FLAGS.EVENT. -/
def descEvent (x : BitVec 512) : Bool := decide (bvFld x 8 1 = 1)
/-- FLAGS.FENCE. -/
def descFence (x : BitVec 512) : Bool := decide (bvFld x 9 1 = 1)
/-- SEQ. -/
def descSeq (x : BitVec 512) : Nat := bvFld x 16 16
/-- USER. -/
def descUser (x : BitVec 512) : Nat := bvFld x 32 32

/-- The opcodes of each class (R310, R390, R478). -/
def opcodeOfClass (cls op : Nat) : Bool :=
  decide (op = 0) ||
  (match cls with
   | 0 => decide (1 ≤ op ∧ op ≤ 7)
   | 1 => decide (op = 0x40)
   | 2 => decide (op = 0x50)
   | 3 => decide (op = 0x60)
   | 4 => decide (op = 0x70 ∨ op = 0x71)
   | _ => false)

/-- The common header obeys R310 and R314. -/
def headerOk (cls : Nat) (x : BitVec 512) : Bool :=
  opcodeOfClass cls (descOpcode x) && decide (bvFld x 10 6 = 0) && decide (bvFld x 96 24 = 0)

/-- A descriptor from the bytes of a ring slot. -/
def descOfBytes (bs : List Byte) : BitVec 512 := BitVec.ofNat 512 (leNat (bs.take 64))

/-! ## Ring accesses (R597, R601) -/

/-- Post WQ_ERROR. -/
def Dev.wqErrorEvent (d : Dev) (qid : Nat) (q : Wq) (st : Status) : Dev :=
  d.post (wqFn q.ctx) .wqError st.code (qid + q.head * 65536)

/-- A ring access of a queue has failed (R601). -/
def Dev.wqRingFail (d : Dev) (qid : Nat) (st : Status) : Dev :=
  match d.wqFind qid with
  | none => d
  | some q =>
    match q.state with
    | .active => (d.wqSet qid { q with state := .error }).wqErrorEvent qid q st
    | .draining | .halted => if q.quiet then d else (d.wqSet qid { q with quiet := true }).wqErrorEvent qid q st
    | _ => d

/-- Where a queue's root puts an address; a failure is recorded and is a failed ring access (R439, R441, R601). -/
def Dev.wqXlate (d : Dev) (qid va : Nat) (write : Bool) : Dev × Option (Nat × Nat) :=
  match d.wqFind qid with
  | none => (d, none)
  | some q =>
    if q.quiet ∨ q.state = .error ∨ q.state = .lost then (d, none)
    else
      match d.translate (wqRoot q.ctx) va write with
      | .ok link bus => (d, some (link, bus))
      | .bad c level entry =>
        let st : Status := if c = .unreadable then .uncorrectable else .translationFault
        let d := d.faultUnit ⟨st, c, level, 1, wqFn q.ctx, 7, write, false, qid, 0, va, 0, wqRoot q.ctx, entry⟩ (wqFn q.ctx)
        (d.wqRingFail qid st, none)

/-- Write to a queue's ring or completion word; answers whether it was written. -/
def Dev.wqWrite (d : Dev) (qid va : Nat) (bs : List Byte) (flagged : Bool) : Dev × Bool :=
  match d.wqXlate qid va true with
  | (d, some (link, bus)) => (d.hostWrite link bus bs flagged, true)
  | (d, none) => (d, false)

/-- The address of the slot of an entry. -/
def wqSlot (q : Wq) (idx : Nat) : Nat := wqRing q.ctx + idx % 2 ^ wqLog2 q.ctx * 64

/-! ## Publishing (R321 to R325) -/

/-- Send a queue's interrupt if it has a vector. -/
def Dev.wqIrq (d : Dev) (q : Wq) : Dev := if wqVector q.ctx = 0xFFFF then d else d.sendMsix (wqFn q.ctx) (wqVector q.ctx)

/-- Post the WQ_DONE events of entries that a written completion word passes (R325). -/
def Dev.wqPostDone (d : Dev) (qid fn : Nat) : List (Nat × Status × Nat) → Dev
  | [] => d
  | (i, st, user) :: r =>
    (d.post fn .wqDone st.code (qid + i * 2 ^ 16 + st.code * 2 ^ 48 + user * 2 ^ 64)).wqPostDone qid fn r

/-- Write the completion word, then the interrupt and the events behind it (R322, R324, R325). -/
def Dev.wqPublish (d : Dev) (qid : Nat) : Dev :=
  match d.wqFind qid with
  | none => d
  | some q =>
    match d.wqWrite qid (wqCword q.ctx) (leBytes 4 q.head ++ leBytes 4 q.fails) true with
    | (d, false) => d
    | (d, true) =>
      let irq := q.arm && decide (wqVector q.ctx ≠ 0xFFFF)
      let past := q.events.filter (fun e => idxBefore e.1 q.head)
      let rest := q.events.filter (fun e => !idxBefore e.1 q.head)
      let d := d.wqSet qid { q with unpub := false, news := !irq, arm := q.arm && !irq, events := rest }
      let d := if irq then d.wqIrq q else d
      d.wqPostDone qid (wqFn q.ctx) past

/-- A drain has ended: the last completion word goes out at once and the queue enters RESET (R312). -/
def Dev.wqDrained (d : Dev) (qid : Nat) : Dev :=
  match d.wqFind qid with
  | none => d
  | some q =>
    if q.state = .draining ∧ q.next = q.tail ∧ q.started = [] ∧ q.finished = [] then (d.wqPublish qid).wqReset qid else d

/-- Advance HEAD past completed entries (R321). -/
def headAdvance (complete : List Nat) : Nat → Nat → Nat
  | 0, h => h
  | n + 1, h => if complete.contains h then headAdvance complete n (idx32 (h + 1)) else h

/-- Complete one entry: the write-backs of R323 and R392, then HEAD (R321). -/
def Dev.wqComplete (d : Dev) (qid : Nat) (x : WqDone) : Dev :=
  match d.wqFind qid with
  | none => d
  | some q =>
    if q.state = .error ∨ q.state = .lost then d
    else
      let recv := decide (wqClass q.ctx = 1)
      let r0 := if recv && decide (x.status = .ok) then d.wqWrite qid (wqSlot q x.idx + 32) (leBytes 8 x.imm) false else (d, true)
      let r := if recv || decide (x.status ≠ .ok) then
          r0.1.wqWrite qid (wqSlot q x.idx + 8) (leBytes 4 x.bytes ++ leBytes 3 0 ++ leBytes 1 x.status.code) false else r0
      let d := r.1
      match d.wqFind qid with
      | none => d
      | some q =>
        if q.state = .error then d
        else
          let done := q.complete ++ [x.idx]
          let h := headAdvance done done.length q.head
          let q := { q with
            complete := done.filter (fun i => !idxBefore i h), head := h, unpub := q.unpub || decide (h ≠ q.head),
            fails := if x.status = .ok then q.fails else idx32 (q.fails + 1),
            events := if descEvent x.desc then q.events ++ [(x.idx, x.status, descUser x.desc)] else q.events }
          (d.wqSet qid q).wqDrained qid

/-! ## Finishing entries -/

/-- An engine has finished a started entry; its completion follows (ENTRY_COMPLETION). -/
def Dev.wqFinish (d : Dev) (qid idx : Nat) (st : Status) (bytes imm : Nat) : Dev :=
  d.wqUpd qid (fun q =>
    match q.started.find? (fun e => decide (e.idx = idx)) with
    | some e =>
      { q with started := q.started.filter (fun e => decide (e.idx ≠ idx)), finished := q.finished ++ [⟨idx, e.desc, st, bytes, imm⟩] }
    | none => q)

/-- A function's malformed-entry mode is HALT (R331). -/
def Dev.haltMode (d : Dev) (fn : Nat) : Bool :=
  let m := d.fget Reg.WQS_MALFORMED_CTL_DEVICE_MODE
  decide (m = 2) || (decide (m = 0 ∨ m = 3) && d.fbit (Reg.WQS_FN_HALTj_HALT (fn / 32)) (fn % 32))

/-- The device is halted (R332). -/
def Dev.halted (d : Dev) : Bool := d.fon Reg.WQS_HALT_INFO_HALTED

/-- Halt the device (R332). -/
def Dev.deviceHalt (d : Dev) (qid idx fn : Nat) : Dev :=
  if d.halted then d
  else
    let d := d.upWq (fun w =>
      { w with queues := w.queues.mapVal (fun _ q => if q.state = .active then { q with state := .halted } else q) })
    let d := d.fset Reg.WQS_HALT_INFO_QID qid
    let d := d.fset Reg.WQS_HALT_INFO_INDEX idx
    let d := d.fset Reg.WQS_HALT_INFO_STATUS Status.halted.code
    let d := d.fset Reg.WQS_HALT_INFO_HALTED 1
    d.post 0 .deviceHalted Status.halted.code (qid + idx * 2 ^ 16 + fn * 2 ^ 48)

/-- A started entry is malformed (R330 to R332). -/
def Dev.wqMalformed (d : Dev) (qid idx : Nat) : Dev :=
  let d := d.finc Reg.WQS_MALFORMED_COUNT
  match d.wqFind qid with
  | none => d
  | some q =>
    if d.haltMode (wqFn q.ctx) then
      let d := (d.wqWrite qid (wqSlot q idx + 8) (leBytes 7 0 ++ leBytes 1 Status.malformed.code) false).1
      let d := d.wqUpd qid (fun q => { q with started := q.started.filter (fun e => decide (e.idx ≠ idx)) })
      d.deviceHalt qid idx (wqFn q.ctx)
    else d.wqFinish qid idx .malformed 0 0

/-! ## Starting entries (R317, R320) -/

/-- A partition is held by a commit of its own (R77). -/
def Dev.partHeld (d : Dev) (p : Nat) : Bool := d.img.committing.any (fun c => decide (c.part = p))

/-- The next entry of a queue, if WQS would let an engine start it now: the queue is ACTIVE, the entry is fetched, and a
FENCE waits for every earlier entry. -/
def Wq.front (q : Wq) : Option WqEntry :=
  match q.fetched with
  | [] => none
  | e :: _ => if q.state = .active ∧ (descFence e.desc = false ∨ q.head = e.idx) then some e else none

/-- Start the entry at the front of a queue. -/
def Dev.wqStart (d : Dev) (qid : Nat) : Dev :=
  d.wqUpd qid (fun q =>
    match q.fetched with
    | [] => q
    | e :: r => { q with fetched := r, started := q.started ++ [e], next := idx32 (q.next + 1) })

/-- Finish NOPs and malformed headers that have reached the front of a queue (R310, R330); `n` bounds them. -/
def Dev.wqSettle (d : Dev) (qid : Nat) : Nat → Dev
  | 0 => d
  | n + 1 =>
    match d.wqFind qid with
    | none => d
    | some q =>
      match q.front with
      | none => d
      | some e =>
        if !d.fnStarts (wqFn q.ctx) then d
        else if !headerOk (wqClass q.ctx) e.desc then ((d.wqStart qid).wqMalformed qid e.idx).wqSettle qid n
        else if descOpcode e.desc = 0 then ((d.wqStart qid).wqFinish qid e.idx .ok 0 0).wqSettle qid n
        else d

/-- The queue that a service round takes next among those that can start an entry (queue, WEIGHT and BURST, by
ascending QID), and the round after it (R320). -/
def Round.pick (r : Round) (qs : List (Nat × Nat × Nat)) : Option (Nat × Round) :=
  let begun (s : Tab Nat) (q : Nat × Nat × Nat) : Nat × Round :=
    (q.1, ⟨s.set q.1 (s.get 0 q.1 + 1), some q.1, min q.2.2 (q.2.1 - s.get 0 q.1) - 1⟩)
  let open_ := qs.filter (fun (q : Nat × Nat × Nat) => decide (r.started.get 0 q.1 < q.2.1))
  let here := match r.at_ with
    | some a => if r.left = 0 then none else open_.find? (fun (q : Nat × Nat × Nat) => decide (q.1 = a))
    | none => none
  match here with
  | some q => some (q.1, { r with started := r.started.set q.1 (r.started.get 0 q.1 + 1), left := r.left - 1 })
  | none =>
    let after := match r.at_ with
      | some a => open_.find? (fun (q : Nat × Nat × Nat) => decide (a < q.1))
      | none => none
    match after, open_, qs with
    | some q, _, _ => some (begun r.started q)
    | none, q :: _, _ => some (begun r.started q)
    | none, [], q :: _ => some (begun ⟨[]⟩ q)
    | none, [], [] => none

/-- The queues of a class that an engine can start an entry of, with `can` the engine's own limit. -/
def Dev.wqReady (d : Dev) (cls : Nat) (can : Nat → Wq → WqEntry → Bool) : List (Nat × Nat × Nat) :=
  (d.wq.queues.ents.filter (fun p =>
    decide (wqClass p.2.ctx = cls) && d.fnStarts (wqFn p.2.ctx) && (match p.2.front with | some e => can p.1 p.2 e | none => false))).map
    (fun p => (p.1, wqWeight p.2.ctx, wqBurst p.2.ctx))

/-- Start an entry of queue `qid` if the service round of an engine gives it the turn: the entry and the device. -/
def Dev.wqTurn (d : Dev) (eng cls qid : Nat) (can : Nat → Wq → WqEntry → Bool) : Option (Dev × WqEntry) :=
  match (d.wq.rounds.get ⟨⟨[]⟩, none, 0⟩ eng).pick (d.wqReady cls can) with
  | some (q, r) =>
    if q = qid then
      match (d.wqFind qid).bind Wq.front with
      | some e =>
        some ((d.upWq (fun w => { w with rounds := w.rounds.set eng r })).wqStart qid, e)
      | none => none
    else none
  | none => none

/-- Complete every posted entry that has not started with FLUSHED (R312, R389); `n` bounds them. -/
def Dev.wqFlush (d : Dev) (qid : Nat) : Nat → Dev
  | 0 => d
  | n + 1 =>
    match d.wqFind qid with
    | none => d
    | some q =>
      if q.next = q.tail then d
      else
        let desc := match q.fetched with | e :: _ => e.desc | [] => 0
        let d := d.wqSet qid { q with next := idx32 (q.next + 1), fetched := q.fetched.tail, tries := 0 }
        (d.wqComplete qid ⟨q.next, desc, .flushed, 0, 0⟩).wqFlush qid n

/-- The QP that a SEND or RECV queue is bound to is in ERROR (R388). -/
def Dev.boundInError (d : Dev) (q : Wq) : Bool :=
  decide (wqClass q.ctx < 2) && (match d.qpe.qps.find (wqBind q.ctx) with | some x => decide (bvFld x.ctx 0 8 = 4) | none => false)

end Sys2Proof.Machine
end

