-- ==== Sys2Proof/Machine/EthOps.lean ====
section
/-! DEFINITION. Ethernet ports: frames, the Strainer, policing, admission, gates, and staging for transmit (R340 to R379).
The layouts of Ethernet, IP, UDP and RoCEv2 headers are those of their published standards (log entry 41). -/
namespace Sys2Proof.Machine
open Sys2Proof

/-! ## Ports (R340 to R343) -/

/-- MODE of a lane group. -/
def Dev.grpMode (d : Dev) (g : Nat) : Nat := fld (d.regGet Reg.ETH_GRP_MODE).toNat (4 * g) 4

/-- Lanes of each port and port rate in Mb/s of a mode; no lanes for a code that has no ports. -/
def modeShape : Nat → Nat × Nat
  | 0 => (8, 1600000)
  | 1 => (4, 800000)
  | 2 => (2, 400000)
  | 3 => (1, 200000)
  | 4 => (1, 100000)
  | 5 => (1, 50000)
  | 6 => (1, 25000)
  | _ => (0, 0)

/-- Port p exists. -/
def Dev.portExists (d : Dev) (p : Nat) : Bool :=
  let n := (modeShape (d.grpMode (p / 8))).1
  decide (p < 32) && decide (n ≠ 0) && decide (p % n = 0)

/-- The rate of a port in Mb/s. -/
def Dev.portRate (d : Dev) (p : Nat) : Nat := (modeShape (d.grpMode (p / 8))).2

/-- STATE of a port: 0 OFF, 1 DOWN, 2 TRAINING, 3 UP. -/
def Dev.portState (d : Dev) (p : Nat) : Nat := d.fget (Reg.ETH_PORTp_STATUS_STATE p)

/-- A port stays DOWN: its lane group's reference is lost, self-test has found a lane of it bad, it is under test, or the device enters
or is in STANDBY (R544, R559, R562, R583). -/
def Dev.portBarred (d : Dev) (p : Nat) : Bool :=
  let n := (modeShape (d.grpMode (p / 8))).1
  d.pw.erefLost.getLsbD (p / 8) || d.bst.ethBad.any (fun l => decide (p ≤ l) && decide (l < p + n)) ||
  (match d.bst.svc with | some t => decide (t.kind = 3) && decide (t.index = p) | none => false) ||
  decide (d.fget Reg.PWR_STATE_STATE = 1) || d.inStandby

/-- Give a port a state, with the sensor event of R589. -/
def Dev.setPortState (d : Dev) (p st : Nat) : Dev :=
  let old := d.sensorReading (128 + p)
  (d.fset (Reg.ETH_PORTp_STATUS_STATE p) st).noteState (128 + p) old

/-- PTP time in ns. -/
def Dev.ptp (d : Dev) : Nat := (d.regGet Reg.ETH_PTP_NS).toNat

/-! ## Headers -/

/-- The big-endian number of `n` bytes at an offset of a frame. -/
def beAt (b : List Byte) (o n : Nat) : Nat := ((b.drop o).take n).foldl (fun x y => 256 * x + y.toNat) 0

/-- What the headers of a frame say: EtherType after any tag, tag, where the network header starts, and for IP its version,
DSCP, ECN, protocol, destination (IPv4 mapped) and where the transport header starts. -/
structure FrameInfo where
  etype : Nat
  tag : Option Nat
  l3 : Nat
  v4 : Bool
  v6 : Bool
  dscp : Nat
  ecn : Nat
  proto : Nat
  dip : Nat
  l4 : Nat
  deriving DecidableEq, Repr

/-- Read the headers of a frame. -/
def frameInfo (b : List Byte) : FrameInfo :=
  let tagged := decide (beAt b 12 2 = 0x8100)
  let l3 := if tagged then 18 else 14
  let et := beAt b (l3 - 2) 2
  let tag := if tagged then some (beAt b 14 2) else none
  if et = 0x0800 then
    ⟨et, tag, l3, true, false, beAt b (l3 + 1) 1 / 4, beAt b (l3 + 1) 1 % 4, beAt b (l3 + 9) 1,
      0xFFFF * 2 ^ 32 + beAt b (l3 + 16) 4, l3 + 4 * (beAt b l3 1 % 16)⟩
  else if et = 0x86DD then
    ⟨et, tag, l3, false, true, fld (beAt b l3 2) 6 6, fld (beAt b l3 2) 4 2, beAt b (l3 + 6) 1, beAt b (l3 + 24) 16, l3 + 40⟩
  else ⟨et, tag, l3, false, false, 0, 0, 0, 0, l3⟩

/-- The frame carries IP. -/
def FrameInfo.ip (i : FrameInfo) : Bool := i.v4 || i.v6

/-- The destination port of a UDP or TCP frame. -/
def FrameInfo.dport (i : FrameInfo) (b : List Byte) : Nat := if i.ip && decide (i.proto = 17 ∨ i.proto = 6) then beAt b (i.l4 + 2) 2 else 0

/-- The frame is RoCEv2. -/
def FrameInfo.roce (i : FrameInfo) (b : List Byte) : Bool := i.ip && decide (i.proto = 17) && decide (beAt b (i.l4 + 2) 2 = 4791)

/-- The bytes from the BTH to the invariant CRC, as the UDP length gives them. -/
def FrameInfo.bthIcrc (i : FrameInfo) (b : List Byte) : List Byte := (b.drop (i.l4 + 8)).take (beAt b (i.l4 + 4) 2 - 8)

/-- The invariant CRC of a RoCEv2 frame, by its standard's masking. -/
def FrameInfo.icrc (i : FrameInfo) (b : List Byte) : W32 :=
  let ip := (b.drop i.l3).take (i.l4 - i.l3)
  let ip := if i.v4 then listSet (listSet (listSet (listSet ip 1 0xFF) 8 0xFF) 10 0xFF) 11 0xFF
    else listSet (listSet (listSet (listSet (listSet ip 0 0x6F) 1 0xFF) 2 0xFF) 3 0xFF) 7 0xFF
  let udp := listSet (listSet ((b.drop i.l4).take 8) 6 0xFF) 7 0xFF
  let x := i.bthIcrc b
  crc32 (List.replicate 8 0xFF ++ ip ++ udp ++ listSet (x.take (x.length - 4)) 4 0xFF)

/-- The invariant CRC agrees. -/
def FrameInfo.icrcOk (i : FrameInfo) (b : List Byte) : Bool :=
  let x := i.bthIcrc b
  decide (16 ≤ x.length) && decide (leNat (x.drop (x.length - 4)) = (i.icrc b).toNat)

/-- The 40 bytes that a UD receive puts before its payload: an IPv6 header, or an IPv4 header from offset 20 (R392). -/
def FrameInfo.ipBytes (i : FrameInfo) (b : List Byte) : List Byte :=
  if i.v4 then List.replicate 20 0 ++ (b.drop i.l3).take 20 else (b.drop i.l3).take 40

/-- The sum of 16-bit words folded once into 16 bits and inverted: the IPv4 header checksum. -/
def ipSum (h : List Byte) : Nat :=
  let s := (List.range 10).foldl (fun n k => n + beAt h (2 * k) 2) 0
  let s := s % 65536 + s / 65536
  65535 - (s % 65536 + s / 65536)

/-- Write a DSCP into the IP header of a frame (R359). -/
def FrameInfo.mark (i : FrameInfo) (b : List Byte) (dscp : Nat) : List Byte :=
  if i.v4 then
    let b := listSet b (i.l3 + 1) (BitVec.ofNat 8 (4 * dscp + i.ecn))
    let h := listSet (listSet ((b.drop i.l3).take 20) 10 0) 11 0
    let c := ipSum h
    listSet (listSet b (i.l3 + 10) (BitVec.ofNat 8 (c / 256))) (i.l3 + 11) (BitVec.ofNat 8 c)
  else if i.v6 then
    let w := setFld (beAt b i.l3 2) 6 6 dscp
    listSet (listSet b i.l3 (BitVec.ofNat 8 (w / 256))) (i.l3 + 1) (BitVec.ofNat 8 w)
  else b

/-! ## The QP that a packet names -/

/-- A field of a QP context, by byte offset and size. -/
def Qp.get (q : Qp) (o n : Nat) : Nat := bvFld q.ctx (8 * o) (8 * n)

/-- Replace a field of a QP context. -/
def Qp.put (q : Qp) (o n v : Nat) : Qp := { q with ctx := bvSet q.ctx (8 * o) (8 * n) v }

/-- FUNCTION of a QP. -/
def Qp.fn (q : Qp) : Nat := q.get 4 2

/-- A QP that is not in RESET. -/
def Dev.qp (d : Dev) (n : Nat) : Option Qp := d.qpe.qps.find n

/-- OPCODE of a packet. -/
def pktOp (b : List Byte) : Nat := beAt b 0 1
/-- Destination QP. -/
def pktQpn (b : List Byte) : Nat := beAt b 5 3
/-- PSN. -/
def pktPsn (b : List Byte) : Nat := beAt b 9 3

/-! ## Scheduler shapes (R360) -/

/-- The image has a SCHEDULER_SHAPES section. -/
def Dev.shaped (d : Dev) : Bool := decide ((d.sec secSchedulerShapes).len ≠ 0)

/-- SUBSCRIBERS. -/
def Dev.subscribers (d : Dev) : Nat := if d.shaped then (d.sec secSchedulerShapes).u16 0 else 32 * 264

/-- A byte of a port's record; `dflt` when the section is absent. -/
def Dev.portShape (d : Dev) (p o dflt : Nat) : Nat := if d.shaped then (d.sec secSchedulerShapes).u8 (64 + 128 * p + o) else dflt

/-- SP_MASK. -/
def Dev.spMask (d : Dev) (p : Nat) : Nat := d.portShape p 0 255
/-- LOSSLESS_MASK. -/
def Dev.lossless (d : Dev) (p c : Nat) : Bool := (d.portShape p 1 0).testBit c
/-- CBS_MASK. -/
def Dev.cbsOn (d : Dev) (p c : Nat) : Bool := (d.portShape p 2 0).testBit c
/-- WRR_WEIGHT. -/
def Dev.wrr (d : Dev) (p c : Nat) : Nat := d.portShape p (4 + c) 1
/-- IDLE_SLOPE in Mb/s. -/
def Dev.idleSlope (d : Dev) (p c : Nat) : Nat := (d.sec secSchedulerShapes).u32 (64 + 128 * p + 0x10 + 4 * c)
/-- HI_CREDIT in bytes. -/
def Dev.hiCredit (d : Dev) (p c : Nat) : Nat := (d.sec secSchedulerShapes).u32 (64 + 128 * p + 0x30 + 4 * c)

/-- Where a subscriber's entry lies. -/
def subAt (s : Nat) : Nat := 64 + 32 * 128 + 16 * s

/-- FUNCTION, PORT, CLASS, WEIGHT and RATE of a subscriber. -/
def Dev.subFn (d : Dev) (s : Nat) : Nat := if d.shaped then (d.sec secSchedulerShapes).u16 (subAt s) else s / 32
/-- PORT of a subscriber. -/
def Dev.subPort (d : Dev) (s : Nat) : Nat := if d.shaped then (d.sec secSchedulerShapes).u8 (subAt s + 2) else s % 32
/-- CLASS of a subscriber. -/
def Dev.subClass (d : Dev) (s : Nat) : Nat := if d.shaped then (d.sec secSchedulerShapes).u8 (subAt s + 3) else 0
/-- WEIGHT of a subscriber. -/
def Dev.subWeight (d : Dev) (s : Nat) : Nat := if d.shaped then (d.sec secSchedulerShapes).u16 (subAt s + 4) else 1
/-- RATE of a subscriber in Mb/s. -/
def Dev.subRate (d : Dev) (s : Nat) : Nat := if d.shaped then (d.sec secSchedulerShapes).u32 (subAt s + 8) else 0

/-! ## Strainer rules (R347 to R349) -/

/-- A field of a rule, by byte offset and size. -/
def ruleFld (r : BitVec 512) (o n : Nat) : Nat := bvFld r (8 * o) (8 * n)

/-- A rule matches a frame of a port. -/
def ruleMatches (r : BitVec 512) (p : Nat) (i : FrameInfo) (b : List Byte) : Bool :=
  let pre := min 128 (ruleFld r 3 1)
  -- DST_IP is held as 16 bytes in address order
  let want := ((List.range 16).foldl (fun n k => 256 * n + ruleFld r (0x10 + k) 1) 0)
  decide (ruleFld r 0 1 % 2 = 1) &&
  (decide (ruleFld r 4 4 = 0) || (ruleFld r 4 4).testBit p) &&
  (decide (ruleFld r 8 2 = 0) || decide (ruleFld r 8 2 = i.etype)) &&
  (!(ruleFld r 0x0A 2).testBit 15 || (match i.tag with | some t => decide (t % 4096 = ruleFld r 0x0A 2 % 4096) | none => false)) &&
  (!(ruleFld r 0x0C 1).testBit 7 || (i.ip && decide (i.dscp = ruleFld r 0x0C 1 % 64))) &&
  (decide (ruleFld r 0x0D 1 = 0) || (i.ip && decide (i.proto = ruleFld r 0x0D 1))) &&
  (decide (ruleFld r 0x0E 2 = 0) || decide (i.dport b = ruleFld r 0x0E 2)) &&
  (decide (pre = 0) || (i.ip && decide (i.dip / 2 ^ (128 - pre) = want / 2 ^ (128 - pre))))

/-- The rule that applies to a frame. -/
def Dev.ruleFor (d : Dev) (p : Nat) (i : FrameInfo) (b : List Byte) : Option (BitVec 512) :=
  d.eth.rules.vals.find? (fun r => ruleMatches r p i b)

/-- The traffic class of a frame (R348). -/
def Dev.frameClass (d : Dev) (p : Nat) (i : FrameInfo) (r : Option (BitVec 512)) : Nat :=
  let ovr := match r with | some r => (ruleFld r 2 1).testBit 7 | none => false
  if ovr then ((r.map (fun r => ruleFld r 2 1 % 8)).getD 0)
  else if i.ip then fld (d.regGet (Reg.ETH_PORTp_DSCPMAPi p (i.dscp / 8))).toNat (4 * (i.dscp % 8)) 3
  else match i.tag with | some t => fld t 13 3 | none => 0

/-! ## Policing (R356 to R359) -/

/-- Colours. -/
inductive Colour where
  | green | yellow | red
  deriving DecidableEq, Repr

/-- The worse of two colours. -/
def Colour.worse : Colour → Colour → Colour
  | .red, _ => .red
  | _, .red => .red
  | .yellow, _ => .yellow
  | _, .yellow => .yellow
  | _, _ => .green

/-- Where a policer lies in POLICER_TABLES: port records, then function records. -/
def policerAt (k : Nat) : Nat := 64 + 64 * (k / 2) + 32 * (k % 2)

/-- The tokens of a policer now: filled at CIR, and PIR or the overflow of CIR, since they were counted. -/
def Dev.policerFill (d : Dev) (k : Nat) : Bucket :=
  let s := d.sec secPolicerTables
  let o := policerAt k
  let cbs := s.u32 (o + 0x0C) * 256
  let ebs := s.u32 (o + 0x10) * 256
  let x := d.eth.pol.get ⟨cbs, ebs, d.clk⟩ k
  let dt := d.clk - x.last
  let add := s.u32 (o + 4) * dt * 32 / 1000
  if s.u8 o = 2 then ⟨min cbs (x.c + add), min ebs (x.e + s.u32 (o + 8) * dt * 32 / 1000), d.clk⟩
  else if s.u8 o = 1 then ⟨min cbs (x.c + add), min ebs (x.e + (x.c + add - cbs)), d.clk⟩
  else ⟨min cbs (x.c + add), x.e, d.clk⟩

/-- Meter a frame of `n` bytes that arrives at policer k pre-coloured: RFC 2697, RFC 2698, or one bucket. -/
def Dev.meter (d : Dev) (k n : Nat) (pre : Colour) : Dev × Colour :=
  let m := (d.sec secPolicerTables).u8 (policerAt k)
  let b := 256 * n
  let x := d.policerFill k
  let r : Bucket × Colour :=
    if m = 1 then
      if pre = .green ∧ b ≤ x.c then ({ x with c := x.c - b }, .green)
      else if pre ≠ .red ∧ b ≤ x.e then ({ x with e := x.e - b }, .yellow)
      else (x, .red)
    else if m = 2 then
      if pre = .red ∨ x.e < b then (x, .red)
      else if pre = .yellow ∨ x.c < b then ({ x with e := x.e - b }, .yellow)
      else ({ x with c := x.c - b, e := x.e - b }, .green)
    else if m = 3 then (if b ≤ x.c then ({ x with c := x.c - b }, .green) else (x, .red))
    else (x, pre)
  (d.upEth (fun e => { e with pol := e.pol.set k r.1 }), r.2)

/-- MODE of a policer; 0 when the image has no table. -/
def Dev.policerMode (d : Dev) (k : Nat) : Nat := (d.sec secPolicerTables).u8 (policerAt k)

/-- FLAGS, YELLOW_DSCP or RED_DSCP of a policer. -/
def Dev.policerByte (d : Dev) (k o : Nat) : Nat := (d.sec secPolicerTables).u8 (policerAt k + o)

/-- The pre-colour of a frame at a port's policer (R357). -/
def Dev.preColour (d : Dev) (k : Nat) (i : FrameInfo) : Colour :=
  if (d.policerByte k 1).testBit 0 && i.ip then
    if i.dscp = d.policerByte k 3 then .red else if i.dscp = d.policerByte k 2 then .yellow else .green
  else .green

/-- Police a frame: its colour and the DSCP it is marked with, or none when it is dropped (R358, R359). -/
def Dev.police (d : Dev) (p : Nat) (ctl : Bool) (fn : Option Nat) (i : FrameInfo) (n : Nat) : Dev × Option (Colour × Option Nat) :=
  let k1 := 2 * p + b2n ctl
  let r1 : Dev × Colour := if d.policerMode k1 = 0 then (d, .green) else d.meter k1 n (d.preColour k1 i)
  let keep (k : Nat) (c : Colour) : Bool := decide (c ≠ .red) || ((d.policerByte k 1).testBit 1 && !ctl)
  let dscp (k : Nat) (c : Colour) : Option Nat :=
    match c with | .green => none | .yellow => some (d.policerByte k 2) | .red => some (d.policerByte k 3)
  if !keep k1 r1.2 then (r1.1, none)
  else
    match fn with
    | none => (r1.1, some (r1.2, dscp k1 r1.2))
    | some f =>
      let k2 := 64 + 2 * f + b2n ctl
      if r1.1.policerMode k2 = 0 then (r1.1, some (r1.2, dscp k1 r1.2))
      else
        let r2 := r1.1.meter k2 n r1.2
        let c := r1.2.worse r2.2
        if keep k2 r2.2 then (r2.1, some (c, dscp k2 c)) else (r2.1, none)

/-! ## The packet buffer (R351 to R355) -/

/-- Cells that received frames of a port and class hold, outside or in headroom. -/
def Dev.cellsOf (d : Dev) (p c : Nat) (head : Bool) : Nat :=
  (d.eth.inbox.filter (fun x => decide (x.rank = none) && decide (x.port = p) && decide (x.cls = c) && decide (x.head = head))).foldl
    (fun n x => n + x.cells) 0

/-- Headroom cells reserved. -/
def Dev.reserved (d : Dev) : Nat :=
  ((List.range 32).filter d.portExists).foldl (fun n p =>
    (List.range 8).foldl (fun n c => if d.lossless p c then n + d.fget (Reg.ETH_PORTp_BUFc_HEADROOM p c) else n) n) 0

/-- Free cells of the shared pool. -/
def Dev.sharedFree (d : Dev) : Nat :=
  d.fget Reg.ETH_BUF_SPLIT_INGRESS_CELLS - d.eth.retired - d.reserved -
    (d.eth.inbox.filter (fun x => !x.head && decide (x.rank = none))).foldl (fun n x => n + x.cells) 0

/-- What admission decides: shared pool, headroom, or a drop. -/
inductive Admit where
  | shared | headroom | dropped (headroom : Bool)
  deriving DecidableEq, Repr

/-- Admit a frame of `n` cells (R352). -/
def Dev.admitCells (d : Dev) (p c n : Nat) (col : Colour) : Admit :=
  let u := d.cellsOf p c false
  let room := decide (n ≤ d.sharedFree)
  if d.lossless p c then
    if u < d.fget (Reg.ETH_PORTp_BUFc_LIMIT p c) ∧ room = true then .shared
    else if d.cellsOf p c true < d.fget (Reg.ETH_PORTp_BUFc_HEADROOM p c) then .headroom
    else .dropped true
  else
    let lim := if col = .green then d.fget (Reg.ETH_PORTp_BUFc_LIMIT p c) else d.fget (Reg.ETH_PORTp_BUFc_YELLOW p c)
    if u < lim ∧ room = true then .shared else .dropped false

/-- FC_MODE as it acts: 3 acts as 0. -/
def Dev.fcMode (d : Dev) (p : Nat) : Nat := d.fget (Reg.ETH_PORTp_CTL_FC_MODE p) % 3

/-- Send a pause of a class with quanta. -/
def Dev.sendPause (d : Dev) (p c q : Nat) : Dev :=
  if d.fcMode p = 0 ∨ d.portState p ≠ 3 then d
  else (d.emit (.pause p (decide (d.fcMode p = 2)) c q)).finc (Reg.ETH_PORTp_PFC_TX_COUNT p)

/-- After a frame has come in: XOFF when U reaches LIMIT (R355). -/
def Dev.checkXoff (d : Dev) (p c : Nat) : Dev :=
  if d.lossless p c && decide (d.fget (Reg.ETH_PORTp_BUFc_LIMIT p c) ≤ d.cellsOf p c false) && !d.eth.xoff.contains (8 * p + c) then
    (d.upEth (fun e => { e with xoff := e.xoff ++ [8 * p + c] })).sendPause p c 0xFFFF
  else d

/-- After cells have become free: quanta 0 when the sum falls to XON (R355). -/
def Dev.checkXon (d : Dev) (p c : Nat) : Dev :=
  if d.eth.xoff.contains (8 * p + c) && decide (d.cellsOf p c false + d.cellsOf p c true ≤ d.fget (Reg.ETH_PORTp_BUFc_XON p c)) then
    (d.upEth (fun e => { e with xoff := e.xoff.filter (fun k => decide (k ≠ 8 * p + c)) })).sendPause p c 0
  else d

/-- Take the oldest packet for a QP, if it passes a test; its cells become free. -/
def Dev.takeRx (d : Dev) (qpn : Nat) (ok : RxPkt → Bool) : Option (RxPkt × Dev) :=
  match takeFirst (fun (x : RxPkt) => decide (x.qpn = qpn)) d.eth.inbox with
  | some (x, rest) =>
    if ok x then
      let d := d.upEth (fun e => { e with inbox := rest })
      some (x, if x.rank = none then d.checkXon x.port x.cls else d)
    else none
  | none => none

/-! ## MACsec (R376 to R379) -/

/-- A field of an SA entry. -/
def saFld (a : BitVec 256) (o n : Nat) : Nat := bvFld a (8 * o) (8 * n)

/-- The VALID SA of a port for a direction and AN, and one that passes a further test. -/
def Dev.saFor (d : Dev) (p : Nat) (tx : Bool) (an : Nat) (ok : BitVec 256 → Bool) : Option (Nat × BitVec 256) :=
  d.eth.sas.ents.find? (fun q =>
    decide (q.1 / 128 = p) && decide (saFld q.2 0 1 % 2 = 1) && decide (fld (saFld q.2 0 1) 1 1 = b2n tx) &&
    decide (saFld q.2 1 1 = an) && ok q.2)

/-- Extra bytes of a protected frame. -/
def macsecExtra (a : BitVec 256) : Nat := if (saFld a 0 1).testBit 2 then 32 else 24

/-- The 96-bit nonce of a frame: SSCI and packet number, masked with the slot's salt (IEEE 802.1AE; R480). -/
def xpnNonce (salt : BitVec 96) (ssci pn : Nat) : BitVec 96 := salt ^^^ BitVec.ofNat 96 (ssci * 2 ^ 64 + pn)

/-- The full packet number whose low half a frame carries, nearest at or above the lowest acceptable one less half the
range (IEEE 802.1AE). -/
def xpnRecover (low pn : Nat) : Nat :=
  let base := low / 2 ^ 32 * 2 ^ 32 + pn
  if 2 ^ 31 + base < low then 2 ^ 32 + base else base

/-! ## Gates (R364 to R367) -/

/-- Where a port's gate list starts. -/
def gateAt (p l : Nat) : Nat := 64 + (2 * p + l) * 2112

/-- CYCLE_NS, and the entries as interval and gates. -/
def Dev.gateList (d : Dev) (p l : Nat) : Nat × List (Nat × Nat) :=
  let s := d.sec secGateTables
  let o := gateAt p l
  (s.u32 o, listOf (s.u16 (o + 4)) (fun k => (s.u32 (o + 64 + 8 * k), s.u8 (o + 64 + 8 * k + 4))))

/-- The entry and gates at a time into a cycle, and the time left in that entry; the last entry holds to the cycle's
end. -/
def gateWalk (left : Nat) : List (Nat × Nat) → Nat → Nat → Nat × Nat × Nat
  | [], k, _ => (k, 255, left)
  | [(_, g)], k, t => (k, g, left - t)
  | (n, g) :: r, k, t => if t < min n left then (k, g, min n left - t) else gateWalk (left - n) r (k + 1) (t - n)

/-- The entry, gates and time left of a port's list at a PTP time: all open without a list (R364, R365). -/
def Dev.gatesAt (d : Dev) (p t : Nat) : Nat × Nat × Nat :=
  let l := d.fget (Reg.TXS_GATEp_STATUS_ACTIVE_LIST p)
  let (cyc, es) := d.gateList p l
  let base := d.txs.base.get 0 p
  if !d.fon (Reg.TXS_GATEp_CTL_EN p) || es = [] || cyc = 0 || decide (t < base) then (0, 255, 2 ^ 40)
  else gateWalk cyc es 0 ((t - base) % cyc)

/-- Gate c stays open for `need` ns from time t; `n` bounds the entries looked at. -/
def Dev.openFor (d : Dev) (p c : Nat) : Nat → Nat → Nat → Bool
  | 0, _, _ => true
  | n + 1, t, need =>
    let g := d.gatesAt p t
    if !g.2.1.testBit c then false
    else if need ≤ g.2.2 then true
    else d.openFor p c n (t + max 1 g.2.2) (need - max 1 g.2.2)

/-- Every class whose gate opens in a list has an opening for an MTU-sized frame (R367). -/
def Dev.gateListOk (d : Dev) (p l : Nat) : Bool :=
  let (cyc, es) := d.gateList p l
  let extra := if d.fon (Reg.ETH_PORTp_CTL_MACSEC p) then 32 else 0
  let bits := (d.fget (Reg.ETH_PORTp_CTL_MTU p) + 20 + extra) * 8000
  let need := (bits + d.portRate p - 1) / max 1 (d.portRate p) + d.fget (Reg.TXS_GATEp_GUARD_GUARD_NS p)
  -- the longest run of open time of a class over two cycles
  let spans := (List.range es.length).map (fun k =>
    let before := (es.take k).foldl (fun n x => n + x.1) 0
    let stop := if k + 1 = es.length then cyc else min cyc (before + (es.getD k (0, 0)).1)
    (stop - min stop before, (es.getD k (0, 0)).2))
  es = [] ||
  (List.range 8).all (fun c =>
    let runs := (spans ++ spans).foldl (fun (acc : Nat × Nat) x => if x.2.testBit c then (acc.1 + x.1, max acc.2 (acc.1 + x.1)) else (0, acc.2)) (0, 0)
    decide (runs.2 = 0) || spans.all (fun x => x.2.testBit c) || decide (need ≤ runs.2))

/-! ## Staging and the timing wheel (R361, R368) -/

/-- An address is an IPv4 address in mapped form. -/
def isV4 (a : BitVec 128) : Bool := decide (a.toNat / 2 ^ 32 = 0xFFFF)

/-- The length of a frame from destination address through FCS. -/
def frameLen (f : TxFrame) : Nat :=
  14 + (if f.vlan.getLsbD 15 then 4 else 0) + (if isV4 f.dip then 20 else 40) + 8 + f.bytes.length + 4 + 4

/-- A QP or subscriber waits on the wheel. -/
def Dev.onWheel (d : Dev) (who : Nat) : Bool := d.txs.wheel.any (fun w => decide (w.who = who))

/-- The number that stands for a subscriber on the wheel. -/
def subWho (s : Nat) : Nat := 2 ^ 25 + s

/-- Put a QP or subscriber on the wheel for a time in 1/256 ns; a time already past makes it eligible at once. -/
def Dev.wheelEnter (d : Dev) (who time : Nat) : Dev :=
  let now := 256 * d.clk
  let fine := 32768 * 256
  let put (coarse : Bool) (slot : Nat) : Dev := d.upTxs (fun t => { t with wheel := t.wheel ++ [⟨who, time, coarse, slot % 4096⟩] })
  if time ≤ now then d
  else if time - now < fine then put false ((2047 + time) / 2048)
  else if time - now < 4096 * fine then put true (time / fine)
  else (d.finc Reg.TXS_WHEEL_PARK_COUNT).upTxs (fun t => { t with wheel := t.wheel ++ [⟨who, time, true, (4095 + now / fine) % 4096⟩] })

/-- A QP with frames staged that is neither eligible nor on the wheel becomes eligible. -/
def Dev.activate (d : Dev) (who : Nat) : Dev :=
  if d.txs.order.contains who || d.onWheel who || !(d.txs.ready.any (fun f => decide (f.who = who))) then d
  else d.upTxs (fun t => { t with order := t.order ++ [who] })

/-- The bytes a subscriber has ready. -/
def Dev.subDepth (d : Dev) (s : Nat) : Nat := (d.txs.ready.filter (fun f => decide (f.sub = s))).foldl (fun n f => n + frameLen f) 0

/-- How long the oldest waiting frame of a subscriber has been ready. -/
def Dev.subDelay (d : Dev) (s : Nat) : Nat :=
  match d.txs.ready.find? (fun f => decide (f.sub = s)) with
  | some f => d.clk - f.ready
  | none => 0

/-- Raise a subscriber's high-water marks. -/
def Dev.hwmNote (d : Dev) (s : Nat) : Dev :=
  let m := d.txs.hwm.get (0, 0) s
  d.upTxs (fun t => { t with hwm := t.hwm.set s (max m.1 (min 0xFFFFFFFF (d.subDepth s)), max m.2 (min 0xFFFFFFFF (d.subDelay s))) })

/-- Stage a frame. -/
def Dev.stage (d : Dev) (f : TxFrame) : Dev :=
  let k := 8 * f.sub + f.cls
  let active := d.txs.ready.any (fun g => decide (g.sub = f.sub) && decide (g.cls = f.cls))
  let d := d.upTxs (fun t =>
    { t with ready := t.ready ++ [f],
             start := if active then t.start else t.start.set k (t.vtime.get 0 (8 * f.port + f.cls)) })
  (d.activate f.who).hwmNote f.sub

/-- A tag lies before another modulo 2^48. -/
def tagBefore (a b : Nat) : Bool := decide ((2 ^ 48 + b - a % 2 ^ 48) % 2 ^ 48 < 2 ^ 47) && decide (a % 2 ^ 48 ≠ b % 2 ^ 48)

/-- The later of two tags. -/
def tagMax (a b : Nat) : Nat := if tagBefore a b then b else a

/-! ## Rings under roots of PF0 (R266, R371) -/

/-- The pieces of a range that lie in one 4 KiB page each: address and length. -/
def pagesOf (a n : Nat) : List (Nat × Nat) :=
  (List.range ((4095 + a % 4096 + n) / 4096)).map (fun k =>
    let lo := if k = 0 then a else a / 4096 * 4096 + 4096 * k
    (lo, min (a + n) (a / 4096 * 4096 + 4096 * (k + 1)) - lo))

/-- Write bytes at an address under a root; answers whether every page translated, and writes nothing otherwise. -/
def Dev.rootWrite (d : Dev) (root a : Nat) (bs : List Byte) (flagged : Bool) : Dev × Bool :=
  let ps := pagesOf a bs.length
  if ps.all (fun p => match d.translate root p.1 true with | .ok _ _ => true | .bad _ _ _ => false) then
    (ps.foldl (fun d p =>
      match d.translate root p.1 true with
      | .ok link bus => d.hostWrite link bus ((bs.drop (p.1 - a)).take p.2) flagged
      | .bad _ _ _ => d) d, true)
  else (d, false)

/-- A root of PF0. -/
def Dev.pf0Root (d : Dev) (r : Nat) : Bool := decide ((d.dtu.roots.find r).map (·.fn) = some 0)

end Sys2Proof.Machine
end

