-- ==== Sys2Proof/Machine/KeyOps.lean ====
section
/-! DEFINITION. Moving the units of a transfer under a memory-region key (R426, R427, R437, R439). -/
namespace Sys2Proof.Machine
open Sys2Proof

/-- How a unit failed: its status, first address, the bytes moved before it, and for a failed check the cause, level,
root and last table entry of its fault record. -/
structure UnitFail where
  st : Status
  addr : Nat
  done : Nat
  check : Option (FaultCause × Nat × Nat × W64)
  /-- It failed in device memory at `addr`. -/
  mem : Bool
  deriving DecidableEq, Repr

/-- A transfer's context for records: kind and context number of R439, partition, function and key. -/
structure UnitCtx where
  kind : Nat
  ctx : Nat
  part : Nat
  fn : Nat
  key : Nat
  deriving DecidableEq, Repr

/-- The 4 KiB-aligned pieces of a range; none of an empty one. -/
def piecesOf (a n : Nat) : List (Nat × Nat) := if n = 0 then [] else pagesOf a n

/-- Bytes `o` to `o + n` of a list, with zeros past its end. -/
def sliceOf (bs : List Byte) (o n : Nat) : List Byte :=
  let x := (bs.drop o).take n
  x ++ List.replicate (n - x.length) 0

/-- Read the units of a transfer in order: what they hold and the first that fails.  Bytes of EXTERNAL memory come from
`rd`, which holds the whole transfer. -/
def Dev.readUnits (d : Dev) (u : KeyUser) (key : Nat) (rd : HostRead) : Nat → List (Nat × Nat) → Dev × List Byte × Option UnitFail
  | _, [] => (d, [], none)
  | done, (a, n) :: r =>
    match d.checkKey key u a n with
    | .bad st c l rt e => (d, [], some ⟨st, a, done, some (c, l, rt, e), false⟩)
    | .dev p =>
      match d.memStatus false p n with
      | .ok =>
        let x := (d.noteAccess false p n).readUnits u key rd (done + n) r
        (x.1, d.memBytes p n ++ x.2.1, x.2.2)
      | st => (d, [], some ⟨st, p, done, none, true⟩)
    | .bus link _ =>
      if !d.linkUp link then (d, [], some ⟨.hostLost, a, done, none, false⟩)
      else
        match rd with
        | .ok bs =>
          let x := d.readUnits u key rd (done + n) r
          (x.1, sliceOf bs done n ++ x.2.1, x.2.2)
        | .lost => (d, [], some ⟨.hostLost, a, done, none, false⟩)
        | .poisoned => (d, [], some ⟨.uncorrectable, a, done, none, false⟩)

/-- Read a transfer of `n` bytes at `a`. -/
def Dev.keyRead (d : Dev) (u : KeyUser) (key a n : Nat) (rd : HostRead) : Dev × List Byte × Option UnitFail :=
  d.readUnits u key rd 0 (piecesOf a n)

/-- Write the units of a transfer in order up to the first that fails. -/
def Dev.writeUnits (d : Dev) (u : KeyUser) (key : Nat) (bs : List Byte) (flagged : Bool) : Nat → List (Nat × Nat) → Dev × Option UnitFail
  | _, [] => (d, none)
  | done, (a, n) :: r =>
    match d.checkKey key u a n with
    | .bad st c l rt e => (d, some ⟨st, a, done, some (c, l, rt, e), false⟩)
    | .dev p =>
      match d.memStatus true p n with
      | .ok =>
        if d.writeSpoilt p n then (d.memWrite p (sliceOf bs done n), some ⟨.uncorrectable, p, done, none, true⟩)
        else (d.memWrite p (sliceOf bs done n)).writeUnits u key bs flagged (done + n) r
      | st => (d, some ⟨st, p, done, none, true⟩)
    | .bus link b =>
      if !d.linkUp link then (d, some ⟨.hostLost, a, done, none, false⟩)
      else (d.hostWrite link b (sliceOf bs done n) flagged).writeUnits u key bs flagged (done + n) r

/-- Write bytes at `a`. -/
def Dev.keyWrite (d : Dev) (u : KeyUser) (key a : Nat) (bs : List Byte) (flagged : Bool) : Dev × Option UnitFail :=
  d.writeUnits u key bs flagged 0 (piecesOf a bs.length)

/-- Record a unit that failed (R439, R441, R508): its fault record and FAULT, the record of a bad word, or the count of a
missing key. -/
def Dev.unitFault (d : Dev) (c : UnitCtx) (f : UnitFail) (write atomic : Bool) : Dev :=
  match f.check with
  | some (cause, level, root, entry) =>
    let e := d.mrEntry (c.key / 256)
    let fn := if mrState e = 1 ∧ mrGen e = c.key % 256 then mrFunction e else c.fn
    d.faultUnit ⟨f.st, cause, level, 1, fn, c.kind, write, atomic, c.ctx, c.key, f.addr, f.done, root, entry⟩
      (if c.fn = 0xFFFF then 0 else c.fn)
  | none =>
    if f.mem = true ∧ f.st = .uncorrectable then d.badWordRecord f.addr 65536 1 c.kind c.part c.fn c.ctx
    else d.keyEmptyNote f.st

end Sys2Proof.Machine
end

