-- ==== Sys2Proof/Machine/TrustOps.lean ====
section
/-! DEFINITION. Fused values, derived keys and measurements (R489 to R496). -/
namespace Sys2Proof.Machine
open Sys2Proof

/-- The bytes of a 256-bit value, the first in its low bits. -/
def bytes256 (x : BitVec 256) : List Byte := leBytes 32 x.toNat

/-- HMAC-SHA-256. -/
def hmac256 (key msg : List Byte) : List Byte :=
  let k := if 64 < key.length then bytes256 (sha256 key) else key
  let pad (x : Byte) : List Byte := (List.range 64).map (fun i => (k.getD i 0) ^^^ x)
  bytes256 (sha256 (pad 0x5C ++ bytes256 (sha256 (pad 0x36 ++ msg))))

/-- Blocks of HKDF-Expand. -/
def hkdfBlocks (prk info : List Byte) : Nat → Nat → List Byte → List Byte
  | 0, _, _ => []
  | n + 1, i, t =>
    let t := hmac256 prk (t ++ info ++ leBytes 1 i)
    t ++ hkdfBlocks prk info n (i + 1) t

/-- HKDF-SHA-256 with a salt of 32 zero bytes: `n` bytes (R493). -/
def hkdf (ikm info : List Byte) (n : Nat) : List Byte :=
  (hkdfBlocks (hmac256 (List.replicate 32 0) ikm) info ((n + 31) / 32) 1 []).take n

/-- The bytes of an ASCII string. -/
def ascii (s : String) : List Byte := s.toList.map (fun c => BitVec.ofNat 8 c.toNat)

/-- The DeviceID public key. -/
def deviceIdPk : List Byte := Config.slhPublic (hkdf Config.uds (ascii "HL6400 DeviceID") 48)

/-- SHA-256 of the DeviceID public key. -/
def devidHash : BitVec 256 := sha256 deviceIdPk

/-- IMAGE_PK matches the hash in its separate bank (R490). -/
def imagePkOk : Bool := decide (sha256 Config.imagePk = Config.imagePkHash)

/-- DEBUG_PK matches the hash in its separate bank. -/
def debugPkOk : Bool := decide (sha256 Config.debugPk = Config.debugPkHash)

/-- SEC_ROLLBACK.COUNT (R491). -/
def Dev.rollback (d : Dev) : Nat := popBits 64 d.tr.fuses.toNat

/-- OWNER_KEY is programmed. -/
def Dev.ownerSet (d : Dev) : Bool := d.tr.owner.isSome

/-- The device import key (R493). -/
def Dev.importKey (d : Dev) : BitVec 256 := d.tr.owner.getD (BitVec.ofNat 256 (leNat (hkdf Config.uds (ascii "HL6400 Import") 32)))

/-- M1 (R496). -/
def Dev.m1 (d : Dev) : List Byte :=
  bytes256 (sha256 (leBytes 4 (d.regGet Reg.GLB_ID).toNat ++ bytes256 Config.imagePkHash ++ bytes256 Config.debugPkHash))

/-- The alias public key. -/
def Dev.aliasPk (d : Dev) : List Byte := Config.slhPublic (hkdf d.tr.cdi (ascii "HL6400 Alias") 48)

/-- The alias certificate. -/
def Dev.aliasCert (d : Dev) : List Byte := Config.aliasCert d.aliasPk d.m1 d.tr.m2 d.tr.m3 d.tr.m4

/-- The certificate chain of slot 0 (R497). -/
def Dev.certChain (d : Dev) : List Byte := bytes256 Config.rootHash ++ Config.certStore ++ d.aliasCert

/-- M3 and M4 as they stand now. -/
def Dev.freeze (d : Dev) : Dev :=
  d.upTr (fun t => { t with
    m3 := leBytes 2 (d.fget Reg.GLB_IMAGE_INFO_SECURITY_VERSION) ++ leBytes 1 d.rollback ++ leBytes 1 (b2n d.ownerSet),
    m4 := leBytes 1 (d.fget Reg.SEC_DEBUG_LEVEL) ++ leBytes 3 0 })

/-- Derive the CDI and start to make the alias key pair and its certificate (R493, R495). -/
def Dev.deriveAlias (d : Dev) : Dev :=
  d.upTr (fun t => { t with cdi := hmac256 (hkdf Config.uds (ascii "HL6400 CDI") 32) (d.m1 ++ t.m2 ++ t.m3 ++ t.m4), aliasBusy := true })

/-- JTAG closes: the TAP falls back to BYPASS unless its instruction is one that every debug level leaves (R74, R499, R577). -/
def Dev.tapClose (d : Dev) : Dev := d.upPw (fun p => { p with tap := if p.tap = .idcode then .idcode else .bypass })

/-- A whole image has been committed: its measurements, the alias keys and both connections (R496, R498). -/
def Dev.trustCommit (d : Dev) (header : List Byte) : Dev :=
  let d := d.freeze.upTr (fun t => { t with m2 := bytes256 (sha256 header), m5 := List.replicate 32 0, doe := 1, mctp := 1, signing := none })
  d.deriveAlias

/-- A partition-scoped image of partition p has been committed (R496). -/
def Dev.trustPartCommit (d : Dev) (p : Nat) (header : List Byte) : Dev :=
  d.upTr (fun t => { t with m5 := bytes256 (sha256 (t.m5 ++ leBytes 1 p ++ bytes256 (sha256 header))) })

/-- The image has been discarded: no image is measured, and the debug level is SCAN again (R499, R500). -/
def Dev.trustDiscard (d : Dev) : Dev :=
  (d.fset Reg.SEC_DEBUG_LEVEL 1).upTr (fun t => { t with token := false, m2 := List.replicate 32 0, m5 := List.replicate 32 0 })

end Sys2Proof.Machine
end

