-- ==== Sys2Proof/Machine/Cipher.lean ====
section
/-! DEFINITION. Caddy: key slots and CIPHER streams (chapter 14). -/
namespace Sys2Proof.Machine
open Sys2Proof

/-! ## Key slots (R472 to R476) -/

/-- A CAD command. -/
def onCad (s : State) (f : Dev → Dev) : Host.Outcome State Fault Refusal :=
  onDev s (fun d => d.command Reg.CAD_CMD_STATUS_BUSY Reg.CAD_CMD_STATUS_CMD_ERR f)

/-- Report the outcome of a CAD command. -/
def Dev.cadStatus (d : Dev) (st : Status) : Dev := (d.fset Reg.CAD_CMD_STATUS_STATUS st.code).fset Reg.CAD_CMD_STATUS_BUSY 0

/-- Change a slot. -/
def Dev.updSlot (d : Dev) (n : Nat) (f : KeySlot → KeySlot) : Dev := d.upCad (fun c => { c with slots := c.slots.upd ⟨false, 0, 0, 0, false⟩ n f })

/-- The key that unwraps a slot's record; none when the parent slot is EMPTY. -/
def Dev.parentKey (d : Dev) (n : Nat) : Option (BitVec 256) :=
  if d.slotParent n = 0xFFFF then some d.importKey
  else if (d.slot (d.slotParent n)).loaded then some (keyK1 (d.slot (d.slotParent n)).key) else none

/-- An unwrapped record names the slot and its mode, and its other fields are in order (R473, R474). -/
def recordOk (r : List Byte) (n mode : Nat) : Bool :=
  let xts := decide (mode = 2 ∨ mode = 3)
  decide (leNat ((r.drop 0x4C).take 2) = n) && decide (leNat ((r.drop 0x4E).take 1) = mode) && decide (leNat ((r.drop 0x4F).take 1) = 0) &&
    (if xts then decide (r.take 32 ≠ (r.drop 32).take 32) else decide (leNat ((r.drop 32).take 32) = 0)) &&
    (decide (mode = 5) || decide (leNat ((r.drop 0x40).take 12) = 0))

/-- Carry out an import whose target no longer holds an erased key (R474). -/
def Dev.importKeyInto (d : Dev) (n : Nat) (rd : HostRead) : Dev :=
  match d.parentKey n, rd with
  | none, _ => d.cadStatus .keyRevoked
  | some _, .lost => d.cadStatus .hostLost
  | some _, .poisoned => d.cadStatus .uncorrectable
  | some k, .ok bs =>
    match kwUnwrap k (sliceOf bs 0 88) with
    | none => (d.finc Reg.CAD_AUTH_FAIL_COUNT).cadStatus .authFail
    | some r =>
      if !recordOk r n (d.slotMode n) then d.cadStatus .malformed
      else
        (d.updSlot n (fun s => { s with loaded := true, key := BitVec.ofNat 512 (leNat (r.take 64)), salt := BitVec.ofNat 96 (leNat ((r.drop 0x40).take 12)),
                                        imports := min 255 (s.imports + 1) })).cadStatus .ok

/-- IMPORT: unwraps the key record at CAD_IMPORT_ADDR into a slot; `rd` is what the read of the blob brought.  While the slot's erased
key is still being used, the import waits (R474, R475). -/
def execImport (slot : Fin 16384) (rd : HostRead) (s : State) : Host.Outcome State Fault Refusal :=
  onCad s (fun d =>
    let n := slot.val
    if !d.committed || decide (d.slotMode n = 0) || (d.slot n).loaded then d.cadStatus .accessError
    else if (d.slot n).old then (d.fset Reg.CAD_CMD_STATUS_BUSY 1).upCad (fun c => { c with waiting := some (n, rd) })
    else d.importKeyInto n (if d.linkUp 0 then rd else .lost))

/-- A unit on a pipeline holds the key that slot n held. -/
def Dev.keyInUse (d : Dev) (n : Nat) : Bool := d.cad.streams.vals.any (fun x => decide (bvFld x.desc 352 16 = n) && !x.running.isEmpty)

/-- ERASE: empties a key slot; its key material stays with the units that hold it until they end (R475). -/
def execErase (slot : Fin 16384) (s : State) : Host.Outcome State Fault Refusal :=
  onCad s (fun d =>
    let n := slot.val
    let d :=
      if !(d.slot n).loaded then d
      else if d.keyInUse n then d.updSlot n (fun s => { s with loaded := false, old := true })
      else d.updSlot n (fun s => { s with loaded := false, key := 0, salt := 0 })
    d.cadStatus .ok)

/-- KEY_OVERWRITE: the last unit under an erased key has ended, and the key material is overwritten; an IMPORT that waits for the
slot runs (R475). -/
def execKeyOverwrite (slot : Fin 16384) (s : State) : Host.Outcome State Fault Refusal :=
  onDev s (fun d =>
    let n := slot.val
    if !d.running || !(d.slot n).old || d.keyInUse n then d
    else
      let d := d.updSlot n (fun s => { s with key := 0, salt := 0, old := false })
      match d.cad.waiting with
      | some (m, rd) => if m = n then (d.upCad (fun c => { c with waiting := none })).importKeyInto n rd else d
      | none => d)

/-- QUERY: a slot's fields and check value in CAD_SLOT_INFO (R476). -/
def execQuery (slot : Fin 16384) (s : State) : Host.Outcome State Fault Refusal :=
  onCad s (fun d =>
    let n := slot.val
    let x := d.slot n
    let check := if x.loaded then (kcv (keyK1 x.key)).toNat else 0
    (d.regSet Reg.CAD_SLOT_INFO (BitVec.ofNat 64 (b2n x.loaded + d.slotMode n * 2 + x.imports * 2 ^ 8 + d.slotOwner n * 2 ^ 16 + d.slotParent n * 2 ^ 24 +
      check * 2 ^ 40))).cadStatus .ok)

/-! ## Streams (R478, R479) -/

/-- Fields of a CIPHER entry. -/
def cSrc (x : BitVec 512) : Nat := bvFld x 128 64
/-- DST_ADDR. -/
def cDst (x : BitVec 512) : Nat := bvFld x 192 64
/-- SRC_KEY. -/
def cSrcKey (x : BitVec 512) : Nat := bvFld x 256 32
/-- DST_KEY. -/
def cDstKey (x : BitVec 512) : Nat := bvFld x 288 32
/-- LENGTH. -/
def cLen (x : BitVec 512) : Nat := bvFld x 320 32
/-- KEY_SLOT. -/
def cSlot (x : BitVec 512) : Nat := bvFld x 352 16
/-- DU_SHIFT. -/
def cShift (x : BitVec 512) : Nat := bvFld x 368 8
/-- TWEAK. -/
def cTweak (x : BitVec 512) : Nat := bvFld x 384 128

/-- DU_SHIFT and LENGTH are permitted. -/
def cipherLenOk (x : BitVec 512) : Bool :=
  decide (9 ≤ cShift x) && decide (cShift x ≤ 16) && decide (cLen x % 2 ^ cShift x = 0) && decide (2 ^ cShift x ≤ cLen x) && decide (cLen x ≤ 2 ^ 30)

/-- End stream k: its entry finishes with a status. -/
def Dev.streamEnd (d : Dev) (k : Nat) (st : Status) : Dev :=
  match d.cad.streams.find k with
  | none => d
  | some x => (d.upCad (fun c => { c with streams := c.streams.del k })).wqFinish x.qid x.idx st 0 0

/-- Pipelines that hold units of streams. -/
def Dev.pipesUsed (d : Dev) : Nat := (d.cad.streams.vals.map (fun x => x.running.length)).foldl (· + ·) 0

/-- The AES blocks of an XTS data unit (R465). -/
def xtsBlocks (n : Nat) : Nat := n / 16 + 1

/-- Who reads and writes for a stream. -/
def CadStream.user (x : CadStream) (write : Bool) : KeyUser := ⟨if write then rLocalWrite else rLocalRead, write, some x.fn, none, false⟩

/-- A stream's context for records. -/
def CadStream.ctx (x : CadStream) (k key : Nat) : UnitCtx := ⟨5, k, x.part, x.fn, key⟩

/-- Where both keys name regions of one space. -/
def Dev.sameSpace (d : Dev) (a b : Nat) : Bool :=
  let x := d.mrEntry (a / 256)
  let y := d.mrEntry (b / 256)
  decide (mrKind x = mrKind y) && (decide (mrKind x = 1) || decide (mrRoot x = mrRoot y))

/-- SRC and DST overlap without being equal, so that DST is undefined (R479). -/
def Dev.cipherOverlap (d : Dev) (x : BitVec 512) : Bool :=
  d.sameSpace (cSrcKey x) (cDstKey x) && decide (cSrc x ≠ cDst x) && decide (cSrc x < cDst x + cLen x) && decide (cDst x < cSrc x + cLen x)

/-- `n` free bytes (log entry 4). -/
def Dev.freeBytes (d : Dev) (n : Nat) : Dev × List Byte :=
  ({ d with fresh := d.fresh + 1 }, leBytes n (Config.freeValue (8 * n) d.fresh).toNat)

/-- The units of a stream above one that failed, and on pipelines: what they have written is undefined (R479). -/
def Dev.spoilUnits (d : Dev) (x : CadStream) (units : List Nat) : Dev :=
  let n := 2 ^ cShift x.desc
  units.foldl (fun d u =>
    let r := d.freeBytes n
    (r.1.keyWrite (x.user true) (cDstKey x.desc) (cDst x.desc + u * n) r.2 false).1) d

/-- Put units of stream k on free pipelines, up to 8 at once, each with the key its slot holds as it is checked; a unit that finds the
slot EMPTY ends the stream once those before it have ended (R475, R479); `n` bounds the units. -/
def Dev.streamFill (d : Dev) (k : Nat) : Nat → Dev
  | 0 => d
  | n + 1 =>
    match d.cad.streams.find k with
    | none => d
    | some x =>
      let units := cLen x.desc / 2 ^ cShift x.desc
      if x.ended.isSome || decide (8 ≤ x.running.length) || decide (units ≤ x.next) || decide (d.fget Reg.CAD_PIPES_ACTIVE ≤ d.pipesUsed) then d
      else
        let slot := d.slot (cSlot x.desc)
        let put (y : CadStream) : Dev := d.upCad (fun c => { c with streams := c.streams.set k y })
        if slot.loaded then (put { x with next := x.next + 1, running := x.running ++ [(x.next, slot.key)] }).streamFill k n
        else
          let d := d.finc Reg.CAD_KEY_EMPTY_COUNT
          if x.running.isEmpty then d.streamEnd k .keyRevoked
          else d.upCad (fun c => { c with streams := c.streams.set k { x with ended := some .keyRevoked } })

/-- A started CIPHER entry becomes a stream, or ends at once (R479). -/
def Dev.streamStart (d : Dev) (qid : Nat) (q : Wq) (e : WqEntry) : Dev :=
  let p := (d.wqPart q).getD 32
  if bvFld e.desc 376 8 ≠ 0 then d.wqMalformed qid e.idx
  else if !cipherLenOk e.desc then d.wqFinish qid e.idx .lengthError 0 0
  else if !d.slotAllows (cSlot e.desc) 3 p then d.wqFinish qid e.idx .accessError 0 0
  else
    match (List.range 256).find? (fun k => (d.cad.streams.find k).isNone) with
    | none => d
    | some k => (d.upCad (fun c => { c with streams := c.streams.set k ⟨qid, e.idx, e.desc, wqFn q.ctx, p, 0, [], none⟩ })).streamFill k 9

/-- The entry at the front of a CIPHER queue starts in its turn, when it has an opcode and a stream is free. -/
def Dev.cipherTurn (d : Dev) (qid op : Nat) : Dev :=
  if !d.live then d
  else
    match d.wqFind qid with
    | none => d
    | some q =>
      match q.front with
      | none => d
      | some e =>
        if wqClass q.ctx ≠ 4 ∨ descOpcode e.desc ≠ op ∨ 256 ≤ d.cad.streams.ents.length then d
        else
          match d.wqTurn 5 4 qid (fun _ _ _ => true) with
          | some (d, e) => d.streamStart qid q e
          | none => d

/-- XTS_ENCRYPT: the entry at the front of a CIPHER queue starts an encryption stream. -/
def execXtsEncrypt (qid : BitVec 16) (s : State) : Host.Outcome State Fault Refusal := onDev s (fun d => d.cipherTurn qid.toNat 0x70)

/-- XTS_DECRYPT: the entry at the front of a CIPHER queue starts a decryption stream. -/
def execXtsDecrypt (qid : BitVec 16) (s : State) : Host.Outcome State Fault Refusal := onDev s (fun d => d.cipherTurn qid.toNat 0x71)

/-- The first unit of a stream fails: it writes nothing, units above it are undefined, and the stream ends (R479). -/
def Dev.streamFail (d : Dev) (k : Nat) (x : CadStream) (st : Status) : Dev :=
  (d.spoilUnits x ((x.running.drop 1).map (·.1))).streamEnd k st

/-- UNIT_DONE: the lowest unit of a stream that is on a pipeline is read, ciphered and written, and the pipeline takes another unit;
`rd` is what a read of the unit's source from the host brought (R466, R479). -/
def execUnitDone (stream : Fin 256) (rd : HostRead) (s : State) : Host.Outcome State Fault Refusal :=
  onDev s (fun d =>
    let k := stream.val
    match d.live, d.cad.streams.find k with
    | true, some x =>
      match x.running with
      | [] => d.streamFill k 9
      | (u, key) :: rest =>
        let n := 2 ^ cShift x.desc
        match (d.readEnd (.stream stream)).keyRead (x.user false) (cSrcKey x.desc) (cSrc x.desc + u * n) n rd with
        | (d, _, some f) => (d.unitFault (x.ctx k (cSrcKey x.desc)) f false false).streamFail k x f.st
        | (d, bs, none) =>
          let tweak := BitVec.ofNat 128 (cTweak x.desc + u)
          let out := if descOpcode x.desc = 0x70 then xtsEncrypt key tweak bs else xtsDecrypt key tweak bs
          let r := if d.cipherOverlap x.desc then d.freeBytes n else (d, sliceOf out 0 n)
          match r.1.keyWrite (x.user true) (cDstKey x.desc) (cDst x.desc + u * n) r.2 false with
          | (d, some f) => (d.unitFault (x.ctx k (cDstKey x.desc)) f true false).streamFail k x f.st
          | (d, none) =>
            let d := (d.cadBlocks 3 (xtsBlocks n)).upCad (fun c => { c with streams := c.streams.set k { x with running := rest } })
            if !rest.isEmpty then d.streamFill k 9
            else
              match x.ended with
              | some st => d.streamEnd k st
              | none => if cLen x.desc / n ≤ x.next then d.streamEnd k .ok else d.streamFill k 9
    | _, _ => d)

/-- End every stream that passes a test (R454, R479): what its units on pipelines have written, but for the first, is undefined. -/
def Dev.streamsEnd (d : Dev) (hit : CadStream → Bool) (st : Status) : Dev :=
  (d.cad.streams.ents.filter (fun p => hit p.2)).foldl (fun d p => d.streamFail p.1 p.2 st) d

end Sys2Proof.Machine
end

