-- ==== Sys2Proof/Machine/Flags.lean ====
section
/-! DEFINITION. Number formats, rounding and the arithmetic flags of a tile (R87 to R115): every value is an exact
dyadic number until its one rounding. -/
namespace Sys2Proof.Machine
open Sys2Proof

/-! ## AFLAGS (R114) -/

/-- `AFLAGS.NANIN`: a NaN element or a 0xFF scale was consumed. -/
def flNANIN : W32 := 1
/-- `AFLAGS.INV`: NaN from non-NaN operands. -/
def flINV : W32 := 2
/-- `AFLAGS.OVF`: infinity from finite operands. -/
def flOVF : W32 := 4
/-- `AFLAGS.CSAT`: a conversion or quantisation clamped, or NaN went to an integer. -/
def flCSAT : W32 := 8
/-- `AFLAGS.ISAT`: an integer accumulation clamped. -/
def flISAT : W32 := 16
/-- `AFLAGS.UNF`: an inexact result below the normal range. -/
def flUNF : W32 := 32

/-- A result word and the flags its computation raises. -/
structure Flagged (α : Type) where
  /-- The result. -/
  val : α
  /-- The AFLAGS bits raised. -/
  fl : W32
  deriving DecidableEq, Repr

/-! ## Values -/

/-- What a float encoding stands for: NaN, an infinity, or (−1)^neg × m × 2^e exactly (R87).  A zero keeps its
sign. -/
inductive FVal where
  | nan
  | inf (neg : Bool)
  | fin (neg : Bool) (m : Nat) (e : Int)
  deriving DecidableEq, Repr

/-- Which encodings of the top exponent are special (R87). -/
inductive Special where
  /-- Infinities and NaNs, as IEEE 754. -/
  | ieee
  /-- E4M3: only S.1111.111, a NaN. -/
  | e4m3
  /-- None: every encoding is finite. -/
  | none
  deriving DecidableEq, Repr

/-- A float format (R87): exponent and mantissa widths, bias, special encodings, the encoding of the largest
finite magnitude and of the canonical NaN (R100). -/
structure Fmt where
  ew : Nat
  mw : Nat
  bias : Nat
  special : Special
  maxEnc : Nat
  nanEnc : Nat
  deriving DecidableEq, Repr

/-- FP32 (R87). -/
def fmtFP32 : Fmt := ⟨8, 23, 127, .ieee, 0x7F7FFFFF, 0x7FC00000⟩
/-- BF16 (R87). -/
def fmtBF16 : Fmt := ⟨8, 7, 127, .ieee, 0x7F7F, 0x7FC0⟩
/-- FP16 (R87). -/
def fmtFP16 : Fmt := ⟨5, 10, 15, .ieee, 0x7BFF, 0x7E00⟩
/-- FP8 E5M2 (R87). -/
def fmtE5M2 : Fmt := ⟨5, 2, 15, .ieee, 0x7B, 0x7E⟩
/-- FP8 E4M3 (R87). -/
def fmtE4M3 : Fmt := ⟨4, 3, 7, .e4m3, 0x7E, 0x7F⟩
/-- FP6 E3M2 (R87). -/
def fmtE3M2 : Fmt := ⟨3, 2, 3, .none, 0x1F, 0⟩
/-- FP6 E2M3 (R87). -/
def fmtE2M3 : Fmt := ⟨2, 3, 1, .none, 0x1F, 0⟩
/-- FP4 E2M1 (R87). -/
def fmtE2M1 : Fmt := ⟨2, 1, 1, .none, 0x7, 0⟩

/-- The width of a format in bits. -/
def Fmt.width (f : Fmt) : Nat := 1 + f.ew + f.mw

/-- The value an encoding stands for (R87). -/
def decodeFloat (f : Fmt) (x : Nat) : FVal :=
  let neg := x.testBit (f.ew + f.mw)
  let ex := fld x f.mw f.ew
  let ma := fld x 0 f.mw
  let top := decide (ex + 1 = 2 ^ f.ew)
  if f.special = .ieee ∧ top then (if ma = 0 then .inf neg else .nan)
  else if f.special = .e4m3 ∧ top ∧ ma + 1 = 2 ^ f.mw then .nan
  else if ex = 0 then .fin neg ma (1 - (f.bias : Int) - f.mw)
  else .fin neg (2 ^ f.mw + ma) ((ex : Int) - f.bias - f.mw)

/-- The FP32 value of a lane or cell. -/
def decode32 (x : W32) : FVal := decodeFloat fmtFP32 x.toNat

/-! ## Rounding (R98 to R104) -/

/-- The rounding modes of R98, in the order of their codes (R124). -/
inductive RMode where
  | rne | rtz | sr
  deriving DecidableEq, Repr

/-- The rounding mode of a 2-bit field; 3 names none (R124). -/
def rmodeOf : Nat → Option RMode
  | 0 => some .rne
  | 1 => some .rtz
  | 2 => some .sr
  | _ => none

/-- Round m / 2^k to a whole number; `r` is the random word of R103 for stochastic rounding (R104). -/
def roundShift (rm : RMode) (r : Nat) (m k : Nat) : Nat :=
  let q := m >>> k
  let rem := m - (q <<< k)
  match rm with
  | .rtz => q
  | .sr => if (rem <<< 32) >>> k + r ≥ 2 ^ 32 then q + 1 else q
  | .rne =>
    if 2 * rem > 1 <<< k then q + 1
    else if 2 * rem = 1 <<< k ∧ k ≠ 0 then q + q % 2
    else q

/-- A magnitude rounded into a format with its exponent range unbounded above and its subnormals kept below
(R98): the encoding it would have, and whether a non-zero value below the normal range lost bits. -/
structure Rounded where
  enc : Nat
  unf : Bool
  deriving DecidableEq, Repr

/-- Round m × 2^e (m not zero) into a format (R98). -/
def roundMag (f : Fmt) (rm : RMode) (r m : Nat) (e : Int) : Rounded :=
  let top : Int := (bitLen m : Int) - 1 + e
  let emin : Int := 1 - (f.bias : Int)
  let sub := decide (top < emin)
  let q : Int := (if sub then emin else top) - f.mw
  let sig := if q ≤ e then m <<< (e - q).toNat else roundShift rm r m (q - e).toNat
  let exact := decide (q ≤ e) || decide (m % (1 <<< (q - e).toNat) = 0)
  if sub then ⟨sig, !exact && decide (sig < 2 ^ f.mw)⟩
  else ⟨((top + f.bias).toNat <<< f.mw) + sig - 2 ^ f.mw, false⟩

/-- Put a sign on an encoding. -/
def Fmt.signed (f : Fmt) (neg : Bool) (enc : Nat) : Nat := if neg then enc + 2 ^ (f.ew + f.mw) else enc

/-- The encoding of infinity in a format that has one. -/
def Fmt.infEnc (f : Fmt) : Nat := f.maxEnc + 1

/-- Round an exact value into FP32, to nearest even, as an arithmetic result: beyond the range is infinity with
OVF, below it UNF (R94, R110, R114).  `sticky` says that m stands for slightly more than m. -/
def finish32 (neg : Bool) (m : Nat) (e : Int) : Flagged W32 :=
  if m = 0 then ⟨BitVec.ofNat 32 (fmtFP32.signed neg 0), 0⟩
  else
    let r := roundMag fmtFP32 .rne 0 m e
    if r.enc > fmtFP32.maxEnc then ⟨BitVec.ofNat 32 (fmtFP32.signed neg fmtFP32.infEnc), flOVF⟩
    else ⟨BitVec.ofNat 32 (fmtFP32.signed neg r.enc), if r.unf then flUNF else 0⟩

/-- The canonical FP32 NaN (R100). -/
def nan32 : W32 := 0x7FC00000
/-- An FP32 infinity. -/
def inf32 (neg : Bool) : W32 := if neg then 0xFF800000 else 0x7F800000
/-- An FP32 zero. -/
def zero32 (neg : Bool) : W32 := if neg then 0x80000000 else 0
/-- FP32 one. -/
def one32 (neg : Bool) : W32 := if neg then 0xBF800000 else 0x3F800000

/-- Convert a value into a float format under a rounding mode and SAT (R98 to R100).  `elem` marks an MX element
format, which always clamps. -/
def encodeFloat (f : Fmt) (rm : RMode) (sat : Bool) (r : Nat) (v : FVal) : Flagged Nat :=
  let ovr (neg infSrc : Bool) : Flagged Nat :=
    let clamp := f.special = .none ∨ sat ∨ (rm = .rtz ∧ ¬ infSrc)
    if clamp then ⟨f.signed neg f.maxEnc, flCSAT⟩
    else if f.special = .e4m3 then ⟨f.nanEnc, flINV⟩
    else ⟨f.signed neg f.infEnc, if infSrc then 0 else flOVF⟩
  match v with
  | .nan => ⟨f.nanEnc, flNANIN⟩
  | .inf neg => ovr neg true
  | .fin neg m e =>
    if m = 0 then ⟨f.signed neg 0, 0⟩
    else
      let q := roundMag f rm r m e
      if q.enc > f.maxEnc then ovr neg false
      else ⟨f.signed neg q.enc, if q.unf then flUNF else 0⟩

/-- Convert a value to a two's-complement integer of `w` bits, clamping with CSAT; NaN gives 0 with CSAT (R100,
R101). -/
def encodeInt (w : Nat) (rm : RMode) (r : Nat) (v : FVal) : Flagged Nat :=
  let top := 2 ^ (w - 1)
  match v with
  | .nan => ⟨0, flCSAT ||| flNANIN⟩
  | .inf neg => ⟨if neg then top else top - 1, flCSAT⟩
  | .fin neg m e =>
    let mag := if 0 ≤ e then (if m = 0 then 0 else if e > 64 then top + 1 else m <<< e.toNat)
      else roundShift rm r m (-e).toNat
    if neg then (if mag > top then ⟨top, flCSAT⟩ else ⟨(2 ^ w - mag) % 2 ^ w, 0⟩)
    else (if mag ≥ top then ⟨top - 1, flCSAT⟩ else ⟨mag, 0⟩)

/-- The random word of stochastic rounding for element `n` (R103). -/
def srWord (seed : W64) (counter : W32) (n : Nat) : Nat :=
  let x : W64 := seed + BitVec.ofNat 64 (counter.toNat * 65536 + n)
  let z := (x ^^^ (x >>> 30)) * 0xBF58476D1CE4E5B9
  let z := (z ^^^ (z >>> 27)) * 0x94D049BB133111EB
  let z := z ^^^ (z >>> 31)
  (z >>> 32).toNat

/-! ## Exact sums -/

/-- An exact signed dyadic number m × 2^e. -/
structure Dyadic where
  m : Int
  e : Int
  deriving DecidableEq, Repr

/-- Exact addition. -/
def Dyadic.add (a b : Dyadic) : Dyadic :=
  if a.m = 0 then b else if b.m = 0 then a
  else if a.e ≤ b.e then ⟨a.m + b.m * (2 : Int) ^ (b.e - a.e).toNat, a.e⟩
  else ⟨a.m * (2 : Int) ^ (a.e - b.e).toNat + b.m, b.e⟩

/-- The exact number of a finite value. -/
def dyOf (neg : Bool) (m : Nat) (e : Int) : Dyadic := ⟨if neg then -(m : Int) else m, e⟩

/-- Round an exact sum into FP32; an exact zero takes the sign given. -/
def finishDy (zneg : Bool) (d : Dyadic) : Flagged W32 :=
  if d.m = 0 then ⟨zero32 zneg, 0⟩ else finish32 (decide (d.m < 0)) d.m.natAbs d.e

/-! ## The vector float operations (R110) -/

/-- A NaN result from a NaN operand. -/
def nanIn : Flagged W32 := ⟨nan32, flNANIN⟩
/-- A NaN result from non-NaN operands. -/
def nanInv : Flagged W32 := ⟨nan32, flINV⟩

/-- FP32 addition. -/
def fAdd (a b : W32) : Flagged W32 :=
  match decode32 a, decode32 b with
  | .nan, _ => nanIn
  | _, .nan => nanIn
  | .inf s, .inf t => if s = t then ⟨inf32 s, 0⟩ else nanInv
  | .inf s, _ => ⟨inf32 s, 0⟩
  | _, .inf t => ⟨inf32 t, 0⟩
  | .fin s m e, .fin t n f => finishDy (s && t && decide (m = 0) && decide (n = 0)) ((dyOf s m e).add (dyOf t n f))

/-- FP32 negation of the sign bit. -/
def fNeg (a : W32) : W32 := a ^^^ 0x80000000
/-- FP32 clearing of the sign bit. -/
def fAbs (a : W32) : W32 := a &&& 0x7FFFFFFF

/-- FP32 subtraction; a NaN operand gives the canonical NaN whichever it is. -/
def fSub (a b : W32) : Flagged W32 := fAdd a (fNeg b)

/-- FP32 multiplication. -/
def fMul (a b : W32) : Flagged W32 :=
  match decode32 a, decode32 b with
  | .nan, _ => nanIn
  | _, .nan => nanIn
  | .inf s, .inf t => ⟨inf32 (s != t), 0⟩
  | .inf s, .fin t n _ => if n = 0 then nanInv else ⟨inf32 (s != t), 0⟩
  | .fin s m _, .inf t => if m = 0 then nanInv else ⟨inf32 (s != t), 0⟩
  | .fin s m e, .fin t n f => finish32 (s != t) (m * n) (e + f)

/-- FP32 fused multiply-add: a × b + c with one rounding. -/
def fFma (a b c : W32) : Flagged W32 :=
  match decode32 a, decode32 b, decode32 c with
  | .nan, _, _ => nanIn
  | _, .nan, _ => nanIn
  | _, _, .nan => nanIn
  | .fin s m e, .fin t n f, .fin u k g =>
    finishDy ((s != t) && u && decide (m * n = 0) && decide (k = 0)) ((dyOf (s != t) (m * n) (e + f)).add (dyOf u k g))
  | .fin _ _ _, .fin _ _ _, .inf u => ⟨inf32 u, 0⟩
  | .inf _, .fin _ 0 _, _ => nanInv
  | .fin _ 0 _, .inf _, _ => nanInv
  | .inf s, .inf t, .inf u => if (s != t) = u then ⟨inf32 u, 0⟩ else nanInv
  | .inf s, .inf t, .fin _ _ _ => ⟨inf32 (s != t), 0⟩
  | .inf s, .fin t _ _, .inf u => if (s != t) = u then ⟨inf32 u, 0⟩ else nanInv
  | .inf s, .fin t _ _, .fin _ _ _ => ⟨inf32 (s != t), 0⟩
  | .fin s _ _, .inf t, .inf u => if (s != t) = u then ⟨inf32 u, 0⟩ else nanInv
  | .fin s _ _, .inf t, .fin _ _ _ => ⟨inf32 (s != t), 0⟩

/-- FP32 division.  The quotient is formed with 64 bits more than its operands and a sticky bit. -/
def fDiv (a b : W32) : Flagged W32 :=
  match decode32 a, decode32 b with
  | .nan, _ => nanIn
  | _, .nan => nanIn
  | .inf _, .inf _ => nanInv
  | .inf s, .fin t _ _ => ⟨inf32 (s != t), 0⟩
  | .fin s _ _, .inf t => ⟨zero32 (s != t), 0⟩
  | .fin s m e, .fin t n f =>
    if n = 0 then (if m = 0 then nanInv else ⟨inf32 (s != t), flOVF⟩)
    else
      let num := m <<< 96
      finish32 (s != t) (2 * (num / n) + b2n (decide (num % n ≠ 0))) (e - f - 97)

/-- FP32 reciprocal. -/
def fRcp (a : W32) : Flagged W32 := fDiv (one32 false) a

/-- The integer square root, one result bit a round. -/
def isqrtAux : Nat → Nat → Nat → Nat
  | 0, _, acc => acc
  | k + 1, n, acc =>
    let t := acc + 1 <<< k
    if t * t ≤ n then isqrtAux k n t else isqrtAux k n acc

/-- The largest whole number whose square is at most `n`. -/
def isqrt (n : Nat) : Nat := isqrtAux (bitLen n / 2 + 1) n 0

/-- FP32 square root. -/
def fSqrt (a : W32) : Flagged W32 :=
  match decode32 a with
  | .nan => nanIn
  | .inf s => if s then nanInv else ⟨inf32 false, 0⟩
  | .fin s m e =>
    if m = 0 then ⟨zero32 s, 0⟩
    else if s then nanInv
    else
      let odd := decide (e % 2 ≠ 0)
      let n := (if odd then 2 * m else m) <<< 96
      let q := isqrt n
      finish32 false (2 * q + b2n (decide (q * q ≠ n))) ((if odd then e - 1 else e) / 2 - 49)

/-- FP32 reciprocal square root. -/
def fRsqrt (a : W32) : Flagged W32 :=
  match decode32 a with
  | .nan => nanIn
  | .inf s => if s then nanInv else ⟨zero32 false, 0⟩
  | .fin s m e =>
    if m = 0 then ⟨inf32 s, flOVF⟩
    else if s then nanInv
    else
      let odd := decide (e % 2 ≠ 0)
      let n := if odd then 2 * m else m
      let q := isqrt ((1 <<< 192) / n)
      finish32 false (2 * q + b2n (decide (q * q * n ≠ 1 <<< 192))) (-((if odd then e - 1 else e) / 2) - 97)

/-! ### Exponential, logarithm and hyperbolic tangent

The exact function rounded once (R110).  Each value is computed as a whole number of units of 2^−320 from a
convergent series, with an error far below the distance of any irrational value of these functions on FP32
arguments from a rounding boundary (DEDUCED, log entry 21), and a sticky bit marks it as not representable. -/

/-- Bits after the point. -/
def fxBits : Nat := 320
/-- One in fixed point. -/
def fxOne : Nat := 1 <<< 320

/-- Σ z^(2k+1)/(2k+1) in fixed point, `t` the current odd power and `z2` the square. -/
def atanhAux : Nat → Nat → Nat → Nat → Nat
  | 0, _, _, _ => 0
  | f + 1, k, t, z2 => t / (2 * k + 1) + atanhAux f (k + 1) ((t * z2) >>> 320) z2

/-- The natural logarithm of num / den, for 1 ≤ num / den ≤ 2, in fixed point. -/
def lnFix (num den : Nat) : Nat :=
  let z := ((num - den) <<< 320) / (num + den)
  2 * atanhAux 110 0 z ((z * z) >>> 320)

/-- ln 2 in fixed point. -/
def ln2Fix : Nat := lnFix 2 1

/-- Σ t^k/k! in fixed point. -/
def expAux : Nat → Nat → Nat → Nat → Nat
  | 0, _, _, _ => 0
  | f + 1, k, term, t => term + expAux f (k + 1) (((term * t) >>> 320) / (k + 1)) t

/-- e^t in fixed point, for 0 ≤ t < 1. -/
def expFix (t : Nat) : Nat := expAux 90 0 fxOne t

/-- A magnitude in fixed point, truncated. -/
def toFix (m : Nat) (e : Int) : Nat :=
  let k := e + 320
  if 0 ≤ k then m <<< k.toNat else m >>> (-k).toNat

/-- A result that is infinite by overflow of finite operands. -/
def ovfInf : Flagged W32 := ⟨inf32 false, flOVF⟩

/-- A non-zero result far below the smallest subnormal. -/
def tiny32 : Flagged W32 := finish32 false 3 (-260)

/-- 2^x for x = ±m × 2^e. -/
def exp2Val (s : Bool) (m : Nat) (e : Int) : Flagged W32 :=
  let big : Bool := decide (m ≠ 0) && decide ((bitLen m : Int) + e > 9)
  if big then (if s then tiny32 else ovfInf)
  else
    let x := toFix m e
    let whole := x >>> 320
    let frac := x - whole <<< 320
    let lost : Bool := decide (e + 320 < 0)
    if frac = 0 ∧ ¬ lost then
      (if s then finish32 false 1 (-(whole : Int)) else finish32 false 1 whole)
    else
      -- for a negative x, 2^x = 2^(−whole−1) × 2^(1−frac)
      let n : Int := if s then -(whole : Int) - 1 else whole
      let t := if s then fxOne - frac else frac
      finish32 false (2 * expFix ((t * ln2Fix) >>> 320) + 1) (n - 321)

/-- e^x for x = ±m × 2^e. -/
def expVal (s : Bool) (m : Nat) (e : Int) : Flagged W32 :=
  if m = 0 then ⟨one32 false, 0⟩
  else if (bitLen m : Int) + e > 8 then (if s then tiny32 else ovfInf)
  else
    let x := toFix m e
    let n := x / ln2Fix
    let r := x - n * ln2Fix
    if s then
      -- e^(−x) = 2^(−n−1) × e^(ln 2 − r); the sticky bit stands below the truncated value
      finish32 false (2 * expFix (ln2Fix - r) - 1) (-(n : Int) - 322)
    else finish32 false (2 * expFix r + 1) ((n : Int) - 321)

/-- Base-2 exponential. -/
def fExp2 (a : W32) : Flagged W32 :=
  match decode32 a with
  | .nan => nanIn
  | .inf s => ⟨if s then zero32 false else inf32 false, 0⟩
  | .fin s m e => exp2Val s m e

/-- Base-e exponential. -/
def fExp (a : W32) : Flagged W32 :=
  match decode32 a with
  | .nan => nanIn
  | .inf s => ⟨if s then zero32 false else inf32 false, 0⟩
  | .fin s m e => expVal s m e

/-- The logarithm of m × 2^e (m not zero) in units of 2^−320: E × `two` + ln(mantissa) × `scale` / 2^320. -/
def logVal (base2 : Bool) (m : Nat) (e : Int) : Flagged W32 :=
  let k := bitLen m - 1
  let E : Int := (k : Int) + e
  let frac := lnFix m (1 <<< k)
  let pow2 := decide (m = 1 <<< k)
  if base2 then
    if pow2 then finishDy false ⟨E, 0⟩
    else
      let v : Int := E * (fxOne : Int) + (((frac <<< 320) / ln2Fix : Nat) : Int)
      finish32 (decide (v < 0)) (2 * v.natAbs + 1) (-321)
  else if pow2 ∧ E = 0 then ⟨0, 0⟩
  else
    let v : Int := E * (ln2Fix : Int) + (frac : Int)
    finish32 (decide (v < 0)) (2 * v.natAbs + 1) (-321)

/-- A logarithm (R110): of ±0 it is −infinity with OVF, of a negative value NaN with INV. -/
def fLogBase (base2 : Bool) (a : W32) : Flagged W32 :=
  match decode32 a with
  | .nan => nanIn
  | .inf s => if s then nanInv else ⟨inf32 false, 0⟩
  | .fin s m e => if m = 0 then ⟨inf32 true, flOVF⟩ else if s then nanInv else logVal base2 m e

/-- Base-2 logarithm. -/
def fLog2 (a : W32) : Flagged W32 := fLogBase true a
/-- Natural logarithm. -/
def fLog (a : W32) : Flagged W32 := fLogBase false a

/-- Hyperbolic tangent.  Below 2^−40 the exact value lies just under x in magnitude; from 32 up it lies just under
1; between, it is (e^2x − 1)/(e^2x + 1). -/
def fTanh (a : W32) : Flagged W32 :=
  match decode32 a with
  | .nan => nanIn
  | .inf s => ⟨one32 s, 0⟩
  | .fin s m e =>
    if m = 0 then ⟨zero32 s, 0⟩
    else
      let top : Int := (bitLen m : Int) + e
      if top < -40 then finish32 s ((m <<< 64) - 1) (e - 64)
      else if top > 5 then finish32 s ((1 <<< 64) - 1) (-64)
      else
        let x2 := toFix m (e + 1)
        let n := x2 / ln2Fix
        let y := expFix (x2 - n * ln2Fix) <<< n
        finish32 s (2 * (((y - fxOne) <<< 320) / (y + fxOne)) + 1) (-321)

/-- Sigmoid: recip(1 + exp(−x)), each step rounded, with each step's flags (R110; log entry 22). -/
def fSig (a : W32) : Flagged W32 :=
  let t := fExp (fNeg a)
  let u := fAdd (one32 false) t.val
  let v := fRcp u.val
  ⟨v.val, t.fl ||| u.fl ||| v.fl⟩

/-- SiLU: x × sigmoid(x), rounded once more; −0 for every x below −88.72283, −infinity among them (R110; log
entry 22). -/
def fSilu (a : W32) : Flagged W32 :=
  match decode32 a with
  | .inf true => ⟨zero32 true, 0⟩
  | _ =>
    let t := fSig a
    let u := fMul a t.val
    ⟨u.val, t.fl ||| u.fl⟩

/-- The order key of a non-NaN FP32: monotone, −0 below +0. -/
def orderKey (a : W32) : Int := if a.toNat < 2 ^ 31 then (a.toNat : Int) else -((a.toNat : Int) - 2 ^ 31) - 1

/-- A word is an FP32 NaN. -/
def isNan32 (a : W32) : Bool := decide (decode32 a = .nan)

/-- FP32 minimum or maximum (R110). -/
def fMinMax (isMax : Bool) (a b : W32) : Flagged W32 :=
  if isNan32 a || isNan32 b then nanIn
  else ⟨if (decide (orderKey a < orderKey b)) != isMax then a else b, 0⟩

/-- Comparison conditions (R607), in the order of their codes. -/
inductive CmpCond where
  | eq | ne | lt | le | ltu | leu
  deriving DecidableEq, Repr

/-- The condition of a code; 6 and 7 are illegal (R607). -/
def condOf : Nat → Option CmpCond
  | 0 => some .eq
  | 1 => some .ne
  | 2 => some .lt
  | 3 => some .le
  | 4 => some .ltu
  | 5 => some .leu
  | _ => none

/-- A number that orders FP32 values other than NaN by value; both zeros are 0. -/
def valueKey (a : W32) : Int := if a.toNat < 2 ^ 31 then (a.toNat : Int) else -((a.toNat : Int) - 2 ^ 31)

/-- One lane's FP32 comparison: with a NaN it is false, except not-equal (R110). -/
def fCmp (c : CmpCond) (a b : W32) : Flagged Bool :=
  match c with
  | .ltu => ⟨decide (a.toNat < b.toNat), 0⟩
  | .leu => ⟨decide (a.toNat ≤ b.toNat), 0⟩
  | _ =>
    if isNan32 a || isNan32 b then ⟨decide (c = .ne), flNANIN⟩
    else
      let x := valueKey a
      let y := valueKey b
      ⟨match c with
        | .eq => decide (x = y)
        | .ne => decide (x ≠ y)
        | .lt => decide (x < y)
        | _ => decide (x ≤ y), 0⟩

/-- A comparison of two words as integers, LTU and LEU unsigned, the rest signed (R607). -/
def iCmp {w : Nat} (c : CmpCond) (a b : BitVec w) : Bool :=
  match c with
  | .eq => decide (a = b)
  | .ne => decide (a ≠ b)
  | .lt => decide (a.toInt < b.toInt)
  | .le => decide (a.toInt ≤ b.toInt)
  | .ltu => decide (a.toNat < b.toNat)
  | .leu => decide (a.toNat ≤ b.toNat)

/-! ## Integer operations shared by the scalar and vector units (R125, R607) -/

/-- The integer operations 0x01 to 0x0D. -/
inductive IntOp where
  | add | sub | mul | and | or | xor | shl | shr | sra | min | max | minu | maxu
  deriving DecidableEq, Repr

/-- An integer operation on words: wrapping, the shift count taken modulo the width. -/
def intOp {w : Nat} (o : IntOp) (a b : BitVec w) : BitVec w :=
  match o with
  | .add => a + b
  | .sub => a - b
  | .mul => a * b
  | .and => a &&& b
  | .or => a ||| b
  | .xor => a ^^^ b
  | .shl => a <<< (b.toNat % w)
  | .shr => a >>> (b.toNat % w)
  | .sra => a.sshiftRight (b.toNat % w)
  | .min => if a.toInt < b.toInt then a else b
  | .max => if a.toInt < b.toInt then b else a
  | .minu => if a.toNat < b.toNat then a else b
  | .maxu => if a.toNat < b.toNat then b else a

/-- The VIOP code's operation; 0x0, 0xE and 0xF are illegal (R607). -/
def viopOf : Nat → Option IntOp
  | 1 => some .add
  | 2 => some .sub
  | 3 => some .mul
  | 4 => some .and
  | 5 => some .or
  | 6 => some .xor
  | 7 => some .shl
  | 8 => some .shr
  | 9 => some .sra
  | 10 => some .min
  | 11 => some .max
  | 12 => some .minu
  | 13 => some .maxu
  | _ => none

end Sys2Proof.Machine
end

