-- ==== Sys2Proof/Machine/MemOps.lean ====
section
/-! DEFINITION. Placement: blocks, moves and the expert placement table (R163 to R192, R202 to R204). -/
namespace Sys2Proof.Machine
open Sys2Proof

/-! ## The expert placement table (R202 to R204) -/

/-- An entry of the placement table. -/
def Dev.eptEntry (d : Dev) (i : Nat) : BitVec 256 := d.xdu.ept.get 0 i
/-- RANK. -/
def eptRank (e : BitVec 256) : Nat := bvFld e 32 8
/-- VALID. -/
def eptValid (e : BitVec 256) : Bool := decide (bvFld e 40 1 = 1)
/-- CAP. -/
def eptCap (e : BitVec 256) : Nat := bvFld e 48 16
/-- SERVE_MASK. -/
def eptMask (e : BitVec 256) : Nat := bvFld e 64 32
/-- COORD_TILE. -/
def eptTile (e : BitVec 256) : Nat := bvFld e 96 8
/-- COORD_MBOX. -/
def eptMbox (e : BitVec 256) : Nat := bvFld e 104 8
/-- BLOCK_COUNT. -/
def eptCount (e : BitVec 256) : Nat := bvFld e 112 16
/-- WEIGHTS. -/
def eptWeights (e : BitVec 256) : Nat := bvFld e 128 64
/-- BLOCK_FIRST. -/
def eptFirst (e : BitVec 256) : Nat := bvFld e 192 32

/-- A partition record of EXPERT_PLACEMENT (R203). -/
structure EptRec where
  layers : Nat
  experts : Nat
  base : Nat
  daOffset : Nat
  daLength : Nat
  deriving DecidableEq, Repr

/-- The record at an offset of an EXPERT_PLACEMENT section. -/
def eptRecAt (b : Blob) (o : Nat) : EptRec := ⟨b.u16 o, b.u16 (o + 2), b.u32 (o + 4), b.u32 (o + 8), b.u32 (o + 12)⟩

/-- The record of a partition in force. -/
def Dev.eptRec (d : Dev) (p : Nat) : EptRec := eptRecAt (d.sec secExpertPlacement) (64 * p)

/-- The placement-table index of an expert of a layer of a partition. -/
def EptRec.index (r : EptRec) (layer expert : Nat) : Nat := r.base + layer * r.experts + expert

/-- The partition whose entries hold a placement-table index. -/
def Dev.eptPart (d : Dev) (i : Nat) : Option Nat :=
  (List.range 32).find? (fun p => decide ((d.eptRec p).base ≤ i) && decide (i < (d.eptRec p).base + (d.eptRec p).layers * (d.eptRec p).experts))

/-- Give an entry a serving rank. -/
def Dev.setEptRank (d : Dev) (i rank : Nat) : Dev := d.upXdu (fun x => { x with ept := x.ept.set i (bvSet (d.eptEntry i) 32 8 rank) })

/-- The block entries of an expert. -/
def Dev.expertBlocks (d : Dev) (i : Nat) : List Nat := listOf (eptCount (d.eptEntry i)) (fun k => eptFirst (d.eptEntry i) + k)

/-! ## Blocks -/

/-- The bytes of a block. -/
def blockBytes : Nat := 2097152

/-- A block entry; an unlisted one is FREE. -/
def Dev.blk (d : Dev) (i : Nat) : BitVec 128 := d.mem.blk.get 0 i

/-- Replace a block entry. -/
def Dev.setBlk (d : Dev) (i : Nat) (e : BitVec 128) : Dev :=
  d.upMem (fun m => { m with blk := if e = 0 then m.blk.del i else m.blk.set i e })

/-- Set STATE of an entry. -/
def Dev.blkSetState (d : Dev) (i st : Nat) : Dev := d.setBlk i (bvSet (d.blk i) 77 3 st)

/-- An entry's copy is in a pool of this device. -/
def Dev.localCopy (d : Dev) (e : BitVec 128) : Bool := blkAtCopy e && decide (blkRank e = d.rank)

/-- The device address where an entry is served now; its home when a peer serves it. -/
def Dev.blkServing (d : Dev) (e : BitVec 128) : Nat := (if d.localCopy e then blkCopy e else blkHome e) * blockBytes

/-- The tier of a device address. -/
def Dev.tierOf (d : Dev) (a : Nat) : Tier := match d.site a with | some s => s.tier | none => .lp5x

/-- Old pool blocks, targets and serving copies: the pool blocks in use, by device address (R181). -/
def Dev.poolInUse (d : Dev) : List Nat :=
  (d.mem.blk.vals.filter (fun e => d.localCopy e)).map (fun e => blkCopy e * blockBytes) ++
  d.mem.oldCopy.vals ++ (d.mem.moves.filter (fun m => m.started && !m.toHome && m.expert.isNone)).map (·.target)

/-- The partition of a pool block. -/
def Dev.poolPart (d : Dev) (a : Nat) : Option Nat := (d.regionAt a).map (·.part)

/-- Copies of a partition in a tier: SERVING, targets of COPYING and old ones in RELEASING (R181). -/
def Dev.poolUse (d : Dev) (p : Nat) (t : Tier) : Nat :=
  (d.poolInUse.filter (fun a => decide (d.poolPart a = some p) && decide (d.tierOf a = t))).length

/-- Blocks held for peers' experts of a partition (R193). -/
def Dev.remoteUse (d : Dev) (p : Nat) : Nat :=
  (d.mem.remoteHeld.ents.filter (fun q => decide (d.eptPart q.1 = some p))).foldl (fun n q => n + q.2) 0

/-- MEM_USEp as it reads. -/
def Dev.memUse (d : Dev) (p : Nat) : Nat :=
  d.poolUse p .cluster % 2 ^ 20 + d.poolUse p .hbm % 2 ^ 20 * 2 ^ 20 + d.remoteUse p % 2 ^ 20 * 2 ^ 40

/-- The budget of a partition in a tier, in blocks (R164). -/
def Dev.tierBudget (d : Dev) (p : Nat) (t : Tier) : Nat :=
  let o := 64 + 64 * p
  match t with
  | .cluster => (d.sec secTierBudgets).u32 o
  | .hbm => (d.sec secTierBudgets).u32 (o + 4)
  | _ => 0

/-- BUD_REMOTE. -/
def Dev.remoteBudget (d : Dev) (p : Nat) : Nat := (d.sec secTierBudgets).u32 (64 + 64 * p + 8)

/-- The migration share of a partition in a tier, in percent (R164, R182). -/
def Dev.tierShare (d : Dev) (p : Nat) (t : Tier) : Nat :=
  let o := 64 + 64 * p
  match t with
  | .cluster => (d.sec secTierBudgets).u8 (o + 0x0C)
  | .hbm => (d.sec secTierBudgets).u8 (o + 0x0D)
  | .lp5x => (d.sec secTierBudgets).u8 (o + 0x0E)
  | .scratch => 0

/-- XDEV is set for a partition. -/
def Dev.xdev (d : Dev) (p : Nat) : Bool := ((d.sec secTierBudgets).u8 (64 + 64 * p + 0x0F)).testBit 1

/-- The tier one faster. -/
def Tier.up : Tier → Tier
  | .lp5x => .hbm
  | .hbm => .cluster
  | t => t

/-- The pool block of a partition in a tier with the lowest address that nothing uses and no fence holds. -/
def Dev.freePool (d : Dev) (p : Nat) (t : Tier) : Option Nat :=
  let used := d.poolInUse
  (d.regions.filter (fun r => decide (r.kind = 2) && decide (r.part = p))).findSome? (fun r =>
    (listOf (r.len / blockBytes) (fun i => r.base + i * blockBytes)).find? (fun a =>
      decide (d.tierOf a = t) && !used.contains a &&
      (match d.site a with
       | some s => !d.siteFenced s && (decide (t ≠ .cluster) || !d.clusterOff s.unit)
       | none => false)))

/-! ## Copying -/

/-- Copy `n` bytes between places of the memory, and bring the target's ECC units into service (R507). -/
def Dev.copyPlace (d : Dev) (src dst n : Nat) : Dev :=
  let cs := (d.mem.ram.cells.filter (fun c => decide (src ≤ c.1) && decide (c.1 < src + n))).map (fun c => (c.1 - src, c.2))
  d.upMem (fun m =>
    { m with ram := cs.foldl (fun r c => r.write (dst + c.1) c.2) (m.ram.clear dst n),
             bad := m.bad.filter (fun u => decide (u < dst) || decide (dst + n ≤ u)) })

/-- The encrypted region that holds a device address itself, whatever is served from elsewhere. -/
def Dev.cryptHome (d : Dev) (a : Nat) : Option Region := (d.regionAt a).filter (·.encrypt)

/-- The byte in the memory device at a device address itself. -/
def Dev.placeByte (d : Dev) (a : Nat) : Byte := match d.site a with | some s => d.mem.ram.read s.place | none => 0

/-- Store bytes in the memory device at a device address itself, and bring their ECC units into service (R507). -/
def Dev.placeStore (d : Dev) (a : Nat) : List Byte → Dev
  | [] => d
  | b :: r =>
    let d := match d.site a with
      | some s => d.upMem (fun m => { m with ram := m.ram.write s.place b, bad := m.bad.filter (fun u => decide (u + s.tier.eccUnit ≤ s.place ∨ s.place < u)) })
      | none => d
    d.placeStore (a + 1) r

/-- The data unit of an encrypted region that holds a device address, deciphered; zeros without its key. -/
def Dev.placeUnit (d : Dev) (r : Region) (a : Nat) : List Byte :=
  let u := a >>> r.duShift
  match d.slotKey r.slot with
  | some key => xtsDecrypt key (BitVec.ofNat 128 u) (listOf (1 <<< r.duShift) (fun i => d.placeByte (u <<< r.duShift + i)))
  | none => List.replicate (1 <<< r.duShift) 0

/-- The plaintext of a sub-unit at a device address itself (R171). -/
def Dev.subPlain (d : Dev) (a : Nat) : List Byte :=
  match d.cryptHome a with
  | none => listOf 4096 (fun i => d.placeByte (a + i))
  | some r => listOf 4096 (fun i => (d.placeUnit r (a + i)).getD ((a + i) % (1 <<< r.duShift)) 0)

/-- Store a sub-unit's plaintext at a device address itself; in an encrypted region every data unit it touches is
written whole (R170). -/
def Dev.subStore (d : Dev) (a : Nat) (bs : List Byte) : Dev :=
  match d.cryptHome a with
  | none => d.placeStore a bs
  | some r =>
    match d.slotKey r.slot with
    | none => d
    | some key =>
      let n := 1 <<< r.duShift
      let first := a / n
      (List.range ((4096 + n - 1) / n)).foldl (fun d k =>
        let u := first + k
        let old := d.placeUnit r (u * n)
        let plain := listOf n (fun i => if a ≤ u * n + i ∧ u * n + i < a + 4096 then bs.getD (u * n + i - a) 0 else old.getD i 0)
        d.placeStore (u * n) (xtsEncrypt key (BitVec.ofNat 128 u) plain)) d

/-- Copy a sub-unit from one device address to another, granule by granule (R162), through Caddy where one of them lies in
an encrypted region. -/
def Dev.copySub (d : Dev) (src dst : Nat) : Dev :=
  if (d.cryptHome src).isNone && (d.cryptHome dst).isNone then
    (List.range 16).foldl (fun d g =>
      match d.site (src + 256 * g), d.site (dst + 256 * g) with
      | some s, some t => d.copyPlace s.place t.place 256
      | _, _ => d) d
  else
    let d := match d.cryptHome src with
      | some r => d.fadd (Reg.CAD_BLOCKSc_COUNT 2) (((1 <<< r.duShift) / 16 + 1) * ((4095 >>> r.duShift) + 1))
      | none => d
    let d := match d.cryptHome dst with
      | some r => d.fadd (Reg.CAD_BLOCKSc_COUNT 2) (((1 <<< r.duShift) / 16 + 1) * ((4095 >>> r.duShift) + 1) * (if r.duShift ≤ 12 then 1 else 2))
      | none => d
    d.subStore dst (d.subPlain src)

/-- A sub-unit at a device address lies in an encrypted region whose slot is EMPTY. -/
def Dev.subKeyless (d : Dev) (a : Nat) : Bool :=
  match d.cryptHome a with
  | some r => (d.slotKey r.slot).isNone
  | none => false

/-- A sub-unit at a device address cannot be read: it holds a lasting uncorrectable word, lies in a fenced unit, or lies in an
encrypted region whose slot is EMPTY (log entry 14). -/
def Dev.subBad (d : Dev) (a : Nat) : Bool :=
  d.subKeyless a || (List.range 16).any (fun g =>
    match d.site (a + 256 * g) with
    | some s => d.siteFenced s || d.mem.bad.any (fun u => decide (s.place ≤ u) && decide (u < s.place + 256))
    | none => true)

/-- The offset in its block of a sub-unit numbered 512 × entry + sub-unit. -/
def subOffset (u : Nat) : Nat := u % 512 * 4096

/-- Copy the sub-units of a local move that a list names. -/
def Dev.copySubs (d : Dev) (m : Move) (subs : List Nat) : Dev :=
  match m.blocks with
  | [i] =>
    let src := d.blkServing (d.blk i)
    let dst := if m.toHome then blkHome (d.blk i) * blockBytes else m.target
    subs.foldl (fun d u => d.copySub (src + subOffset u) (dst + subOffset u)) d
  | _ => d

/-- The first of the sub-units that a move is to read and cannot (R188). -/
def Dev.subsBad (d : Dev) (subs : List Nat) : Option Nat :=
  (subs.find? (fun u => d.subBad (d.blkServing (d.blk (u / 512)) + subOffset u))).map
    (fun u => d.blkServing (d.blk (u / 512)) + subOffset u)

/-- Land held writes where their blocks are served now. -/
def Dev.landHeld (d : Dev) (ws : List (Nat × List Byte)) : Dev :=
  ws.foldl (fun d w => (d.storeSound w.1 w.2).noteAccess true w.1 w.2.length) d

/-- Take a move off the list. -/
def Dev.dropMove (d : Dev) (m : Move) : Dev := d.upMem (fun x => { x with moves := x.moves.filter (fun y => decide (y.blocks ≠ m.blocks)) })

/-- The partition of a move. -/
def Dev.movePart (d : Dev) (m : Move) : Nat := blkPart (d.blk (m.blocks.headD 0))

/-- Abandon a started move: its entries are SERVING where they were, its held writes land there, and a counter of the
partition rises (R188). -/
def Dev.abandonMove (d : Dev) (m : Move) (count : Nat → RegField) : Dev :=
  let p := d.movePart m
  let d := m.blocks.foldl (fun d i => d.blkSetState i 1) (d.dropMove m)
  (d.landHeld m.heldWrites).finc (count p)

/-- The started move that an entry belongs to. -/
def Dev.moveOf (d : Dev) (i : Nat) : Option Move := d.mem.moves.find? (fun m => m.started && m.blocks.contains i)

/-- Replace a move. -/
def Dev.setMove (d : Dev) (m : Move) : Dev :=
  d.upMem (fun x => { x with moves := x.moves.map (fun y => if y.blocks = m.blocks then m else y) })

/-- Free an entry; the last block of a block command leaves it ready to complete (R192). -/
def Dev.blkFree (d : Dev) (i : Nat) : Dev :=
  d.upMem (fun m => { m with blk := m.blk.del i, oldCopy := m.oldCopy.del i, unreg := m.unreg.filter (fun j => decide (j ≠ i)) })

/-- Switch a local entry to a new serving location in one update (R178, R186): a copy that is left becomes RELEASING, a
home that is left is SERVING at once. -/
def Dev.blkSwitch (d : Dev) (i : Nat) (toHome : Bool) (target : Nat) : Dev :=
  let e := d.blk i
  let left := d.localCopy e
  let e' := bvSet (bvSet e 24 8 0) 77 3 (if left then 3 else 1)
  let e' := if toHome then bvSet (bvSet (bvSet (bvSet e' 76 1 0) 86 21 0) 80 6 0) 73 1 0
    else bvSet (bvSet (bvSet e' 76 1 1) 86 21 (target / blockBytes)) 80 6 d.rank
  let d := d.setBlk i e'
  let d := if left then d.upMem (fun m => { m with oldCopy := m.oldCopy.set i (blkCopy e * blockBytes) }) else d
  d.finc (Reg.MEM_MIG_DONEp_COUNT (blkPart e))

/-- Take a LOST or served-at-home entry of an UNREGISTER away, or leave it until its last reader has finished. -/
def Dev.unregSettle (d : Dev) (i : Nat) : Dev := if blkState (d.blk i) = 3 then d else d.blkFree i

/-! ## Losing a peer (R191) -/

/-- The partition, layer and expert of a placement-table index. -/
def Dev.eptWhere (d : Dev) (i : Nat) : Option (Nat × Nat × Nat) :=
  match d.eptPart i with
  | some p =>
    let r := d.eptRec p
    some (p, (i - r.base) / r.experts, (i - r.base) % r.experts)
  | none => none

/-- Note an announced switch of an expert's serving rank (R190). -/
def Dev.noteSwitch (d : Dev) (i rank frame : Nat) : Dev :=
  let d := d.upMem (fun m => { m with switches := m.switches.filter (fun w => decide (w.index ≠ i)) ++ [⟨i, rank, frame⟩] })
  if rank = d.rank ∧ d.xdu.home.get rank i ≠ rank then
    d.upMem (fun m => { m with remoteHeld := m.remoteHeld.set i (eptCount (d.eptEntry i)) })
  else d

/-- Announce a switch of an expert to a rank, at a frame at least 64 ahead (R190). -/
def Dev.announceSwitch (d : Dev) (i rank : Nat) : Dev :=
  match d.eptWhere i with
  | none => d
  | some (p, l, e) =>
    let frame := d.frameNo + 65
    if d.podSize ≤ 1 then d.noteSwitch i rank frame
    else d.announce (.place p l e rank frame) (fun d => d.noteSwitch i rank frame)

/-- A peer, or the path to it, is lost: its moves are abandoned, and every expert of this home that it serves goes back
home (R191). -/
def Dev.memPathLost (d : Dev) (hit : Nat → Bool) : Dev :=
  let ms := d.mem.moves.filter (fun m => m.expert.isSome && m.started && !m.toHome && hit m.rank)
  let d := ms.foldl (fun d m => d.abandonMove m Reg.MEM_MIG_ABANDONp_COUNT) d
  let back := d.xdu.ept.ents.filter (fun q =>
    eptValid q.2 && hit (eptRank q.2) && decide (d.xdu.home.get d.rank q.1 = d.rank) && decide (eptRank q.2 ≠ d.rank) &&
    !(d.mem.switches.any (fun w => decide (w.index = q.1) && decide (w.rank = d.rank))))
  back.foldl (fun d q => d.announceSwitch q.1 d.rank) d

end Sys2Proof.Machine
end

