-- ==== Sys2Proof/Machine/XduOps.lean ====
section
/-! DEFINITION. Dispatch contexts, batches and dispatch areas (R194 to R222). -/
namespace Sys2Proof.Machine
open Sys2Proof

/-- The status of a code; none for a code that names no status (R17). -/
def statusOf (n : Nat) : Option Status :=
  [Status.ok, .lengthError, .malformed, .accessError, .keyRevoked, .translationFault, .authFail, .rnrExhausted, .retryExhausted, .remoteError,
   .collectiveMismatch, .memberLost, .fabricPathLost, .hostLost, .flushed, .uncorrectable, .roleEpochMismatch, .partialDelivery, .keyLimit,
   .halted, .capacityDeferred, .varianceRefused].find? (fun s => decide (s.code = n))

/-! ## The descriptor (R194, R199) -/

/-- ZONE. -/
def xZone (x : BitVec 512) : Nat := bvFld x 128 64
/-- THRESHOLD. -/
def xThreshold (x : BitVec 512) : Nat := bvFld x 192 32
/-- TRIGGER. -/
def xTrigger (x : BitVec 512) : Nat := bvFld x 224 32
/-- D. -/
def xWidth (x : BitVec 512) : Nat := bvFld x 256 16
/-- K. -/
def xK (x : BitVec 512) : Nat := bvFld x 272 8
/-- IN_FMT. -/
def xIn (x : BitVec 512) : Nat := bvFld x 280 4
/-- OUT_FMT. -/
def xOut (x : BitVec 512) : Nat := bvFld x 284 4
/-- MAX_TOKENS. -/
def xMax (x : BitVec 512) : Nat := bvFld x 288 16
/-- LAYER. -/
def xLayer (x : BitVec 512) : Nat := bvFld x 304 16
/-- OUT_ADDR. -/
def xOutAddr (x : BitVec 512) : Nat := bvFld x 320 64
/-- OUT_KEY. -/
def xOutKey (x : BitVec 512) : Nat := bvFld x 384 32
/-- PATH. -/
def xPath (x : BitVec 512) : Nat := bvFld x 447 1
/-- QPN. -/
def xQpn (x : BitVec 512) : Nat := bvFld x 416 24
/-- FLAG_ADDR. -/
def xFlagAddr (x : BitVec 512) : Nat := bvFld x 448 64

/-- Bytes of the elements of a record of `w` elements in an input format. -/
def inBytes (fmt w : Nat) : Nat := roundUp (w * (if fmt ≤ 1 then 2 else 1)) 64
/-- The format is an MX one. -/
def inMx (fmt : Nat) : Bool := decide (fmt = 4 ∨ fmt = 5)
/-- TREC. -/
def trecOf (fmt w : Nat) : Nat := inBytes fmt w + (if inMx fmt then roundUp (w / 32) 64 else 0)
/-- TREC of a descriptor. -/
def xTrec (x : BitVec 512) : Nat := trecOf (xIn x) (xWidth x)
/-- G. -/
def xGate (x : BitVec 512) : Nat := 64 + xMax x * xTrec x
/-- Z. -/
def xZoneLen (x : BitVec 512) : Nat := 64 + xMax x * (xTrec x + 128)
/-- The cluster of a zone. -/
def xCluster (x : BitVec 512) : Nat := fld (xZone x) 32 5
/-- The device address of a zone. -/
def xZoneDev (x : BitVec 512) : Nat := clusterBase (xCluster x) + fld (xZone x) 0 29

/-- A space-0x1 address (R134). -/
def space1 (c off : Nat) : Nat := 2 ^ 60 + c * 2 ^ 32 + off

/-- A descriptor of a queue of partition p bound to a die is in range (R194, R198). -/
def Dev.dispatchOk (d : Dev) (p : Option Nat) (die : Nat) (x : BitVec 512) : Bool :=
  let z := xZone x
  let c := xCluster x
  decide (fld z 60 4 = 1) && decide (fld z 37 23 = 0) && decide (fld z 29 3 = 0) && decide (z % 64 = 0) && p.isSome && decide (d.clusterPart c = p) &&
  decide (d.role c = 2 ∨ d.role c = 3) && decide (c / 8 = die) && decide (fld z 0 29 + xZoneLen x ≤ clusterBytes) &&
  decide (bvFld x 250 5 = 0) && (decide (bvFld x 255 1 = 0) || (decide (bvFld x 248 2 = 0) && decide (bvFld x 224 24 < 4096))) &&
  decide (xWidth x % 32 = 0) && decide (256 ≤ xWidth x) && decide (xWidth x ≤ 16384) && decide (1 ≤ xK x) && decide (xK x ≤ 16) &&
  decide (xIn x ≤ 5) && decide (xOut x = 0 ∨ xOut x = 1 ∨ xOut x = 0xB) && decide (1 ≤ xMax x) && decide (xMax x ≤ 4096) &&
  decide (xLayer x < (d.eptRec (p.getD 0)).layers) && decide (bvFld x 440 7 = 0) &&
  (if xPath x = 1 then decide (xQpn x = 0) else (match d.qp (xQpn x) with | some q => decide (q.get 1 1 = 0) | none => false)) &&
  decide (xFlagAddr x % 8 = 0)

/-! ## Dispatch areas (R208) -/

/-- Room that a local batch takes: index list and output rows. -/
def roomLocal (n w : Nat) : Nat := roundUp (4 * n) 64 + n * 4 * w
/-- Room that a batch for a peer takes: its token rows too. -/
def roomServed (n w fmt : Nat) : Nat := roomLocal n w + n * trecOf fmt w

/-- Room taken in the dispatch area of a cluster: offset and bytes. -/
def Dev.areaUsed (d : Dev) (c : Nat) : List (Nat × Nat) :=
  let own (b : XBatch) : Option (Nat × Nat) := match b.site with | .here k _ o l => if k = c then some (o, l) else none | .peer _ => none
  (d.xdu.ctxs.vals.flatMap (fun x => x.batches.filterMap own)) ++ (d.xdu.orphans.filterMap (fun p => own p.2)) ++
  (d.xdu.served.filter (fun s => decide (s.cluster = c))).map (fun s => (s.off, s.len))

/-- The lowest free place of `n` bytes in a cluster's dispatch area, as an offset of cluster memory. -/
def Dev.areaFind (d : Dev) (p c n : Nat) : Option Nat :=
  let r := d.eptRec p
  let used := d.areaUsed c
  let cand := (r.daOffset :: used.map (fun u => u.1 + u.2)).filter (fun o =>
    decide (r.daOffset ≤ o) && decide (o + n ≤ r.daOffset + r.daLength) && used.all (fun u => decide (u.1 + u.2 ≤ o) || decide (o + n ≤ u.1)))
  cand.foldl (fun (best : Option Nat) o => match best with | none => some o | some b => some (min b o)) none

/-- Tokens outstanding on a cluster from the XDU of a die. -/
def Dev.tokensOn (d : Dev) (die c : Nat) : Nat :=
  let n (b : XBatch) : Nat := match b.site with | .here k _ _ _ => if k = c then b.tokens.length else 0 | .peer _ => 0
  let own := (d.xdu.ctxs.ents.filter (fun x => decide (x.1 / 64 = die))).flatMap (fun x => x.2.batches)
  let gone := (d.xdu.orphans.filter (fun x => decide (x.1 = die))).map (·.2)
  let peers := (d.xdu.served.filter (fun s => decide (s.die = die) && decide (s.cluster = c))).map (·.tokens)
  ((own ++ gone).map n ++ peers).foldl (· + ·) 0

/-- The unfenced cluster of a mask with the fewest tokens outstanding from the XDU that serves it, the lowest number on a tie
(R208, R521). -/
def Dev.pickCluster (d : Dev) (xdu : Nat → Nat) (mask : Nat) : Option Nat :=
  ((bitsOf 32 mask).filter (fun c => !d.fbit Reg.RAS_FENCED_CLU_CLUSTERS c)).foldl (fun (best : Option Nat) c =>
    match best with
    | none => some c
    | some b => if d.tokensOn (xdu c) c < d.tokensOn (xdu b) b then some c else some b) none

/-- Credits of engine endpoints for a mailbox (R146). -/
def Dev.engineCredit (d : Dev) (t mb : Nat) : Nat := d.tl.engCred.get 8 (8 * t + mb)

/-- Send a message from an engine endpoint to a mailbox, taking a credit. -/
def Dev.engineSend (d : Dev) (ep t mb part : Nat) (data : BitVec 512) : Dev :=
  d.upTl (fun x =>
    { x with noc := x.noc ++ [⟨some (t, mb), none, .engine ep, part, d.roleEpoch part, data⟩],
             engCred := x.engCred.set (8 * t + mb) (d.engineCredit t mb - 1) })

/-- The batch notice of R209. -/
def notice (id n layer expert fmt w rows index out weights : Nat) : BitVec 512 :=
  BitVec.ofNat 512 (leNat (leBytes 4 id ++ leBytes 2 n ++ leBytes 2 layer ++ leBytes 2 expert ++ leBytes 1 fmt ++ leBytes 1 0 ++ leBytes 2 w ++
    leBytes 2 0 ++ leBytes 8 rows ++ leBytes 4 (trecOf fmt w) ++ leBytes 4 (if inMx fmt then inBytes fmt w else 0) ++ leBytes 8 index ++
    leBytes 8 out ++ leBytes 8 weights))

/-- The header cell of a batch or a result (R213). -/
def xHeader (kind status origin id layer expert n w fmt : Nat) : BitVec 512 :=
  BitVec.ofNat 512 (leNat (leBytes 1 kind ++ leBytes 1 status ++ leBytes 1 origin ++ leBytes 1 0 ++ leBytes 4 id ++ leBytes 2 layer ++
    leBytes 2 expert ++ leBytes 2 n ++ leBytes 2 w ++ leBytes 1 fmt))

/-- The cells of a byte string. -/
def rowCells (bs : List Byte) : List (BitVec 512) :=
  (List.range ((bs.length + 63) / 64)).map (fun i => BitVec.ofNat 512 (leNat ((bs.drop (64 * i)).take 64)))

/-- The bytes of cells. -/
def cellBytes (cs : List (BitVec 512)) : List Byte := cs.flatMap (fun c => leBytes 64 c.toNat)

/-- Send a dispatch-class message to the XDU endpoint of a die of a rank. -/
def Dev.sendDispatch (d : Dev) (rank die part : Nat) (cs : List (BitVec 512)) : Dev :=
  d.sendMessage 1 rank (engineUnit die (0x40 + die)) part cs (cs.length / 65536 + 1)

/-! ## Contexts -/

/-- The number that names a context in fault and error records: the slot and generation of BATCH_ID (R209, R439). -/
def xContext (key gen : Nat) : Nat := key / 64 * 2 ^ 30 + key % 64 * 2 ^ 24 + gen % 4096

/-- A context has ended: its queue entry finishes with a status.  Batches that still run on tiles keep their room until
they are done or time out (R220, R222). -/
def Dev.xduEnd (d : Dev) (key : Nat) (st : Status) : Dev :=
  match d.xdu.ctxs.find key with
  | none => d
  | some c =>
    let here := c.batches.filter (fun b => match b.site with | .here .. => true | .peer _ => false)
    let d := if st = .ok ∨ st = .capacityDeferred then d else d.finc (Reg.XDU_KILLEDd_COUNT (key / 64))
    let d := d.upXdu (fun x => { x with ctxs := x.ctxs.del key, orphans := x.orphans ++ here.map (fun b => (key / 64, b)) })
    d.wqFinish c.qid c.idx st 0 0

/-- The status of a context that completes (R207). -/
def XCtx.good (c : XCtx) : Status := if c.late then .capacityDeferred else .ok

/-- A message of PATH 0 has ended for a context of a generation (R219, R221). -/
def Dev.xduMsgDone (d : Dev) (key gen : Nat) (flag : Bool) (st : Status) : Dev :=
  match d.xdu.ctxs.find key with
  | none => d
  | some c =>
    if c.gen ≠ gen then d
    else if st ≠ .ok then d.xduEnd key st
    else if flag then d.xduEnd key c.good
    else d.upXdu (fun x => { x with ctxs := x.ctxs.set key { c with inFlight := c.inFlight - 1 } })

/-- Every context with a batch outstanding that passes a test ends. -/
def Dev.xduEndWhere (d : Dev) (hit : XSite → Bool) (st : Status) : Dev :=
  ((d.xdu.ctxs.ents.filter (fun p => p.2.batches.any (fun b => hit b.site))).map (·.1)).foldl (fun d k => d.xduEnd k st) d

/-- The coordinator tile t has stopped: contexts with a batch outstanding on it end (R221). -/
def Dev.xduTileStopped (d : Dev) (t : Nat) (uncorrectable : Bool) : Dev :=
  let d := d.xduEndWhere (fun s => match s with | .here _ u _ _ => decide (u = t) | .peer _ => false) (if uncorrectable then .uncorrectable else .flushed)
  d

/-- A serving rank, or the path to it, is lost (R221). -/
def Dev.xduPathLost (d : Dev) (hit : Nat → Bool) : Dev :=
  d.xduEndWhere (fun s => match s with | .peer r => hit r | .here .. => false) .fabricPathLost

/-! ## Combine (R216) -/

/-- One combined row: FP32 accumulation in ascending expert order. -/
def combineRow (w : Nat) (ins : List (W32 × List W32)) : List W32 :=
  ins.foldl (fun (acc : List W32) p => (acc.zip p.2).map (fun q => (fFma p.1 q.2 q.1).val)) (List.replicate w 0)

/-- The output format of a code, and its bytes. -/
def outFmt (c : Nat) : Fmt × Nat := if c = 0 then (fmtBF16, 2) else if c = 1 then (fmtFP16, 2) else (fmtFP32, 4)

/-- The bytes of a result row. -/
def rowBytes (fmt : Nat) (row : List W32) : List Byte :=
  row.flatMap (fun a => if fmt = 0xB then leBytes 4 a.toNat else leBytes 2 (encodeFloat (outFmt fmt).1 .rne false 0 (decode32 a)).val)

end Sys2Proof.Machine
end

