-- ==== Sys2Proof/Machine/SmvOps.lean ====
section
/-! DEFINITION. Samovar: groups, descriptors, cells, chunks and the end of a collective (chapter 8). -/
namespace Sys2Proof.Machine
open Sys2Proof

/-! ## Groups (R269, R270) -/

/-- A group record. -/
structure GroupRec where
  valid : Bool
  part : Nat
  span : Nat
  slice : Nat
  lo : List Nat
  hi : List Nat
  timeout : Nat
  ring : Nat
  pair : Nat
  deriving DecidableEq, Repr

/-- The record of group g in a COLLECTIVE_GROUPS section. -/
def groupRec (b : Blob) (g : Nat) : GroupRec :=
  let o := 64 + 32 * g
  ⟨decide (b.u8 o = 1), b.u8 (o + 1), b.u8 (o + 2), b.u8 (o + 3), listOf 3 (fun i => b.u8 (o + 4 + i)), listOf 3 (fun i => b.u8 (o + 8 + i)),
    b.u32 (o + 12), b.u16 (o + 16), b.u16 (o + 18)⟩

/-- Coordinate i of a rank under a POD_TOPOLOGY section (R246). -/
def coordOf (topo : Blob) (r i : Nat) : Nat :=
  let a0 := topo.u8 4
  let a1 := topo.u8 5
  if i = 0 then r % a0 else if i = 1 then (r / a0) % a1 else r / (a0 * a1)

/-- A rank meets the conditions of R270 as device `me` sees them. -/
def inGroup (topo : Blob) (g : GroupRec) (me r : Nat) : Bool :=
  (List.range 3).all (fun i =>
    let c := coordOf topo r i
    if g.span.testBit i then decide (g.lo.getD i 0 ≤ c) && decide (c ≤ g.hi.getD i 0) else decide (c = coordOf topo me i))

/-- The members of a group in ascending rank order; none when the device does not belong to it. -/
def groupMembers (topo : Blob) (g : GroupRec) : List Nat :=
  let me := topo.u8 2
  if g.valid && inGroup topo g me me then (List.range (topo.u8 1)).filter (fun r => inGroup topo g me r) else []

/-- The record of a group in force. -/
def Dev.grp (d : Dev) (g : Nat) : GroupRec := groupRec (d.sec secCollectiveGroups) g

/-- The members of a group in force. -/
def Dev.grpMembers (d : Dev) (g : Nat) : List Nat := groupMembers (d.sec secPodTopology) (d.grp g)

/-- The next SEQ of a group. -/
def Dev.grpSeq (d : Dev) (g : Nat) : Nat := d.smv.seqs.get d.smv.base g

/-- A SEQ of a group has not been taken yet. -/
def Dev.seqAhead (d : Dev) (g seq : Nat) : Bool := decide ((2 ^ 32 + seq - d.grpSeq g) % 2 ^ 32 < 2 ^ 31)

/-! ## Descriptors (R272, R273) -/

/-- OP. -/
def sOp (x : BitVec 512) : Nat := bvFld x 128 8
/-- REDOP. -/
def sRedop (x : BitVec 512) : Nat := bvFld x 136 8
/-- TYPE. -/
def sType (x : BitVec 512) : Nat := bvFld x 144 8
/-- FLAGS. -/
def sFlags (x : BitVec 512) : Nat := bvFld x 152 8
/-- GROUP. -/
def sGroup (x : BitVec 512) : Nat := bvFld x 160 8
/-- ROOT. -/
def sRoot (x : BitVec 512) : Nat := bvFld x 168 8
/-- COUNT. -/
def sCount (x : BitVec 512) : Nat := bvFld x 192 32
/-- BLOCK. -/
def sBlock (x : BitVec 512) : Nat := bvFld x 224 32
/-- SRC_ADDR. -/
def sSrc (x : BitVec 512) : Nat := bvFld x 256 64
/-- DST_ADDR. -/
def sDst (x : BitVec 512) : Nat := bvFld x 320 64
/-- SRC_KEY. -/
def sSrcKey (x : BitVec 512) : Nat := bvFld x 384 32
/-- DST_KEY. -/
def sDstKey (x : BitVec 512) : Nat := bvFld x 416 32
/-- AUX. -/
def sAux (x : BitVec 512) : Nat := bvFld x 448 64

/-- The operations by code. -/
def opReduces (op : Nat) : Bool := decide (op = 1 ∨ op = 2)
/-- BROADCAST and MULTICAST_WRITE run their handshake on pair streams (R279). -/
def opPair (op : Nat) : Bool := decide (op = 4 ∨ op = 6)

/-- The bytes of an element of a TYPE. -/
def typeBytes (t : Nat) : Nat := if t = 0 ∨ t = 1 then 2 else if t = 2 ∨ t = 3 then 1 else 4

/-- A TYPE that R272 lists. -/
def typeOk (t : Nat) : Bool := decide (t ≤ 3) || decide (t = 0xB) || decide (t = 0xC)

/-- The bytes of one bitmap (R288). -/
def mapBytes (nblk : Nat) : Nat := (nblk + 63) / 64 * 8

/-- The bytes that a descriptor's SRC holds on this member (R273). -/
def srcLen (x : BitVec 512) (n me : Nat) : Nat :=
  let e := sCount x * typeBytes (sType x)
  match sOp x with
  | 1 => e
  | 2 => n * e
  | 3 => e
  | 4 => if me = sRoot x then e else 0
  | 5 => n * sCount x * sBlock x
  | 6 => if me = sRoot x then e else 0
  | _ => 0

/-- The bytes that a descriptor's DST holds on this member. -/
def dstLen (x : BitVec 512) (n me : Nat) : Nat :=
  let e := sCount x * typeBytes (sType x)
  match sOp x with
  | 1 => e
  | 2 => e
  | 3 => n * e
  | 4 => e
  | 5 => n * sCount x * sBlock x + n * mapBytes (sCount x)
  | 6 => if me ≠ sRoot x ∧ (sAux x).testBit me = true then e else 0
  | _ => 0

/-- A descriptor obeys R272 and R273 for N members, this one being `me`, on a group whose pair streams start at `pair`. -/
def collOk (x : BitVec 512) (n me pair : Nat) : Bool :=
  let op := sOp x
  let c := sCount x
  decide (1 ≤ op) && decide (op ≤ 7) && (if opReduces op then decide (sRedop x ≤ 2) else decide (sRedop x = 0)) &&
  (decide (op = 5 ∨ op = 7) || typeOk (sType x)) && decide (sFlags x < 4) && decide (bvFld x 176 16 = 0) &&
  (if opPair op then decide (sRoot x < n) else decide (sRoot x = 0)) &&
  (if op = 5 then decide (64 ≤ sBlock x) && decide (sBlock x ≤ 65536) && decide (sBlock x % 64 = 0) else decide (sBlock x = 0)) &&
  (decide (op = 5 ∨ op = 6) || decide (sAux x = 0)) && (decide (pair ≠ 0) || !(opPair op || decide (op = 5))) &&
  (if op = 7 then decide (c = 0) else decide (1 ≤ c)) &&
  (if op = 5 then decide (c ≤ 65536) else if op = 2 ∨ op = 3 then decide (c ≤ 2 ^ 28 / n) else decide (c ≤ 2 ^ 28)) &&
  decide (dstLen x n me ≤ 2 ^ 30)

/-- The use of a descriptor's regions. -/
def collUser (part : Nat) (write : Bool) : KeyUser := ⟨if write then rLocalWrite else rLocalRead, write, none, some part, true⟩

/-- Check one range: the device address it starts at, or a status.  Cluster memory, HBM3E and LP5X may hold it (R273). -/
def Dev.collRange (d : Dev) (part key a n : Nat) (write : Bool) : Status × Option Nat :=
  if n = 0 then (.ok, none)
  else
    match d.checkKey key (collUser part write) a n with
    | .dev p =>
      match d.site p with
      | some s => if s.tier = .scratch then (.malformed, none) else (.ok, some p)
      | none => (.accessError, none)
    | .bus _ _ => (.accessError, none)
    | .bad st .. => (st, none)

/-- Check a descriptor's regions (R273, R274): SRC, the send bitmaps, DST, and that SRC and DST do not overlap. -/
def Dev.collRegions (d : Dev) (x : BitVec 512) (part n me : Nat) : Status :=
  let sl := srcLen x n me
  let dl := dstLen x n me
  let s := d.collRange part (sSrcKey x) (sSrc x) sl false
  let b := if sOp x = 5 then d.collRange part (sSrcKey x) (sAux x) (n * mapBytes (sCount x)) false else (.ok, none)
  let t := d.collRange part (sDstKey x) (sDst x) dl true
  let st := firstBad [s.1, b.1, t.1]
  if st ≠ .ok then st
  else
    match s.2, t.2 with
    | some p, some q => if decide (sOp x = 1 ∧ p = q) || decide (p + sl ≤ q) || decide (q + dl ≤ p) then .ok else .malformed
    | _, _ => .ok

/-! ## The digest (R278) -/

/-- The handshake digest. -/
def collDigest (x : BitVec 512) (n seq : Nat) : Nat :=
  let op := sOp x
  let ty := if op = 5 ∨ op = 7 then 0 else sType x
  let fl := (if op = 5 then sFlags x % 2 else 0) + (if opReduces op then sFlags x / 2 % 2 * 2 else 0)
  crcBytes 64 0xC96C5795D7870F42
    (leBytes 1 op ++ leBytes 1 (sRedop x) ++ leBytes 1 ty ++ leBytes 1 fl ++ leBytes 1 (sGroup x) ++ leBytes 1 (sRoot x) ++ leBytes 1 n ++ leBytes 1 0 ++
     leBytes 4 (sCount x) ++ leBytes 4 (sBlock x) ++ leBytes 4 seq ++ leBytes 4 0 ++ leBytes 8 (if op = 6 then sAux x else 0))

/-! ## Cells (R279) -/

/-- The fields of a collective control cell. -/
structure SmvCell where
  kind : Nat
  group : Nat
  anchor : Nat
  phase : Nat
  seq : Nat
  digest : Nat
  mismatch : W64
  earliest : Nat
  latest : Nat
  lateMember : Nat
  n : Nat
  chunk : Nat
  srcMember : Nat
  elements : Nat
  deriving DecidableEq, Repr

/-- The payload of a cell. -/
def SmvCell.bits (c : SmvCell) : BitVec 512 :=
  BitVec.ofNat 512 (leNat (leBytes 1 c.kind ++ leBytes 1 c.group ++ leBytes 1 c.anchor ++ leBytes 1 c.phase ++ leBytes 4 c.seq ++
    leBytes 8 c.digest ++ leBytes 8 c.mismatch.toNat ++ leBytes 8 c.earliest ++ leBytes 8 c.latest ++ leBytes 1 c.lateMember ++ leBytes 1 c.n ++
    leBytes 2 c.chunk ++ leBytes 1 c.srcMember ++ leBytes 3 0 ++ leBytes 4 c.elements))

/-- The fields of a payload. -/
def smvCell (b : BitVec 512) : SmvCell :=
  ⟨bvFld b 0 8, bvFld b 8 8, bvFld b 16 8, bvFld b 24 8, bvFld b 32 32, bvFld b 64 64, BitVec.ofNat 64 (bvFld b 128 64), bvFld b 192 64,
    bvFld b 256 64, bvFld b 320 8, bvFld b 328 8, bvFld b 336 16, bvFld b 352 8, bvFld b 384 32⟩

/-- The members. -/
def Coll.size (c : Coll) : Nat := c.members.length
/-- The group. -/
def Coll.group (c : Coll) : Nat := sGroup c.desc
/-- The ANCHOR. -/
def Coll.anchor (c : Coll) : Nat := c.members.headD 0
/-- The operation. -/
def Coll.op (c : Coll) : Nat := sOp c.desc
/-- ROOT. -/
def Coll.root (c : Coll) : Nat := sRoot c.desc
/-- This member. -/
def Coll.self (c : Coll) : W64 := BitVec.ofNat 64 (2 ^ c.me)
/-- The next member of the ring. -/
def Coll.succ (c : Coll) : Nat := (c.me + 1) % c.size
/-- The member before. -/
def Coll.pred (c : Coll) : Nat := (c.me + c.size - 1) % c.size

/-- A control cell of a collective. -/
def Coll.cell (c : Coll) (kind : Nat) : SmvCell :=
  let h := decide (kind = 1 ∨ kind = 2)
  { kind := kind, group := c.group, anchor := c.anchor, phase := 0, seq := c.seq, digest := if h then c.digest else 0,
    mismatch := if h then c.mismatch else 0, earliest := if h then c.earliest else 0, latest := if h then c.latest else 0,
    lateMember := if h then c.lateMember else 0, n := c.size, chunk := 0, srcMember := 0, elements := 0 }

/-- Send cells in bursts of at most 65,536 on a static stream (R234); `n` bounds the bursts. -/
def Dev.sendStatics (d : Dev) (stream dst unit part : Nat) (ps : List (BitVec 512)) : Nat → Dev
  | 0 => d
  | n + 1 =>
    if ps = [] then d
    else (d.sendStatic stream dst unit part (ps.take 65536)).sendStatics stream dst unit part (ps.drop 65536) n

/-- Send cells to a member: on the ring stream to the successor, or on its pair stream (R279, R288, R290).  The member's slice
is taken to be the one of this device's record. -/
def Dev.smvSend (d : Dev) (c : Coll) (ring : Bool) (k : Nat) (ps : List (BitVec 512)) : Dev :=
  let g := d.grp c.group
  d.sendStatics (if ring then g.ring else g.pair + k) (c.members.getD k 0) (engineUnit c.die (0x48 + c.die)) c.part ps (ps.length / 65536 + 1)

/-- Cells of a byte string, the last one padded with zeros. -/
def cellsOfBytes (bs : List Byte) : List (BitVec 512) :=
  (List.range ((bs.length + 63) / 64)).map (fun i => BitVec.ofNat 512 (leNat ((bs.drop (64 * i)).take 64)))

/-- A DATA_HDR and the data cells behind it. -/
def Coll.burst (c : Coll) (phase chunk elements : Nat) (cells : List (BitVec 512)) : List (BitVec 512) :=
  { c.cell 5 with phase := phase, chunk := chunk, srcMember := c.me, elements := elements }.bits :: cells

/-- Bytes padded with zeros to whole granules of 16 elements of w bytes (R285). -/
def padGranules (bs : List Byte) (n w : Nat) : List Byte := bs ++ List.replicate (roundUp n 16 * w - bs.length) 0

/-! ## Elements (R282 to R284) -/

/-- Chunk j of an operation: its first element and its elements. -/
def Coll.chunk (c : Coll) (j : Nat) : Nat × Nat :=
  let n := c.size
  let cnt := sCount c.desc
  if c.op = 1 then
    let g := (cnt + 15) / 16
    let q := g / n
    let r := g % n
    let first := 16 * (j * q + min j r)
    (min first cnt, min cnt (first + 16 * (if j < r then q + 1 else q)) - min first cnt)
  else (j * cnt, cnt)

/-- The float format of a TYPE. -/
def typeFmt (t : Nat) : Fmt := if t = 0 then fmtBF16 else if t = 1 then fmtFP16 else if t = 2 then fmtE4M3 else if t = 3 then fmtE5M2 else fmtFP32

/-- Widen an element to a partial: FP32, or the integer itself. -/
def collWiden (t x : Nat) : W32 :=
  if t = 0xB ∨ t = 0xC then BitVec.ofNat 32 x else BitVec.ofNat 32 (encodeFloat fmtFP32 .rne false 0 (decodeFloat (typeFmt t) x)).val

/-- Combine the arriving partial with this member's element. -/
def collCombine (t redop : Nat) (a b : W32) : W32 :=
  if t = 0xC then
    if redop = 0 then a + b else if redop = 1 then (if a.toInt < b.toInt then b else a) else (if b.toInt < a.toInt then b else a)
  else if redop = 0 then (fAdd a b).val else (fMinMax (decide (redop = 1)) a b).val

/-- Convert a final value to TYPE. -/
def collNarrow (t : Nat) (sat : Bool) (a : W32) : Nat := if t = 0xC then a.toNat else (encodeFloat (typeFmt t) .rne sat 0 (decode32 a)).val

/-- The elements of w bytes each in a byte string. -/
def elemsOf (w n : Nat) (bs : List Byte) : List Nat := (List.range n).map (fun i => leNat ((bs.drop (w * i)).take w))

/-- The bytes that data cells carry. -/
def dataBytes (cells : List (BitVec 512)) : List Byte := cellBytes (cells.drop 1)

/-- The bursts a member must receive. -/
def Coll.expected (c : Coll) : List (Nat × Nat) :=
  let n := c.size
  let some_ (j : Nat) : Bool := decide (0 < (c.chunk j).2)
  let red := ((List.range n).filter (fun j => decide (j ≠ c.pred) && some_ j)).map (fun j => (1, j))
  let gat := ((List.range n).filter (fun j => decide (j ≠ c.me) && some_ j)).map (fun j => (2, j))
  match c.op with
  | 1 => red ++ gat
  | 2 => red
  | 3 => gat
  | 4 => if c.me = c.root then [] else [(3, c.root)]
  | 5 => ((List.range n).filter (fun j => decide (j ≠ c.me))).map (fun j => (3, j))
  | 6 => if c.me ≠ c.root ∧ (sAux c.desc).testBit c.me = true then [(3, c.root)] else []
  | _ => []

/-! ## The end of a collective (R292 to R295) -/

/-- Record an abort for a SEQ that has not been taken, or end the collective that runs it (R292). -/
def Dev.smvRecord (d : Dev) (g : Nat) (a : SmvAbort) : Dev :=
  let l := d.smv.aborts.get [] g
  if l.length < 16 then d.upSmv (fun s => { s with aborts := s.aborts.set g (l ++ [a]) })
  else d.finc (Reg.SMV_ABORT_DROPd_COUNT (d.grp g).slice)

/-- Overwrite AUX of an entry in its ring (R272). -/
def Dev.writeAux (d : Dev) (qid idx : Nat) (members : W64) : Dev :=
  match d.wqFind qid with
  | some q => if q.state = .error ∨ q.state = .lost ∨ q.quiet = true then d else (d.wqWrite qid (wqSlot q idx + 0x38) (leBytes 8 members.toNat) false).1
  | none => d

/-- The lag counters (R295). -/
def Dev.smvLag (d : Dev) (c : Coll) : Dev :=
  if d.fon Reg.SMV_LAG_SEL_EN ∧ d.fget Reg.SMV_LAG_SEL_GROUP = c.group ∧ c.verdict = true then
    let m := c.lateMember
    let d := d.finc (Reg.SMV_LAGm_LATE_COUNT m)
    d.fset (Reg.SMV_LAGm_LAG_MAX_NS m) (max (d.fget (Reg.SMV_LAGm_LAG_MAX_NS m)) (min 0xFFFFFFFF (c.latest - c.earliest)))
  else d

/-- End the collective of a group on this member. -/
def Dev.smvClose (d : Dev) (g : Nat) (st : Status) (members : W64) : Dev :=
  match d.smv.colls.find g with
  | none => d
  | some c =>
    let d := d.smvLag c
    let d := if st = .ok ∨ st = .partialDelivery then d.finc (Reg.SMV_DONEd_COUNT c.die) else d.finc (Reg.SMV_ABORTd_COUNT c.die)
    let d := if st = .ok then d else d.writeAux c.qid c.idx members
    (d.upSmv (fun s => { s with colls := s.colls.del g })).wqFinish c.qid c.idx st 0 0

/-- An ABORT reaches this device (R292). -/
def Dev.smvAbort (d : Dev) (g anchor seq : Nat) (st : Status) (members : W64) : Dev :=
  if (d.grpMembers g).head? ≠ some anchor then d
  else if ((d.smv.colls.find g).any (fun c => decide (c.seq = seq))) = true then d.smvClose g st members
  else if d.seqAhead g seq then d.smvRecord g ⟨seq, st, members⟩
  else d

/-- Tell the other members of an abort. -/
def Dev.smvTell (d : Dev) (g anchor seq : Nat) (st : Status) (members : W64) : Dev :=
  d.announce (.seqnum 1 g anchor st.code (BitVec.ofNat 32 seq) members d.rank) (fun d => d.smvAbort g anchor seq st members)

/-- A member ends a collective with a status other than OK, and tells the others once its GATHER has gone (R292). -/
def Dev.smvFail (d : Dev) (g : Nat) (st : Status) (members : W64) : Dev :=
  match d.smv.colls.find g with
  | none => d
  | some c =>
    let d := d.smvClose g st members
    if c.gathered then d.smvTell g c.anchor c.seq st members else d

/-- End every running collective that passes a test, naming members (R293, R294). -/
def Dev.smvFailWhere (d : Dev) (hit : Coll → Bool) (st : Status) (members : Coll → W64) : Dev :=
  (d.smv.colls.ents.filter (fun p => hit p.2)).foldl (fun d p => d.smvFail p.1 st (members p.2)) d

/-- A rank is lost: every running collective it is a member of ends (R293). -/
def Dev.smvRankLost (d : Dev) (r : Nat) : Dev :=
  d.smvFailWhere (fun c => c.members.contains r) .memberLost (fun c => BitVec.ofNat 64 (2 ^ (c.members.findIdx (fun x => decide (x = r)))))

/-- The members that a member has sent to. -/
def Coll.peers (c : Coll) : List Nat :=
  if opPair c.op then (if c.me = c.root then (List.range c.size).filter (fun k => decide (k ≠ c.me)) else [c.root])
  else c.succ :: (if c.op = 5 ∧ c.phase ≠ 1 then (List.range c.size).filter (fun k => decide (k ≠ c.me)) else [])

/-- The path to ranks is lost (R262, R294): `hit` says which. -/
def Dev.smvPathLost (d : Dev) (hit : Nat → Bool) : Dev :=
  d.smvFailWhere (fun c => c.gathered && c.peers.any (fun k => hit (c.members.getD k 64))) .fabricPathLost Coll.self

/-- A burst of a collective was answered with EPOCH_NAK (R255, R294): `p` is the payload of its first cell. -/
def Dev.smvNak (d : Dev) (p : BitVec 512) : Dev :=
  let x := smvCell p
  d.smvFailWhere (fun c => decide (c.group = x.group) && decide (c.anchor = x.anchor) && decide (c.seq = x.seq)) .roleEpochMismatch Coll.self

/-- The slice of a die ends its collectives (R521). -/
def Dev.smvDieEnd (d : Dev) (die : Nat) (st : Status) : Dev := d.smvFailWhere (fun c => decide (c.die = die)) st Coll.self

/-! ## Moving data -/

/-- The context of a collective in records. -/
def Coll.ctx (c : Coll) (key : Nat) : UnitCtx := ⟨4, c.group * 256 + c.anchor, c.part, c.fn, key⟩

/-- Read SRC; a failure ends the collective on every member (R294). -/
def Dev.smvRead (d : Dev) (c : Coll) (a n : Nat) : Dev × Option (List Byte) :=
  match d.keyRead (collUser c.part false) (sSrcKey c.desc) a n .lost with
  | (d, bs, none) => (d, some bs)
  | (d, _, some f) => ((d.unitFault (c.ctx (sSrcKey c.desc)) f false false).smvFail c.group f.st c.self, none)

/-- Write DST; a failure ends the collective on every member. -/
def Dev.smvWrite (d : Dev) (c : Coll) (a : Nat) (bs : List Byte) : Dev × Bool :=
  match d.keyWrite (collUser c.part true) (sDstKey c.desc) a bs false with
  | (d, none) => (d, true)
  | (d, some f) => ((d.unitFault (c.ctx (sDstKey c.desc)) f true false).smvFail c.group f.st c.self, false)

/-- The gather-phase burst of a chunk. -/
def Dev.smvGatherOn (d : Dev) (c : Coll) (j n : Nat) (bs : List Byte) : Dev :=
  d.smvSend c true c.succ (c.burst 2 j n (cellsOfBytes (padGranules bs n (typeBytes (sType c.desc)))))

/-- The reduce-phase burst of a chunk. -/
def Dev.smvReduceOn (d : Dev) (c : Coll) (j : Nat) (ps : List W32) : Dev :=
  d.smvSend c true c.succ (c.burst 1 j ps.length (cellsOfBytes (padGranules (ps.flatMap (fun a => leBytes 4 a.toNat)) ps.length 4)))

/-- The blocks whose bits are set. -/
def setBlocks (nblk : Nat) (map : List Byte) : List Nat :=
  (List.range nblk).filter (fun b => ((map.getD (b / 8) 0).toNat).testBit (b % 8))

/-- Write a slab of a sparse all-to-all: its bitmap, the blocks sent, and zero to the others under ZERO_FILL (R289). -/
def Dev.smvSlab (d : Dev) (c : Coll) (k : Nat) (map blocks : List Byte) : Dev × Bool :=
  let x := c.desc
  let nb := sCount x
  let bl := sBlock x
  let base := sDst x + k * nb * bl
  let on := setBlocks nb map
  let r := d.smvWrite c (sDst x + c.size * nb * bl + k * mapBytes nb) map
  (List.range nb).foldl (fun (r : Dev × Bool) b =>
    if !r.2 then r
    else if on.contains b then r.1.smvWrite c (base + b * bl) ((blocks.drop (on.findIdx (fun y => decide (y = b)) * bl)).take bl)
    else if sFlags x % 2 = 1 then r.1.smvWrite c (base + b * bl) (List.replicate bl 0) else r) r

/-- Read the bitmap for member k and the blocks it sends (R288). -/
def Dev.smvSlabRead (d : Dev) (c : Coll) (k : Nat) : Dev × Option (List Byte × List Byte) :=
  let x := c.desc
  let nb := sCount x
  let bl := sBlock x
  match d.smvRead c (sAux x + k * mapBytes nb) (mapBytes nb) with
  | (d, none) => (d, none)
  | (d, some map) =>
    let map := (List.range map.length).map (fun i => (map.getD i 0) &&& BitVec.ofNat 8 (2 ^ (min 8 (nb - 8 * i)) - 1))
    (setBlocks nb map).foldl (fun (r : Dev × Option (List Byte × List Byte)) b =>
      match r.2 with
      | none => r
      | some (m, acc) =>
        match r.1.smvRead c (sSrc x + (k * nb + b) * bl) bl with
        | (d, some bs) => (d, some (m, acc ++ bs))
        | (d, none) => (d, none)) (d, some (map, []))

/-- Send, or copy, the slabs of a sparse all-to-all. -/
def Dev.smvSlabs (d : Dev) (c : Coll) : List Nat → Dev
  | [] => d
  | k :: r =>
    match d.smvSlabRead c k with
    | (d, none) => d
    | (d, some (map, blocks)) =>
      if k = c.me then
        match d.smvSlab c k map blocks with
        | (d, true) => d.smvSlabs c r
        | (d, false) => d
      else
        let maps := cellsOfBytes (map ++ List.replicate (roundUp map.length 64 - map.length) 0)
        (d.smvSend c false k (c.burst 3 0 (setBlocks (sCount c.desc) map).length (maps ++ cellsOfBytes blocks))).smvSlabs c r

/-- The destinations of ROOT. -/
def Coll.dests (c : Coll) : List Nat :=
  (List.range c.size).filter (fun k => decide (k ≠ c.me) && !c.excluded.contains k && (decide (c.op = 4) || (sAux c.desc).testBit k))

/-- The member may send data (R281): its first bursts. -/
def Dev.smvData (d : Dev) (c : Coll) : Dev :=
  let x := c.desc
  let w := typeBytes (sType x)
  let ch := c.chunk c.pred
  let own := sCount x * w
  match c.op with
  | 3 =>
    match d.smvRead c (sSrc x) own with
    | (d, none) => d
    | (d, some bs) =>
      match d.smvWrite c (sDst x + c.me * own) bs with
      | (d, true) => d.smvGatherOn c c.me (sCount x) bs
      | (d, false) => d
  | 5 => d.smvSlabs c (List.range c.size)
  | 1 | 2 =>
    if ch.2 = 0 then d
    else
      match d.smvRead c (sSrc x + ch.1 * w) (ch.2 * w) with
      | (d, some bs) => d.smvReduceOn c c.pred ((elemsOf w ch.2 bs).map (collWiden (sType x)))
      | (d, none) => d
  | 4 | 6 =>
    if c.me ≠ c.root then d
    else
      match d.smvRead c (sSrc x) own with
      | (d, none) => d
      | (d, some bs) =>
        let r := if c.op = 4 then d.smvWrite c (sDst x) bs else (d, true)
        if r.2 then c.dests.foldl (fun d k => d.smvSend c false k (c.burst 3 0 (sCount x) (cellsOfBytes bs))) r.1 else r.1
  | _ => d

/-! ## Handshake and commit (R280, R281, R287, R291) -/

/-- Change the collective of a group. -/
def Dev.smvPut (d : Dev) (c : Coll) : Dev := d.upSmv (fun s => { s with colls := s.colls.set c.group c })

/-- VERDICT has reached the member (R281): it ends, or data starts. -/
def Dev.smvVerdict (d : Dev) (c : Coll) : Dev :=
  let c := { c with verdict := true }
  let d := d.smvPut c
  if c.mismatch ≠ 0 then d.smvFail c.group .collectiveMismatch c.mismatch
  else if c.op = 7 then d.smvClose c.group .ok 0
  else
    let c := { c with phase := 2 }
    (d.smvPut c).smvData c

/-- Fields of an arriving GATHER or VERDICT. -/
def Coll.take (c : Coll) (x : SmvCell) : Coll :=
  { c with mismatch := x.mismatch, earliest := x.earliest, latest := x.latest, lateMember := x.lateMember }

/-- The member's post time enters the earliest and latest (R280). -/
def Coll.stamp (c : Coll) (post k : Nat) : Coll :=
  { c with earliest := min c.earliest post, latest := max c.latest post, lateMember := if c.latest < post then k else c.lateMember }

/-- The other members that ROOT deals with. -/
def Coll.others (c : Coll) : List Nat := (List.range c.size).filter (fun k => decide (k ≠ c.me) && !c.excluded.contains k)

/-- The status with which ROOT or member 0 completes (R291). -/
def Coll.outcome (c : Coll) : Status × W64 :=
  let lost := c.excluded.filter (fun k => (sAux c.desc).testBit k)
  if lost = [] then (.ok, 0) else (.partialDelivery, BitVec.ofNat 64 (maskOf lost))

/-- ROOT goes on once every member it waits for has answered. -/
def Dev.smvRoot (d : Dev) (c : Coll) : Dev :=
  if c.phase = 1 ∧ c.verdict = false ∧ c.others.all (fun k => c.heard.contains k) = true then
    (c.others.foldl (fun d k => d.smvSend c false k [(c.cell 2).bits]) d).smvVerdict c
  else if c.phase = 3 ∧ c.others.all (fun k => c.commits.contains k) = true then
    (c.others.foldl (fun d k => d.smvSend c false k [(c.cell 4).bits]) d).smvClose c.group c.outcome.1 c.outcome.2
  else d.smvPut c

/-- A GATHER meets its descriptor (R280). -/
def Dev.smvGather (d : Dev) (c : Coll) (src : Nat) (x : SmvCell) : Dev :=
  let bit (k : Nat) (m : W64) : W64 := m ||| BitVec.ofNat 64 (2 ^ k)
  if opPair c.op then
    let k := c.members.findIdx (fun r => decide (r = src))
    if c.me ≠ c.root ∨ c.size ≤ k ∨ c.heard.contains k = true ∨ c.phase ≠ 1 then d
    else
      let c := { c with heard := c.heard ++ [k], mismatch := if x.digest = c.digest then c.mismatch else bit k c.mismatch }
      d.smvRoot (c.stamp x.latest k)
  else if c.phase ≠ 1 ∨ c.verdict = true then d
  else if c.me = 0 then
    let c := { c.take x with verdict := true }
    (d.smvPut c).smvSend c true c.succ [(c.cell 2).bits]
  else if c.gathered then d
  else
    let own := c.digest
    let c := { (c.take x).stamp c.post c.me with gathered := true }
    let c := { c with mismatch := if x.digest = own then c.mismatch else bit c.me c.mismatch }
    (d.smvPut c).smvSend c true c.succ [{ c.cell 1 with digest := x.digest }.bits]

/-- A member that is ready, with COMMIT in hand, passes it on (R287). -/
def Dev.smvCommit (d : Dev) (c : Coll) : Dev :=
  if c.ready ∧ c.commitIn = true ∧ c.phase = 2 then
    let c := { c with phase := 3 }
    (d.smvPut c).smvSend c (!opPair c.op) (if opPair c.op then c.root else c.succ) [(c.cell 3).bits]
  else d.smvPut c

/-- A fence has changed, or a descriptor has been taken: fenced members (R291). -/
def Dev.smvFence (d : Dev) (g : Nat) : Dev :=
  match d.smv.colls.find g with
  | none => d
  | some c =>
    let f := (List.range c.size).filter (fun k => d.rankFenced (c.members.getD k 0))
    if f = [] ∨ f.contains c.me = true then d
    else if c.op = 6 then
      if c.me = c.root then d.smvRoot { c with excluded := f } else d
    else d.smvFail g .memberLost (BitVec.ofNat 64 (maskOf f))

end Sys2Proof.Machine
end

