-- ==== Sys2Proof/Machine/Collectives.lean ====
section
/-! DEFINITION. Samovar collectives: descriptors, cells and messages (chapter 8). -/
namespace Sys2Proof.Machine
open Sys2Proof

/-! ## Descriptors (R274 to R276) -/

/-- Collectives that run on the slice of a die. -/
def Dev.smvRunning (d : Dev) (die : Nat) : Nat := (d.smv.colls.vals.filter (fun c => decide (c.die = die))).length

/-- The slice whose turn takes an entry of the class. -/
def Dev.smvDie (d : Dev) (e : WqEntry) : Nat :=
  let g := sGroup e.desc
  if (d.grpMembers g).isEmpty then 0 else (d.grp g).slice % 4

/-- A slice can take an entry: its group is free, a base has come, fewer than 16 run and no commit holds it.  An entry whose
group does not contain the device can be refused at once. -/
def Dev.smvCan (d : Dev) (die : Nat) (e : WqEntry) : Bool :=
  let g := sGroup e.desc
  decide (d.smvDie e = die) &&
    ((d.grpMembers g).isEmpty ||
      (d.smv.started && (d.smv.colls.find g).isNone && decide (d.smvRunning die < 16) && !d.partHeld (d.grp g).part))

/-- A descriptor that has taken a SEQ is refused: the others are told (R274). -/
def Dev.smvRefuse (d : Dev) (qid : Nat) (e : WqEntry) (g seq me anchor : Nat) (st : Status) : Dev :=
  let self := BitVec.ofNat 64 (2 ^ me)
  let d := d.writeAux qid e.idx self
  let d := if st = .malformed then d.wqMalformed qid e.idx else d.wqFinish qid e.idx st 0 0
  d.smvTell g anchor seq st self

/-- The collective that a descriptor starts, with the status of its checks. -/
def Dev.smvNew (d : Dev) (qid : Nat) (q : Wq) (e : WqEntry) : Coll × Status :=
  let g := sGroup e.desc
  let r := d.grp g
  let ms := d.grpMembers g
  let me := ms.findIdx (fun x => decide (x = d.rank))
  let seq := d.grpSeq g
  let root := decide (opPair (sOp e.desc) = true ∧ me = sRoot e.desc) || decide (opPair (sOp e.desc) = false ∧ me = 0)
  let c : Coll :=
    { die := r.slice % 4, qid := qid, idx := e.idx, desc := e.desc, fn := wqFn q.ctx, part := r.part, members := ms, me := me, seq := seq,
      post := d.podTime, phase := 1, digest := collDigest e.desc ms.length seq, gathered := root, verdict := false, mismatch := 0,
      earliest := d.podTime, latest := d.podTime, lateMember := me, heard := [], commits := [], excluded := [], got := [],
      commitIn := false, ready := false }
  let st := if !collOk e.desc ms.length me r.pair || decide (d.wqPart q ≠ some r.part) then Status.malformed
    else if d.fbit Reg.RAS_FENCED_DIE_DIES (r.slice % 4) then Status.uncorrectable
    else d.collRegions e.desc r.part ms.length me
  (c, st)

/-- The GATHERs that wait for a collective meet it. -/
def Dev.smvMeet (d : Dev) (c : Coll) : Dev :=
  let mine (h : SmvHeld) : Bool := decide (h.group = c.group) && decide ((smvCell h.cell).seq = c.seq)
  let hs := d.smv.held.filter mine
  let d := d.upSmv (fun s => { s with held := s.held.filter (fun h => !mine h) })
  hs.foldl (fun d h =>
    match d.smv.colls.find c.group with
    | some c => d.smvGather c h.src (smvCell h.cell)
    | none => d) d

/-- A descriptor has been started: it takes a SEQ and runs, or ends at once (R274, R276, R292). -/
def Dev.smvTake (d : Dev) (qid : Nat) (q : Wq) (e : WqEntry) : Dev :=
  let g := sGroup e.desc
  let ms := d.grpMembers g
  if ms.isEmpty then (d.writeAux qid e.idx 0).wqMalformed qid e.idx
  else
    let cs := d.smvNew qid q e
    let c := cs.1
    let d := d.upSmv (fun s => { s with seqs := s.seqs.set g ((c.seq + 1) % 2 ^ 32) })
    let aborts := d.smv.aborts.get [] g
    match aborts.find? (fun a => decide (a.seq = c.seq)) with
    | some a =>
      let d := d.upSmv (fun s =>
        { s with aborts := s.aborts.set g (aborts.filter (fun a => decide (a.seq ≠ c.seq))),
                 held := s.held.filter (fun h => !(decide (h.group = g) && decide ((smvCell h.cell).seq = c.seq))) })
      (((d.finc (Reg.SMV_ABORTd_COUNT c.die)).writeAux qid e.idx a.members).wqFinish qid e.idx a.status 0 0)
    | none =>
      if cs.2 ≠ .ok then d.smvRefuse qid e g c.seq c.me c.anchor cs.2
      else
        let d := d.smvPut c
        let d :=
          if opPair c.op then (if c.me = c.root then d else (d.smvPut { c with gathered := true }).smvSend c false c.root [(c.cell 1).bits])
          else if c.me = 0 then d.smvSend c true c.succ [(c.cell 1).bits] else d
        (match d.smv.colls.find g with | some c => d.smvMeet c | none => d).smvFence g

/-- COLLECTIVE: the slice of the group takes the descriptor at the front of a collective queue in its turn (R275, R320). -/
def execCollective (qid : BitVec 16) (s : State) : Host.Outcome State Fault Refusal :=
  onDev s (fun d =>
    if !d.live then d
    else
      match d.wqFind qid.toNat with
      | none => d
      | some q =>
        match q.front with
        | none => d
        | some e =>
          if wqClass q.ctx ≠ 3 then d
          else
            let die := d.smvDie e
            match d.wqTurn (1 + die) 3 qid.toNat (fun _ _ e => d.smvCan die e) with
            | some (d, e) => d.smvTake qid.toNat q e
            | none => d)

/-! ## Arriving cells (R279 to R291) -/

/-- The first burst of a rank at the slice endpoint of a die, and the bursts that remain. -/
def Dev.smvBurst (d : Dev) (die src : Nat) : Option (OnfBurst × List OnfBurst) :=
  takeFirst (fun (b : OnfBurst) => decide (b.cls = 0) && decide (b.peer = src) && decide (1024 ≤ b.unit) && decide (b.unit % 1024 = 256 * die + 0x48 + die)) d.onf.inbox

/-- The running collective that a cell names on a slice (R285). -/
def Dev.smvMatch (d : Dev) (die : Nat) (x : SmvCell) : Option Coll :=
  match d.smv.colls.find x.group with
  | some c => if c.die = die ∧ c.anchor = x.anchor ∧ c.seq = x.seq then some c else none
  | none => none

/-- Take a one-cell message of a KIND from a rank; one that matches no running collective is dropped and counted. -/
def Dev.smvControl (d : Dev) (die src kind : Nat) (f : Dev → Coll → SmvCell → Dev) : Dev :=
  if !d.live then d
  else
    match d.smvBurst die src with
    | none => d
    | some (b, rest) =>
      let x := smvCell (b.cells.headD 0)
      if x.kind ≠ kind then d
      else
        let d := d.upOnf (fun o => { o with inbox := rest })
        match d.smvMatch die x with
        | some c => f d c x
        | none => d.fadd (Reg.SMV_STALEd_COUNT die) b.cells.length

/-- GATHER: the next message of a rank at a slice is a GATHER: it is forwarded, or taken in by ROOT, once this device has taken
the descriptor of that SEQ, and held until then (R280). -/
def execGather (die : Fin 4) (src : Fin 64) (s : State) : Host.Outcome State Fault Refusal :=
  onDev s (fun d =>
    if !d.live then d
    else
      match d.smvBurst die src with
      | none => d
      | some (b, rest) =>
        let p := b.cells.headD 0
        let x := smvCell p
        if x.kind ≠ 1 then d
        else
          let d := d.upOnf (fun o => { o with inbox := rest })
          match d.smvMatch die x with
          | some c => d.smvGather c src x
          | none =>
            if (d.grpMembers x.group).head? = some x.anchor ∧ (d.grp x.group).slice = die.val ∧ d.seqAhead x.group x.seq = true then
              d.upSmv (fun s => { s with held := s.held ++ [⟨x.group, die, src, p⟩] })
            else d.finc (Reg.SMV_STALEd_COUNT die))

/-- VERDICT: the next message of a rank at a slice is a VERDICT: it is forwarded on a ring, and ends the collective or starts its
data (R280, R281). -/
def execVerdict (die : Fin 4) (src : Fin 64) (s : State) : Host.Outcome State Fault Refusal :=
  onDev s (fun d => d.smvControl die src 2 (fun d c x =>
    if c.phase ≠ 1 then d
    else if opPair c.op then (if c.me = c.root then d else d.smvVerdict (c.take x))
    else if c.me = 0 then (if c.verdict then d.smvVerdict c else d)
    else
      let c := c.take x
      (d.smvSend c true c.succ [{ c.cell 2 with digest := x.digest }.bits]).smvVerdict c))

/-- The data cells that a DATA_HDR announces for a running collective (R285, R288). -/
def Coll.dataCells (c : Coll) (x : SmvCell) : Nat :=
  let w := typeBytes (sType c.desc)
  let g := ((c.chunk x.chunk).2 + 15) / 16
  if x.phase = 1 then g
  else if x.phase = 2 then (g * 16 * w + 63) / 64
  else if c.op = 5 then (sCount c.desc + 511) / 512 + x.elements * (sBlock c.desc / 64)
  else (sCount c.desc * w + 63) / 64

/-- Bursts of a rank at a slice from the first on, until they hold `need` cells or one is not full (R234): their cells, and
the inbox without them. -/
def Dev.smvMessage (d : Dev) (die src need : Nat) : List (BitVec 512) × List OnfBurst :=
  let here (b : OnfBurst) : Bool := decide (b.cls = 0) && decide (b.peer = src) && decide (1024 ≤ b.unit) && decide (b.unit % 1024 = 256 * die + 0x48 + die)
  let step (acc : (List (BitVec 512) × Bool) × List OnfBurst) (b : OnfBurst) : (List (BitVec 512) × Bool) × List OnfBurst :=
    if here b && acc.1.2 then
      let cells := acc.1.1 ++ b.cells
      ((cells, decide (b.cells.length = 65536) && decide (cells.length < need)), acc.2)
    else (acc.1, acc.2 ++ [b])
  let r := d.onf.inbox.foldl step (([], true), [])
  (r.1.1, r.2)

/-- A reduce-phase burst: partials collCombine with this member's elements and go on, or the final chunk is written (R283). -/
def Dev.smvReduce (d : Dev) (c : Coll) (j : Nat) (bs : List Byte) : Dev :=
  let x := c.desc
  let w := typeBytes (sType x)
  let ch := c.chunk j
  match d.smvRead c (sSrc x + ch.1 * w) (ch.2 * w) with
  | (d, none) => d
  | (d, some own) =>
    let parts := (elemsOf 4 ch.2 bs).map (fun v => BitVec.ofNat 32 v)
    let sum := (parts.zip ((elemsOf w ch.2 own).map (collWiden (sType x)))).map (fun p => collCombine (sType x) (sRedop x) p.1 p.2)
    if j ≠ c.me then d.smvReduceOn c j sum
    else
      let out := sum.flatMap (fun a => leBytes w (collNarrow (sType x) ((sFlags x).testBit 1) a))
      match d.smvWrite c (sDst x + (if c.op = 1 then ch.1 * w else 0)) out with
      | (d, true) => if c.op = 1 then d.smvGatherOn c j ch.2 out else d
      | (d, false) => d

/-- A data burst that the member expects. -/
def Dev.smvTakeData (d : Dev) (c : Coll) (x : SmvCell) (bs : List Byte) : Dev :=
  let w := typeBytes (sType c.desc)
  let ch := c.chunk x.chunk
  if x.phase = 1 then d.smvReduce c x.chunk bs
  else if x.phase = 2 then
    let out := bs.take (ch.2 * w)
    match d.smvWrite c (sDst c.desc + ch.1 * w) out with
    | (d, true) => if c.succ = x.chunk then d else d.smvGatherOn c x.chunk ch.2 out
    | (d, false) => d
  else if c.op = 5 then
    let m := (sCount c.desc + 511) / 512 * 64
    (d.smvSlab c x.srcMember (bs.take (mapBytes (sCount c.desc))) (bs.drop m)).1
  else (d.smvWrite c (sDst c.desc) (bs.take (sCount c.desc * w))).1

/-- DATA_HDR: the next message of a rank at a slice is a data burst: partials are combined and sent on, or written to DST
(R283 to R290).  One that comes before VERDICT waits; one that matches no collective, or that the collective does not expect, is
dropped and counted. -/
def execDataHdr (die : Fin 4) (src : Fin 64) (s : State) : Host.Outcome State Fault Refusal :=
  onDev s (fun d =>
    if !d.live then d
    else
      match d.smvBurst die src with
      | none => d
      | some (b, _) =>
        let x := smvCell (b.cells.headD 0)
        if x.kind ≠ 5 then d
        else
          let drop (need : Nat) : Dev :=
            let m := d.smvMessage die src need
            (d.upOnf (fun o => { o with inbox := m.2 })).fadd (Reg.SMV_STALEd_COUNT die) m.1.length
          match d.smvMatch die x with
          | none => drop (2 ^ 64)
          | some c =>
            let key := (x.phase, if x.phase = 3 then x.srcMember else x.chunk)
            if !c.expected.contains key || c.got.contains key || decide (c.members.getD c.pred 64 ≠ src.val ∧ x.phase ≠ 3) ||
                decide (x.phase = 3 ∧ c.members.getD x.srcMember 64 ≠ src.val) then drop (2 ^ 64)
            else if c.phase = 1 then d
            else
              let need := 1 + c.dataCells x
              let m := d.smvMessage die src need
              if m.1.length < need then d
              else
                let c := { c with got := c.got ++ [key] }
                ((d.upOnf (fun o => { o with inbox := m.2 })).smvPut c).smvTakeData c x (dataBytes m.1))

/-- COMMIT_READY: every write of DST has landed and every read of SRC has returned (R287). -/
def execCommitReady (group : BitVec 8) (s : State) : Host.Outcome State Fault Refusal :=
  onDev s (fun d =>
    match d.live, d.smv.colls.find group.toNat with
    | true, some c =>
      if c.phase ≠ 2 ∨ c.ready = true ∨ c.expected.all (fun k => c.got.contains k) = false then d
      else
        let c := { c with ready := true }
        if opPair c.op then
          if c.me = c.root then
            let c := { c with phase := 3 }
            (c.others.foldl (fun d k => d.smvSend c false k [(c.cell 3).bits]) d).smvRoot c
          else d.smvCommit c
        else if c.me = 0 then
          let c := { c with phase := 3 }
          (d.smvPut c).smvSend c true c.succ [(c.cell 3).bits]
        else d.smvCommit c
    | _, _ => d)

/-- COLLECTIVE_COMMIT: the next message of a rank at a slice is a COMMIT: a member passes it on when it is ready; back at member
0, or from every member at ROOT, it commits the collective (R287). -/
def execCollectiveCommit (die : Fin 4) (src : Fin 64) (s : State) : Host.Outcome State Fault Refusal :=
  onDev s (fun d => d.smvControl die src 3 (fun d c _ =>
    if opPair c.op then
      if c.me ≠ c.root then d.smvCommit { c with commitIn := true }
      else
        let k := c.members.findIdx (fun r => decide (r = src.val))
        if c.phase = 3 then d.smvRoot { c with commits := k :: c.commits } else d
    else if c.me ≠ 0 then d.smvCommit { c with commitIn := true }
    else if c.phase = 3 then (d.smvSend c true c.succ [(c.cell 4).bits]).smvClose c.group .ok 0
    else d))

/-- RELEASE: the next message of a rank at a slice is a RELEASE: the member passes it on along a ring, and completes (R287). -/
def execRelease (die : Fin 4) (src : Fin 64) (s : State) : Host.Outcome State Fault Refusal :=
  onDev s (fun d => d.smvControl die src 4 (fun d c _ =>
    if c.phase ≠ 3 then d
    else
      let d := if opPair c.op = false ∧ c.succ ≠ 0 then d.smvSend c true c.succ [(c.cell 4).bits] else d
      d.smvClose c.group .ok 0))

/-! ## Sequence numbers (R276, R277) -/

/-- A BASE or BASE_ALL takes effect on this device. -/
def Dev.smvBase (d : Dev) (all : Bool) (g base : Nat) : Dev :=
  if all then d.upSmv (fun s => { s with started := true, base := base, seqs := ⟨[]⟩ })
  else d.upSmv (fun s => { s with seqs := s.seqs.set g base })

/-- SEQNUM_BASE: a BASE sets SEQ of every instance of one group. -/
def execSeqnumBase (h : CtlHead) (group : BitVec 8) (seq : W32) (origin : Fin 64) (s : State) : Host.Outcome State Fault Refusal :=
  onDev s (fun d => d.ctlArrive h (.seqnum 0 group.toNat 0 0 seq 0 origin) (fun d => d.smvBase false group.toNat seq.toNat))

/-- SEQNUM_BASE_ALL: a BASE_ALL sets SEQ of every group. -/
def execSeqnumBaseAll (h : CtlHead) (seq : W32) (origin : Fin 64) (s : State) : Host.Outcome State Fault Refusal :=
  onDev s (fun d => d.ctlArrive h (.seqnum 2 0 0 0 seq 0 origin) (fun d => d.smvBase true 0 seq.toNat))

/-- SEQ_BASE_GO: a write of `w` to SMV_SEQ_CMD; with GO set on the leader it broadcasts the base that ONE selects. -/
def execSeqBaseGo (w : W32) (s : State) : Host.Outcome State Fault Refusal :=
  onDev s (fun d =>
    if !d.alive || !bitAt w.toNat 0 || !d.leads then d
    else
      let g := fld w.toNat 8 8
      let one := bitAt w.toNat 1
      let b := d.fget Reg.SMV_SEQ_BASE_BASE
      d.announce (.seqnum (if one then 0 else 2) (if one then g else 0) 0 0 (BitVec.ofNat 32 b) 0 d.rank) (fun d => d.smvBase (!one) g b))

/-- SEQNUM_ABORT: an ABORT ends the running SEQ, or is recorded for later (R292). -/
def execSeqnumAbort (h : CtlHead) (group : BitVec 8) (anchor : Fin 64) (status : BitVec 8) (seq : W32) (members : W64) (origin : Fin 64) (s : State) :
    Host.Outcome State Fault Refusal :=
  onDev s (fun d => d.ctlArrive h (.seqnum 1 group.toNat anchor status.toNat seq members origin)
    (fun d => d.smvAbort group.toNat anchor seq.toNat ((statusOf status.toNat).getD .malformed) members))

/-! ## Timeouts and lag (R293, R295) -/

/-- GATHER_HOLD_TIMEOUT: the oldest held GATHER of a group has waited TIMEOUT_US without a descriptor. -/
def execGatherHoldTimeout (group : BitVec 8) (s : State) : Host.Outcome State Fault Refusal :=
  onDev s (fun d =>
    let g := group.toNat
    match d.live, takeFirst (fun (h : SmvHeld) => decide (h.group = g)) d.smv.held with
    | true, some (h, rest) =>
      let x := smvCell h.cell
      let me := (d.grpMembers g).findIdx (fun r => decide (r = d.rank))
      (d.upSmv (fun s => { s with held := rest })).smvTell g x.anchor x.seq .memberLost (BitVec.ofNat 64 (2 ^ me))
    | _, _ => d)

/-- The member that a member waits for a cell of. -/
def Coll.waitsFor (c : Coll) : Option Nat :=
  if opPair c.op then
    if c.me ≠ c.root then some c.root
    else if c.phase = 1 then c.others.find? (fun k => !c.heard.contains k)
    else if c.phase = 3 then c.others.find? (fun k => !c.commits.contains k)
    else none
  else if c.op = 5 ∧ c.phase = 2 ∧ c.expected.all (fun k => c.got.contains k) = false then
    (c.expected.find? (fun k => !c.got.contains k)).map (·.2)
  else some c.pred

/-- MEMBER_WAIT_TIMEOUT: a running collective has waited 2 × TIMEOUT_US for a cell. -/
def execMemberWaitTimeout (group : BitVec 8) (s : State) : Host.Outcome State Fault Refusal :=
  onDev s (fun d =>
    match d.live, d.smv.colls.find group.toNat with
    | true, some c =>
      match c.waitsFor with
      | some k => d.smvFail group.toNat .memberLost (BitVec.ofNat 64 (2 ^ k))
      | none => d
    | _, _ => d)

/-- LAG_CLEAR: a write of `w` to SMV_LAG_CLEAR; CLEAR clears every lag counter (R298). -/
def execLagClear (w : W32) (s : State) : Host.Outcome State Fault Refusal :=
  onDev s (fun d =>
    if !d.alive || !bitAt w.toNat 0 then d else (List.range 64).foldl (fun d m => d.regSet (Reg.SMV_LAGm m) 0) d)

/-- SMV_GRP_STATE.STATE of a group: until the first BASE_ALL a valid group reads WAIT_BASE. -/
def Dev.smvState (d : Dev) (g : Nat) : Nat :=
  match d.smv.colls.find g with
  | some c => c.phase
  | none => if d.smv.started || (d.grpMembers g).isEmpty then 0 else 4

end Sys2Proof.Machine
end

