-- ==== Sys2Proof/Machine/Dtu.lean ====
section
/-! DEFINITION. The commands of the DTU but WALK_DONE (chapter 12). -/
namespace Sys2Proof.Machine
open Sys2Proof

/-- A DTU command. -/
def dtuCmd (s : State) (f : Dev → Dev) : Host.Outcome State Fault Refusal :=
  onDev s (fun d => d.command Reg.DTU_CMD_STATUS_BUSY Reg.DTU_CMD_STATUS_CMD_ERR f)

/-- The outcome of a DTU command. -/
def Dev.dtuStatus (d : Dev) (st : Status) : Dev := d.fset Reg.DTU_CMD_STATUS_STATUS st.code

/-- The number in `n` DATA registers of a block, the first lowest. -/
def Dev.dataWords (d : Dev) (reg : Nat → Nat) (n : Nat) : Nat :=
  (List.range n).foldr (fun i acc => (d.regGet (reg i)).toNat % 2 ^ 32 + 2 ^ 32 * acc) 0

/-- Put a number into `n` DATA registers of a block. -/
def Dev.putWords (d : Dev) (reg : Nat → Nat) (n x : Nat) : Dev :=
  (List.range n).foldl (fun d i => d.regSet (reg i) (BitVec.ofNat 64 (fld x (32 * i) 32))) d

/-- The fields of a region entry are in range (R425, check 1). -/
def Dev.mrFieldsOk (d : Dev) (e : BitVec 256) : Bool :=
  let ext := decide (mrKind e = 0)
  decide (mrKind e ≤ 1) && d.isFn (mrFunction e) && decide (mrRoot e < 1024) && (ext || decide (mrRoot e = 0)) &&
  decide (1 ≤ mrLength e) && decide (mrLength e ≤ 2 ^ 48) && decide (bvFld e 200 56 = 0) &&
  (!ext || decide (mrBase e + mrLength e ≤ 2 ^ 48))

/-- A DEVICE region lies where R425 allows: wholly in one DATA or HOME tier region of the partition, or in cluster
memory of one of its clusters whose role is not OFF. -/
def Dev.deviceRegionOk (d : Dev) (p a n : Nat) : Bool :=
  d.regions.any (fun r => decide (r.part = p) && decide (r.kind ≠ 2) && decide (r.base ≤ a) && decide (a + n ≤ r.base + r.len)) ||
  (List.range 32).any (fun c => decide (d.clusterPart c = some p) && !d.clusterOff c && decide (clusterBase c ≤ a) &&
    decide (a + n ≤ clusterBase c + clusterBytes))

/-- The first refusal of REG_MR, in the order of R425. -/
def Dev.regMrCheck (d : Dev) (i : Nat) (e : BitVec 256) : Status :=
  let p := d.fnPart (mrFunction e)
  if !d.mrFieldsOk e then .malformed
  else if mrState (d.mrEntry i) ≠ 0 then .accessError
  else if mrKind e = 1 ∧ p.any (fun p => d.deviceRegionOk p (mrBase e) (mrLength e)) = false then .accessError
  else if mrKind e = 0 ∧ (d.dtu.roots.find (mrRoot e)).map (·.fn) ≠ some (mrFunction e) then .accessError
  else .ok

/-- The next generation of an index (R424). -/
def nextGen (g : Nat) : Nat := if g = 255 then 1 else g + 1

/-- REG_MR: registers the region staged in DTU_CMD_DATA and returns its key in DTU_CMD_DATA0 (R424, R425). -/
def execRegMr (index : BitVec 24) (s : State) : Host.Outcome State Fault Refusal :=
  dtuCmd s (fun d =>
    let i := index.toNat
    let e : BitVec 256 := BitVec.ofNat 256 (d.dataWords Reg.DTU_CMD_DATAi 8)
    match d.regMrCheck i e with
    | .ok =>
      let g := nextGen (mrGen (d.mrEntry i))
      let e := bvSet (bvSet (bvSet e 0 8 1) 8 8 g) 192 8 ((d.fnPart (mrFunction e)).getD 0xFF)
      let d := d.upDtu (fun x => { x with mr := x.mr.set i e, hurt := x.hurt.filter (fun y => decide (y ≠ i)) })
      (d.regSet (Reg.DTU_CMD_DATAi 0) (BitVec.ofNat 64 (256 * i + g))).dtuStatus .ok
    | st => d.dtuStatus st)

/-- Pass the revoke point of a region (R428). -/
def Dev.revokePoint (d : Dev) (i : Nat) : Dev :=
  let d := { d with dtu := { d.dtu with mr := d.dtu.mr.set i (bvSet (d.mrEntry i) 0 8 2), revoking := d.dtu.revoking ++ [i] } }
  d.fset Reg.DTU_REVOKE_PENDING_COUNT d.dtu.revoking.length

/-- REVOKE: the entry becomes REVOKING at once; with 64 pending the command is held with BUSY set (R428, R429). -/
def execRevoke (index : BitVec 24) (s : State) : Host.Outcome State Fault Refusal :=
  dtuCmd s (fun d =>
    let i := index.toNat
    if mrState (d.mrEntry i) ≠ 1 then d.dtuStatus .keyRevoked
    else if 64 ≤ d.dtu.revoking.length then
      (d.fset Reg.DTU_CMD_STATUS_BUSY 1).upDtu (fun x => { x with heldRevoke := some i })
    else (d.revokePoint i).dtuStatus .ok)

/-- A revoke ends: the entry is FREE and keeps its GEN, the event names the revoked key, and a held REVOKE proceeds, if
its entry is still VALID. -/
def Dev.revokeEnd (d : Dev) (i : Nat) : Dev :=
  let e := d.mrEntry i
  let d := d.upDtu (fun x =>
    { x with mr := x.mr.set i (BitVec.ofNat 256 (256 * mrGen e)), revoking := x.revoking.filter (fun y => decide (y ≠ i)),
             hurt := x.hurt.filter (fun y => decide (y ≠ i)) })
  let d := d.fset Reg.DTU_REVOKE_PENDING_COUNT d.dtu.revoking.length
  let d := d.post 0 (.other 0x23) 0 (256 * i + mrGen e)
  match d.dtu.heldRevoke with
  | none => d
  | some j =>
    let d := (d.upDtu (fun x => { x with heldRevoke := none })).fset Reg.DTU_CMD_STATUS_BUSY 0
    if mrState (d.mrEntry j) ≠ 1 then d.dtuStatus .keyRevoked else (d.revokePoint j).dtuStatus .ok

/-- REVOKE_DONE: the last unit that passed before the revoke point has ended (R429, R441). -/
def execRevokeDone (index : BitVec 24) (s : State) : Host.Outcome State Fault Refusal :=
  onDev s (fun d => if d.dtu.revoking.contains index.toNat then d.revokeEnd index.toNat else d)

/-- QUERY_MR: returns the entry in DTU_CMD_DATA0 to DATA7. -/
def execQueryMr (index : BitVec 24) (s : State) : Host.Outcome State Fault Refusal :=
  dtuCmd s (fun d => (d.putWords Reg.DTU_CMD_DATAi 8 (d.mrEntry index.toNat).toNat).dtuStatus .ok)

/-- SET_ROOT: gives root r, in TARGET bits [9:0] (R442), its level-1 table, function and link (R431). -/
def execSetRoot (target : BitVec 24) (s : State) : Host.Outcome State Fault Refusal :=
  dtuCmd s (fun d =>
    let r := fld target.toNat 0 10
    let x := d.dataWords Reg.DTU_CMD_DATAi 4
    let table := fld x 0 64
    let fn := fld x 64 16
    let link := fld x 80 8
    if d.isFn fn = false ∨ d.linkPresent link = false ∨ fld x 88 40 ≠ 0 then d.dtuStatus .malformed
    else if table % 4096 ≠ 0 ∨ table < poolBase ∨ poolEnd ≤ table then d.dtuStatus .accessError
    else
      let n := d.dtu.seq + 1
      let stale : List StaleRoot := match d.dtu.roots.find r with
        | some old => d.dtu.staleRoots ++ [(⟨n, r, old⟩ : StaleRoot)]
        | none => d.dtu.staleRoots
      (d.upDtu (fun x => { x with roots := x.roots.set r ⟨table, fn, link⟩, seq := n, staleRoots := stale })).dtuStatus .ok)

/-- CLEAR_ROOT: invalidates a root. -/
def execClearRoot (target : BitVec 24) (s : State) : Host.Outcome State Fault Refusal :=
  dtuCmd s (fun d =>
    let r := fld target.toNat 0 10
    (d.upDtu (fun x =>
      { x with roots := x.roots.del r, staleRoots := x.staleRoots.filter (fun w => decide (w.root ≠ r)) })).dtuStatus .ok)

/-- The records of an UPDATE array: device address and value. -/
def updateRecords (bs : List Byte) (n : Nat) : List (Nat × Nat) :=
  listOf n (fun i => (leNat ((bs.drop (16 * i)).take 8), leNat ((bs.drop (16 * i + 8)).take 8)))

/-- Apply UPDATE records in order; a store that meets a lasting uncorrectable word stops it (R434). -/
def Dev.applyUpdates (d : Dev) : List (Nat × Nat) → Dev
  | [] => d.dtuStatus .ok
  | (a, v) :: rest =>
    if d.memStatus false a 8 ≠ .ok then d.dtuStatus .uncorrectable
    else
      let old : W64 := BitVec.ofNat 64 (leNat (d.memBytes a 8))
      let n := d.dtu.seq + 1
      let d := d.memStoreN a (leBytes 8 v)
      ({ d with dtu := { d.dtu with seq := n, staleWords := d.dtu.staleWords ++ [(⟨n, a, old⟩ : StaleWord)] } }).applyUpdates rest

/-- UPDATE: reads and checks the whole array, then stores its records in order (R434). -/
def execUpdate (rd : HostRead) (s : State) : Host.Outcome State Fault Refusal :=
  dtuCmd s (fun d =>
    let n := d.fget Reg.DTU_UPDATE_COUNT_COUNT
    if n = 0 ∨ 65536 < n then d.dtuStatus .malformed
    else
      match rd with
      | .lost => d.dtuStatus .hostLost
      | .poisoned => d.dtuStatus .uncorrectable
      | .ok bs =>
        let rs := updateRecords bs n
        if rs.all (fun r => decide (r.1 % 8 = 0) && decide (poolBase ≤ r.1) && decide (r.1 < poolEnd)) then d.applyUpdates rs
        else d.dtuStatus .accessError)

/-- SYNC_FENCE: one root, or every root with bit 23 (R435); the command itself completes at once and SYNC_DONE follows
(log entry 33). -/
def execSyncFence (target : BitVec 24) (s : State) : Host.Outcome State Fault Refusal :=
  dtuCmd s (fun d =>
    let who := if target.getLsbD 23 then none else some (fld target.toNat 0 10)
    ({ d with dtu := { d.dtu with syncs := d.dtu.syncs ++ [(who, d.dtu.seq)] } }).dtuStatus .ok)

/-- SYNC_DONE: the oldest SYNC_FENCE ends: its roots' older translations are gone; DTU_FENCE_COUNT and the event (R435,
R441). -/
def execSyncDone (s : State) : Host.Outcome State Fault Refusal :=
  onDev s (fun d =>
    match d.dtu.syncs with
    | [] => d
    | (who, n) :: rest =>
      let d := { d with dtu := { d.dtu with syncs := rest } }
      let d := d.upDtu (fun x =>
        match who with
        | none =>
          { x with fencedAll := max n x.fencedAll, staleWords := x.staleWords.filter (fun w => decide (n < w.seq)),
                   staleRoots := x.staleRoots.filter (fun w => decide (n < w.seq)) }
        | some r =>
          { x with fenced := x.fenced.set r n, staleRoots := x.staleRoots.filter (fun w => decide (w.root ≠ r ∨ n < w.seq)) })
      let d := d.finc Reg.DTU_FENCE_COUNT_COUNT
      let body := (match who with | none => 2 ^ 23 | some r => r) + d.fget Reg.DTU_FENCE_COUNT_COUNT * 2 ^ 32
      d.post 0 (.other 0x24) 0 body)

end Sys2Proof.Machine
end

