-- ==== Sys2Proof/Machine/Queues.lean ====
section
/-! DEFINITION. Doorbells, peer writes, work queues, event queues and their commands (chapter 9). -/
namespace Sys2Proof.Machine
open Sys2Proof

/-! ## QUEUE_SHAPES (R446) -/

/-- The offset of a function's record. -/
def shapeAt (f : Nat) : Nat := 64 + 32 * f

/-- First queue group and number of groups of a function; none before a commit. -/
def Dev.fnGroups (d : Dev) (f : Nat) : Nat × Nat :=
  if d.committed then ((d.sec secQueueShapes).u16 (shapeAt f), (d.sec secQueueShapes).u16 (shapeAt f + 2)) else (0, 0)

/-- The largest number of queues of a class that a function may hold. -/
def Dev.fnClassMax (d : Dev) (f cls : Nat) : Nat := (d.sec secQueueShapes).u16 (shapeAt f + 0x0C + 2 * cls)

/-- The partition that owns zone counter z; none when it is unowned. -/
def Dev.zonePart (d : Dev) (z : Nat) : Option Nat :=
  let p := (d.sec secQueueShapes).u8 (64 + 32 * 264 + z)
  if d.committed ∧ z < 4096 ∧ p < 32 then some p else none

/-! ## Doorbells (R305, R315, R316, R319) -/

/-- The queue group that a doorbell page of a function serves (R304, R305). -/
def Dev.pageGroup (d : Dev) (fn page : Nat) : Option Nat :=
  let g := d.fnGroups fn
  if fn = 0 then (if g.1 ≤ page ∧ page < g.1 + g.2 then some page else none)
  else if page < g.2 then some (g.1 + page) else none

/-- Count a doorbell or consumer word dropped. -/
def Dev.dbDrop (d : Dev) : Dev := d.finc Reg.WQS_DB_DROP_COUNT

/-- A doorbell is refused: counted and reported (R316). -/
def Dev.dbBad (d : Dev) (fn qid tail : Nat) : Dev := d.dbDrop.post fn .doorbellBad 0 (qid + tail * 65536)

/-- A doorbell meets R316. -/
def dbFits (q : Wq) (tail : Nat) : Bool :=
  decide (q.state = .active) && decide ((4294967296 + tail - q.head) % 4294967296 ≤ 2 ^ wqLog2 q.ctx) &&
  decide ((4294967296 + tail - q.tail) % 4294967296 ≤ 2 ^ wqLog2 q.ctx)

/-- ARM of an accepted doorbell: at once when a completion word has been written since the last interrupt (R324). -/
def Dev.dbArm (d : Dev) (qid : Nat) : Dev :=
  match d.wqFind qid with
  | none => d
  | some q =>
    if wqVector q.ctx = 0xFFFF then d
    else if q.news then (d.wqSet qid { q with news := false, arm := false }).wqIrq q
    else d.wqSet qid { q with arm := true }

/-- An accepted doorbell: the tail, INV and ARM. -/
def Dev.dbAccept (d : Dev) (qid tail : Nat) (arm inv : Bool) : Dev :=
  let d := d.wqUpd qid (fun q =>
    { q with tail := tail, fetched := if inv then [] else q.fetched, tries := if inv then 0 else q.tries })
  let d := match d.wqFind qid with
    | some q => if d.boundInError q then d.wqFlush qid 65537 else d
    | none => d
  if arm then d.dbArm qid else d

/-- The consumer word of a function's event queue (R305, R327, R328). -/
def Dev.consumerWord (d : Dev) (fn : Nat) (val : W64) : Dev :=
  let c := fld val.toNat 0 32
  match d.ev.eqs.find fn with
  | none => d.dbDrop
  | some q =>
    if (4294967296 + c - q.consumed) % 4294967296 ≤ (4294967296 + q.written - q.consumed) % 4294967296 then
      let arm := val.getLsbD 32 && decide (q.vector ≠ 0xFFFF)
      let now := arm && q.news
      let q' := { q with consumed := c, arm := (q.arm || arm) && !now, news := q.news && !now }
      let d := d.upEv (fun e => { e with eqs := e.eqs.set fn q' })
      let d := if now then d.sendMsix fn q.vector else d
      d.postPending fn 4100
    else d.dbDrop

/-- DOORBELL: a write of `size` bytes at `off` of a function's BAR2 (R305, R316).  The consumer word's place acts as
EQ_CONSUMER_WORD. -/
def execDoorbell (fn : Fin 264) (off size : Nat) (val : W64) (s : State) : Host.Outcome State Fault Refusal :=
  onDev s (fun d =>
    if !d.live || !d.isFn fn then d
    else if size ≠ 8 ∨ off % 8 ≠ 0 then d.dbDrop
    else if off = 0x800 then d.consumerWord fn val
    else if 0x1F8 < off % 4096 ∨ (d.fnState fn ≠ 1 ∧ d.fnState fn ≠ 3 ∧ d.fnState fn ≠ 4) then d.dbDrop
    else
      match d.pageGroup fn (off / 4096) with
      | none => d.dbDrop
      | some g =>
        let qid := 64 * g + off % 4096 / 8
        let tail := fld val.toNat 16 32
        if fld val.toNat 48 16 = qid ∧ fld val.toNat 2 14 = 0 ∧ (match d.wqFind qid with | some q => dbFits q tail | none => false) = true
        then d.dbAccept qid tail (val.getLsbD 1) (val.getLsbD 0)
        else d.dbBad fn qid tail)

/-- EQ_CONSUMER_WORD: a 64-bit write at offset 0x800 of page 0 of a function's BAR2. -/
def execEqConsumerWord (fn : Fin 264) (val : W64) (s : State) : Host.Outcome State Fault Refusal :=
  onDev s (fun d => if d.live && d.isFn fn then d.consumerWord fn val else d)

/-! ## The peer-write window (R306 to R309) -/

/-- HIF drops every BAR4 write from the moment STANDBY is accepted until WAKE ends (R546). -/
def Dev.bar4Shut (d : Dev) : Bool :=
  decide (1 ≤ d.fget Reg.PWR_STATE_STATE) && decide (d.fget Reg.PWR_STATE_STATE ≤ 3)

/-- Drop a BAR4 write: counted, with P2P_DROP to the function (R308). -/
def Dev.p2pDrop (d : Dev) (fn off : Nat) : Dev :=
  let k := fnLink fn
  (d.finc (Reg.HIF_LINKk_P2P_DROP_COUNT k)).post fn .p2pDrop 0 (k + off / 134217728 * 256 + off % 134217728 * 2 ^ 32)

/-- Who a BAR4 write is checked as (R426). -/
def Dev.peerUser (d : Dev) (fn : Nat) : KeyUser :=
  { right := rPeerWrite, write := true, fn := none, part := some ((d.fnPart fn).getD 256), deviceOnly := true }

/-- PEER_WRITE: a posted write to BAR4 below window 255; `poisoned` is EP set (R306, R308, R515). -/
def execPeerWrite (fn : Fin 264) (off : Nat) (bytes : List Byte) (poisoned : Bool) (s : State) : Host.Outcome State Fault Refusal :=
  onDev s (fun d =>
    if !d.live || !d.isFn fn || (decide (1 ≤ fn.val) && decide (fn.val < 256)) then d
    else
      let w := off / 134217728
      if d.bar4Shut || poisoned || decide (255 ≤ w) then d.p2pDrop fn off
      else
        let key := d.fget (Reg.HIF_WINk_w_KEY (fnLink fn) w)
        if key = 0 then d.p2pDrop fn off
        else
          let e := d.mrEntry (key / 256)
          let a := mrBase e + d.fget (Reg.HIF_WINk_w_OFFSET_4K (fnLink fn) w) * 4096 + off % 134217728
          match d.checkKey key (d.peerUser fn) a bytes.length with
          | .dev p => if d.memStatus true p bytes.length = .ok then d.memWrite p bytes else d.p2pDrop fn off
          | .bus _ _ => d.p2pDrop fn off
          | .bad st c level root entry =>
            let f := if mrState e = 1 then mrFunction e else fn.val
            (d.faultUnit ⟨st, c, level, 1, f, 6, true, false, fnLink fn, key, a, 0, root, entry⟩ fn).p2pDrop fn off)

/-- BAR4_READ: completed with Unsupported Request (R309). -/
def execBar4Read (fn : Fin 264) (off : Nat) (s : State) : Host.Outcome State Fault Refusal :=
  onDev s (fun d => if d.alive then d.emit (.unsupported fn off) else d)

/-! ## CXL.mem (R302) -/

/-- The region that CXL.mem exposes. -/
def Dev.cxlRegion (d : Dev) : Option Region :=
  if d.fon Reg.HIF_CXL_REGION_EN && d.fon (Reg.HIF_LINKk_STATUS_CXL 0) then
    match d.fnPart 0 with
    | some p => d.regionOf p (d.fget Reg.HIF_CXL_REGION_REGION)
    | none => none
  else none

/-- CXL_MEM_ACCESS: a read (no bytes) or write of the 64-byte line at an offset of the exposed range.  The host may hold
a copy of a line it has read until an engine's access back-invalidates it. -/
def execCxlMemAccess (line : Nat) (data : Option (BitVec 512)) (s : State) : Host.Outcome State Fault Refusal :=
  onDev s (fun d =>
    match d.live, d.cxlRegion with
    | true, some r =>
      let a := r.base + 64 * line
      if r.len ≤ 64 * line then d
      else
        match data with
        | some x => if d.memStatus true a 64 = .ok then d.memWrite a (leBytes 64 x.toNat) else d
        | none =>
          if d.memStatus false a 64 = .ok then
            let bs := d.memBytes a 64
            let d := d.noteAccess false a 64
            (d.upHif (fun h => { h with hostLines := if h.hostLines.contains a then h.hostLines else a :: h.hostLines })).emit (.cxlData bs)
          else d
    | _, _ => d)

/-! ## Queue commands (R311 to R313, R602) -/

/-- A WQS command. -/
def wqsCmd (s : State) (f : Dev → Dev) : Host.Outcome State Fault Refusal :=
  onDev s (fun d => d.command Reg.WQS_CMD_STATUS_BUSY Reg.WQS_CMD_STATUS_CMD_ERR f)

/-- The outcome of a WQS command. -/
def Dev.wqsStatus (d : Dev) (st : Status) : Dev := d.fset Reg.WQS_CMD_STATUS_STATUS st.code

/-- The context staged in WQS_CMD_DATA0 to DATA15, its read-only words zero (R597). -/
def Dev.stagedWq (d : Dev) : BitVec 512 :=
  let x := d.dataWords Reg.WQS_CMD_DATAi 16
  BitVec.ofNat 512 (setFld x 256 104 0)

/-- The fields of a context are in range (R311, R313). -/
def Dev.wqCtxOk (d : Dev) (c : BitVec 512) : Bool :=
  let cls := wqClass c
  let free := decide (cls = 1) || decide (cls = 2)
  d.isFn (wqFn c) && decide (cls ≤ 4) && decide (6 ≤ wqLog2 c) && decide (wqLog2 c ≤ 16) && decide (wqRing c % 4096 = 0) &&
  decide (wqCword c % 8 = 0) && (free || (decide (1 ≤ wqWeight c) && decide (1 ≤ wqBurst c) && decide (wqBurst c ≤ 64))) &&
  decide (bvFld c 184 8 = 0) && (decide (wqVector c = 0xFFFF) || decide (wqVector c < fnVectors (wqFn c))) &&
  decide (bvFld c 218 6 = 0) && decide (bvFld c 360 152 = 0) &&
  decide (wqBind c < (if cls ≤ 1 then 16777216 else if cls = 2 then 4 else 1))

/-- Queues of a class that a function holds. -/
def Dev.queuesHeld (d : Dev) (fn cls : Nat) : Nat :=
  (d.wq.queues.vals.filter (fun q => decide (wqFn q.ctx = fn) && decide (wqClass q.ctx = cls))).length

/-- The refusal of CREATE_WQ that is reported, in the order of R313. -/
def Dev.createWqCheck (d : Dev) (qid : Nat) (c : BitVec 512) : Status :=
  let g := d.fnGroups (wqFn c)
  if !d.committed then .accessError
  else if d.halted then .halted
  else if !d.wqCtxOk c || (d.wqFind qid).isSome then .malformed
  else if qid / 64 < g.1 ∨ g.1 + g.2 ≤ qid / 64 ∨ d.fnClassMax (wqFn c) (wqClass c) ≤ d.queuesHeld (wqFn c) (wqClass c) ∨
      (d.dtu.roots.find (wqRoot c)).map (·.fn) ≠ some (wqFn c) then .accessError
  else .ok

/-- CREATE_WQ: the queue becomes ACTIVE with TAIL = HEAD = FAILS = 0. -/
def execCreateWq (qid : BitVec 16) (s : State) : Host.Outcome State Fault Refusal :=
  wqsCmd s (fun d =>
    let c := d.stagedWq
    match d.createWqCheck qid.toNat c with
    | .ok =>
      (d.wqSet qid.toNat
        { ctx := c, state := .active, tail := 0, head := 0, fails := 0, next := 0, fetched := [], started := [], finished := [],
          complete := [], tries := 0, unpub := false, news := false, arm := false, quiet := false, events := [] }).wqsStatus .ok
    | st => d.wqsStatus st)

/-- Start draining a queue (R312). -/
def Dev.wqDrain (d : Dev) (qid : Nat) : Dev :=
  ((d.wqUpd qid (fun q => { q with state := .draining })).wqFlush qid 65537).wqDrained qid

/-- DESTROY_WQ (R602). -/
def execDestroyWq (qid : BitVec 16) (s : State) : Host.Outcome State Fault Refusal :=
  wqsCmd s (fun d =>
    match d.wqFind qid.toNat with
    | none => d.wqsStatus .ok
    | some q =>
      match q.state with
      | .active | .error => (d.wqDrain qid.toNat).wqsStatus .ok
      | .reset | .draining => d.wqsStatus .ok
      | .lost | .halted => d.wqsStatus .malformed)

/-- The 64 bytes that QUERY_WQ returns (R311, R597). -/
def wqQuery (q : Wq) : Nat :=
  q.ctx.toNat + q.tail * 2 ^ 256 + q.head * 2 ^ 288 + q.fails * 2 ^ 320 + q.state.code * 2 ^ 352

/-- QUERY_WQ: returns a queue's context; all zero in RESET. -/
def execQueryWq (qid : BitVec 16) (s : State) : Host.Outcome State Fault Refusal :=
  wqsCmd s (fun d =>
    let x := match d.wqFind qid.toNat with | some q => wqQuery q | none => 0
    (d.putWords Reg.WQS_CMD_DATAi 16 x).wqsStatus .ok)

/-! ## Event-queue commands (R326, R598, R599) -/

/-- CREATE_EQ: creates a function's event queue and posts what its pending store holds. -/
def execCreateEq (target : BitVec 16) (s : State) : Host.Outcome State Fault Refusal :=
  wqsCmd s (fun d =>
    let fn := target.toNat
    let x := d.dataWords Reg.WQS_CMD_DATAi 3
    let base := fld x 0 64
    let vec := fld x 64 16
    let root := fld x 80 10
    if d.isFn fn = false ∨ base % 4096 ≠ 0 ∨ ¬ (vec = 0xFFFF ∨ vec < fnVectors fn) ∨ fld x 90 6 ≠ 0 ∨ (fn = 0 ∧ root ≠ 0) ∨
        (d.ev.eqs.find fn).isSome = true then d.wqsStatus .malformed
    else if fn ≠ 0 ∧ (d.dtu.roots.find root).map (·.fn) ≠ some fn then d.wqsStatus .accessError
    else
      let d := d.upEv (fun e => { e with eqs := e.eqs.set fn ⟨base, vec, root, 0, 0, false, false, false⟩ })
      (d.postPending fn 4100).wqsStatus .ok)

/-- DESTROY_EQ: removes a function's event queue; its pending store stays. -/
def execDestroyEq (target : BitVec 16) (s : State) : Host.Outcome State Fault Refusal :=
  wqsCmd s (fun d =>
    if d.isFn target.toNat then (d.upEv (fun e => { e with eqs := e.eqs.del target.toNat })).wqsStatus .ok
    else d.wqsStatus .malformed)

/-- The words that QUERY_EQ returns. -/
def Dev.eqQuery (d : Dev) (fn : Nat) : Nat :=
  let pend := d.pendMask fn % 2 ^ 64
  match d.ev.eqs.find fn with
  | some q =>
    q.base + q.vector * 2 ^ 64 + q.root * 2 ^ 80 + q.written % 2 ^ 32 * 2 ^ 96 + q.consumed * 2 ^ 128 +
      (1 + 2 * b2n q.arm + 4 * b2n q.failed) * 2 ^ 160 + pend * 2 ^ 192
  | none => pend * 2 ^ 192

/-- QUERY_EQ: returns a function's event-queue state. -/
def execQueryEq (target : BitVec 16) (s : State) : Host.Outcome State Fault Refusal :=
  wqsCmd s (fun d =>
    if d.isFn target.toNat then (d.putWords Reg.WQS_CMD_DATAi 16 (d.eqQuery target.toNat)).wqsStatus .ok
    else d.wqsStatus .malformed)

/-! ## Fetching and completing entries (R317, R321 to R325) -/

/-- The index at the fetch point of a queue. -/
def Wq.fetchIdx (q : Wq) : Nat := idx32 (q.next + q.fetched.length)

/-- Take in the slot at the fetch point of a queue: an entry whose SEQ matches joins the fetched ones; the fifth
mismatch leaves an entry whose opcode is not one of its class, malformed when its turn comes (R317, R330). -/
def Dev.wqTake (d : Dev) (qid : Nat) (q : Wq) (x : BitVec 512) : Dev :=
  let i := q.fetchIdx
  if descSeq x = i % 65536 then
    (d.wqSet qid { q with fetched := q.fetched ++ [⟨i, x⟩], tries := 0 }).wqSettle qid 65537
  else if q.tries < 4 then d.wqSet qid { q with tries := q.tries + 1 }
  else (d.wqSet qid { q with fetched := q.fetched ++ [⟨i, 0xFF⟩], tries := 0 }).wqSettle qid 65537

/-- A ring fetch of the slot at a queue's fetch point. -/
def Dev.wqFetch (d : Dev) (qid : Nat) (again : Bool) (rd : HostRead) : Dev :=
  match d.wqFind qid with
  | none => d
  | some q =>
    if q.state ≠ .active ∨ q.fetchIdx = q.tail ∨ d.live = false ∨ (decide (q.tries ≠ 0) ≠ again) ∨ 64 ≤ q.fetched.length then d
    else
      let d := (if again then d.finc Reg.WQS_REFETCH_COUNT else d).readEnd (.ring (BitVec.ofNat 16 qid))
      match d.wqXlate qid (wqSlot q q.fetchIdx) false with
      | (d, none) => d
      | (d, some _) =>
        match rd with
        | .lost => d.wqRingFail qid .hostLost
        | .poisoned => d.wqRingFail qid .uncorrectable
        | .ok bs => d.wqTake qid q (descOfBytes bs)

/-- ENTRY_FETCH: the ring fetch of a queue's next slot returns (R317, R330, R601). -/
def execEntryFetch (qid : BitVec 16) (rd : HostRead) (s : State) : Host.Outcome State Fault Refusal :=
  onDev s (fun d => d.wqFetch qid.toNat false rd)

/-- REFETCH: the slot whose SEQ did not match is fetched again (R317). -/
def execRefetch (qid : BitVec 16) (rd : HostRead) (s : State) : Host.Outcome State Fault Refusal :=
  onDev s (fun d => d.wqFetch qid.toNat true rd)

/-- ENTRY_COMPLETION: the entry of a queue that its engine finished first completes: header write-back, HEAD and, when a
drain ends, the last completion word (R321, R323). -/
def execEntryCompletion (qid : BitVec 16) (s : State) : Host.Outcome State Fault Refusal :=
  onDev s (fun d =>
    match d.wqFind qid.toNat with
    | none => d
    | some q =>
      match q.finished with
      | [] => d
      | x :: rest => (((d.wqSet qid.toNat { q with finished := rest }).wqComplete qid.toNat x).wqDrained qid.toNat).wqSettle qid.toNat 65537)

/-- COMPLETION_WORD_WRITE: COAL × 100 ns after a HEAD advance that no written word carries (R322, R324, R325). -/
def execCompletionWordWrite (qid : BitVec 16) (s : State) : Host.Outcome State Fault Refusal :=
  onDev s (fun d =>
    match d.wqFind qid.toNat with
    | some q => if q.unpub ∧ q.state ≠ .error ∧ q.state ≠ .lost then d.wqPublish qid.toNat else d
    | none => d)

/-! ## Link events (R334, R337) -/

/-- Give a host link a state, with the sensor event of R589. -/
def Dev.hifState (d : Dev) (k st : Nat) : Dev :=
  let old := d.sensorReading (160 + k)
  (d.fset (Reg.HIF_LINKk_STATUS_STATE k) st).noteState (160 + k) old

/-- Post PCIE_LINK to PF0. -/
def Dev.pcieLink (d : Dev) (k : Nat) : Dev :=
  d.post 0 .pcieLink 0 (k + d.fget (Reg.HIF_LINKk_STATUS_STATE k) * 16 + d.fget (Reg.HIF_LINKk_STATUS_GEN k) * 256 +
    d.fget (Reg.HIF_LINKk_STATUS_WIDTH k) * 65536)

/-- LINK_RECOVERY: an UP link enters Recovery; nothing is lost and no context ends (R334). -/
def execLinkRecovery (k : Fin 8) (s : State) : Host.Outcome State Fault Refusal :=
  onDev s (fun d =>
    if d.fget (Reg.HIF_LINKk_STATUS_STATE k) = 2 then (d.finc (Reg.HIF_LINKk_RECOVERY_COUNT k)).hifState k 3 else d)

/-- The widths of R301 that a link can train at on the lanes that self-test has left it, from its first lane up or, reversed, from its
last lane down (R559; PRESUMED from PCI Express). -/
def Dev.linkWidths (d : Dev) (k : Nat) : List Nat :=
  let base := 16 * (k / 2) + 8 * (k % 2)
  let n := if d.pw.straps.split.getLsbD (k / 2) then 8 else 16
  let good (i : Nat) : Bool := !d.bst.pcieBad.contains (base + i)
  [16, 8, 4, 2, 1].filter (fun w => decide (w ≤ n) && ((List.range w).all good || (List.range w).all (fun i => good (n - 1 - i))))

/-- HOST_LINK_UP: a link finishes training at a generation and width, or leaves Recovery (R301, R334, R337). -/
def execHostLinkUp (k : Fin 8) (gen : Fin 8) (width : BitVec 5) (flit cxl : Bool) (s : State) : Host.Outcome State Fault Refusal :=
  onDev s (fun d =>
    let st := d.fget (Reg.HIF_LINKk_STATUS_STATE k)
    if !d.alive || !d.linkPresent k || !d.pw.initDone || !d.pw.perst.getLsbD (k / 2) then d
    else if st = 3 then d.hifState k 2
    else if st = 2 ∨ gen.val < 3 ∨ 6 < gen.val ∨ (d.linkWidths k).contains width.toNat = false then d
    else
      let d := d.fset (Reg.HIF_LINKk_STATUS_GEN k) gen.val
      let d := d.fset (Reg.HIF_LINKk_STATUS_WIDTH k) width.toNat
      let d := d.fset (Reg.HIF_LINKk_STATUS_FLIT k) (b2n (flit || decide (gen.val = 6)))
      let d := d.fset (Reg.HIF_LINKk_STATUS_CXL k) (b2n (cxl && decide (k.val = 0) && d.pw.straps.cxl))
      let d := (d.hifState k 2).pcieLink k
      (List.range 264).foldl (fun d f => if fnLink f = k.val ∧ (d.pendStore f).ents ≠ [] then d.postPending f 4100 else d) d)

end Sys2Proof.Machine
end

