-- ==== Sys2Proof/Machine/QpOps.lean ====
section
/-! DEFINITION. Queue pairs: contexts, packets, sending, retransmission and the move to ERROR (chapter 11). -/
namespace Sys2Proof.Machine
open Sys2Proof

/-! ## Contexts (R386) -/

/-- STATE: 0 RESET, 1 INIT, 2 RTR, 3 RTS, 4 ERROR, 5 FROZEN. -/
def Qp.state (q : Qp) : Nat := q.get 0 1
/-- TYPE is UD. -/
def Qp.isUd (q : Qp) : Bool := decide (q.get 1 1 = 1)
/-- A bit of FLAGS. -/
def Qp.flag (q : Qp) (i : Nat) : Bool := (q.get 2 2).testBit i
/-- UNORDERED. -/
def Qp.unord (q : Qp) : Bool := q.flag 0
/-- TRIG. -/
def Qp.trig (q : Qp) : Bool := q.flag 1
/-- PROTECTED. -/
def Qp.prot (q : Qp) : Bool := q.flag 2
/-- RAW. -/
def Qp.raw (q : Qp) : Bool := q.flag 3
/-- ONAUD. -/
def Qp.onaud (q : Qp) : Bool := q.flag 8
/-- PMTU in bytes (R385). -/
def Qp.mtu (q : Qp) : Nat := 128 * 2 ^ q.get 6 1
/-- SQ_QID. -/
def Qp.sqQid (q : Qp) : Nat := q.get 8 2
/-- RQ_QID. -/
def Qp.rqQid (q : Qp) : Nat := q.get 0x0A 2
/-- DEST_QPN. -/
def Qp.dest (q : Qp) : Nat := q.get 0x10 3
/-- SQ_PSN. -/
def Qp.sqPsn (q : Qp) : Nat := q.get 0x18 3
/-- RQ_EPSN. -/
def Qp.epsn (q : Qp) : Nat := q.get 0x1C 3
/-- UNA_PSN. -/
def Qp.una (q : Qp) : Nat := q.get 0x90 3
/-- RESP_MSN. -/
def Qp.msn (q : Qp) : Nat := q.get 0x98 3
/-- RC_RATE. -/
def Qp.rc (q : Qp) : Nat := q.get 0x60 4
/-- RT_RATE. -/
def Qp.rt (q : Qp) : Nat := q.get 0x64 4

/-- The difference of two PSNs modulo 2^24 (R396). -/
def psnSub (a b : Nat) : Nat := (2 ^ 24 + a - b) % 2 ^ 24
/-- A PSN further on. -/
def psnAdd (a n : Nat) : Nat := (a + n) % 2 ^ 24

/-- Unacknowledged PSNs of a QP. -/
def Qp.open_ (q : Qp) : Nat := psnSub q.sqPsn q.una

/-- The most PSNs that a QP may hold unacknowledged (R396). -/
def Qp.bound (q : Qp) : Nat := if q.unord then 2048 else 2 ^ 22

/-- The length of the payload stream of a message of `n` bytes (R408). -/
def Qp.streamLen (q : Qp) (n : Nat) : Nat := if q.prot then n + 16 * ((65535 + n) / 65536) else n

/-- The PSNs that a message of `n` bytes takes (R385; those of a protected message are counted over its stream). -/
def Qp.psns (q : Qp) (n : Nat) : Nat := max 1 ((q.streamLen n + q.mtu - 1) / q.mtu)

/-- Replace a QP. -/
def Dev.setQp (d : Dev) (n : Nat) (q : Qp) : Dev := d.upQpe (fun x => { x with qps := x.qps.set n q })

/-- Change a QP. -/
def Dev.updQp (d : Dev) (n : Nat) (f : Qp → Qp) : Dev := match d.qp n with | some q => d.setQp n (f q) | none => d

/-- A QP with nothing in progress. -/
def Qp.fresh (ctx : BitVec 2048) : Qp :=
  { ctx := ctx, out := [], recvs := [], recvNo := 0, trigs := [], cur := none, bitmap := [], ends := [], ahead := [], atomics := [],
    reads := [], unacked := 0, nakSent := false, rnrWait := none, cnpAt := none, decAt := none, rttAt := none, sendNo := 0, synd := 0,
    drained := false, frozen := 0 }

/-- TRIG_CNT[k] of a QPN (R387, R394). -/
def Dev.trigCount (d : Dev) (n k : Nat) : Nat := (d.qpe.trig.get 0 (4 * n + k)).toNat

/-- The context of a QP as QUERY_QP and the QP-context area show it. -/
def Dev.qpView (d : Dev) (n : Nat) : BitVec 2048 :=
  let c := match d.qp n with
    | some q =>
      match q.cur with
      | some m => if m.write then bvSet q.ctx (8 * 0xB0) 128 (m.addr + m.off + m.key * 2 ^ 64 + (m.len - m.off) * 2 ^ 96) else q.ctx
      | none => q.ctx
    | none => 0
  (List.range 4).foldl (fun c k => bvSet c (8 * (0x80 + 4 * k)) 32 (d.trigCount n k)) c

/-- The function whose QP range holds a QPN (R446). -/
def Dev.qpnFn (d : Dev) (n : Nat) : Option Nat :=
  if d.committed then
    (List.range 264).find? (fun f =>
      let b := d.sec secQueueShapes
      decide (b.u32 (shapeAt f + 4) ≤ n) && decide (n < b.u32 (shapeAt f + 4) + b.u32 (shapeAt f + 8)))
  else none

/-- The partition of a QP. -/
def Dev.qpPart (d : Dev) (q : Qp) : Nat := (d.fnPart q.fn).getD 0xFF

/-- Request slots held device-wide (R413). -/
def Dev.inflight (d : Dev) : Nat := (d.qpe.qps.vals.map (fun q => q.out.length)).foldl (· + ·) 0

/-! ## Packets (R383, R403) -/

/-- The base transport header, with the standard's default partition key (log entry 41). -/
def bth (op pad dst psn : Nat) (ack : Bool) : List Byte :=
  beBytes 1 op ++ beBytes 1 (16 * pad) ++ beBytes 2 0xFFFF ++ beBytes 1 0 ++ beBytes 3 dst ++ beBytes 1 (128 * b2n ack) ++ beBytes 3 psn

/-- The placement header (R403). -/
def uph (first : Nat) (flagged recv : Bool) (num : Nat) : List Byte :=
  beBytes 3 first ++ beBytes 1 (b2n flagged + 2 * b2n recv) ++ beBytes 3 num ++ beBytes 1 0

/-- The RDMA extended header. -/
def reth (addr key len : Nat) : List Byte := beBytes 8 addr ++ beBytes 4 key ++ beBytes 4 len

/-- The acknowledge header. -/
def aeth (synd msn : Nat) : List Byte := beBytes 1 synd ++ beBytes 3 msn

/-- One packet of a QP: headers, payload and pad. -/
def Qp.pkt (q : Qp) (op dst psn : Nat) (ack : Bool) (u hdr payload : List Byte) : List Byte :=
  let pad := (4 - payload.length % 4) % 4
  bth op pad dst psn ack ++ (if q.unord then u else []) ++ hdr ++ payload ++ List.replicate pad 0

/-- The pieces of a byte string of at most `m` bytes each, `n` of them. -/
def cutBytes (bs : List Byte) (m n : Nat) : List (List Byte) := (List.range n).map (fun i => (bs.drop (i * m)).take m)

/-- The cells that carry a byte string (R412). -/
def packCells (bs : List Byte) : List (BitVec 512) := (cutBytes bs 64 ((bs.length + 63) / 64)).map (fun c => BitVec.ofNat 512 (leNat c))

/-- Where a packet goes on the Ethernet path. -/
structure NetPath where
  dip : BitVec 128
  sip : BitVec 128
  dmac : BitVec 48
  sport : Nat
  dscp : Nat
  hop : Nat
  vlan : BitVec 16
  port : Nat
  deriving DecidableEq, Repr

/-- The number that bytes in network order spell. -/
def netNum (f : Nat → Nat) (o n : Nat) : Nat := (List.range n).foldl (fun x k => 256 * x + f (o + k)) 0

/-- The path that bytes from offset `o` on describe, with the source address at `so` (R386, R421). -/
def netPath (f : Nat → Nat) (o so : Nat) : NetPath :=
  { dip := BitVec.ofNat 128 (netNum f o 16), sip := BitVec.ofNat 128 (netNum f so 16), dmac := BitVec.ofNat 48 (netNum f (o + 0x10) 6),
    sport := f (o + 0x16) + 256 * f (o + 0x17), dscp := f (o + 0x18) % 64, hop := f (o + 0x19),
    vlan := BitVec.ofNat 16 (f (o + 0x1A) + 256 * f (o + 0x1B)), port := f (o + 0x1C) }

/-- The path of a QP. -/
def Qp.path (q : Qp) : NetPath := netPath (fun o => q.get o 1) 0x20 0x50

/-- The path of an address handle (R421). -/
def ahPath (a : BitVec 512) : NetPath := netPath (fun o => bvFld a (8 * o) 8) 0 0x20

/-- Send a packet of a QP: staged for its Ethernet port, or as a burst to its rank (R407, R412, R414).  `over` gives a CNP
its class and DSCP; `fin` names the entry of a UD send. -/
def Dev.qpSend (d : Dev) (n : Nat) (q : Qp) (path : NetPath) (ovr : Option (Nat × Nat)) (bytes : List Byte) (ect : Bool) (tag : Option Nat)
    (fin : Option (Nat × Nat)) : Dev :=
  if q.onaud then
    let p := d.qpPart q
    let d := (d.sendBurst ⟨2, path.port, engineUnit 0 0x50, p, d.roleEpoch p, packCells bytes⟩).finc Reg.QPE_TX_PKTS_COUNT
    match fin with
    | some (qid, idx) => d.wqFinish qid idx .ok 0 0
    | none => d
  else
    let sub := q.get 0x0C 2 % 16384
    let spray := if q.unord then pktPsn bytes % max 1 (q.get 0x3D 1) else 0
    d.stage
      { who := if ovr.isSome then 2 ^ 24 + n else n, port := path.port, cls := (ovr.map (·.1)).getD (d.subClass sub), sub := sub,
        dmac := path.dmac, vlan := path.vlan, sip := path.sip, dip := path.dip, sport := (path.sport + spray) % 65536,
        dscp := (ovr.map (·.2)).getD path.dscp, ect := ect, hop := path.hop, bytes := bytes, tag := tag, fin := fin, ready := d.clk }

/-- Send a packet on a QP's own path. -/
def Dev.rcSend (d : Dev) (n : Nat) (bytes : List Byte) (ect : Bool) (tag : Option Nat) : Dev :=
  match d.qp n with
  | some q => d.qpSend n q q.path none bytes ect tag none
  | none => d

/-- Answer with an AETH: an Acknowledge or a NAK (R397, R401). -/
def Dev.sendAeth (d : Dev) (n psn synd : Nat) : Dev :=
  match d.qp n with
  | some q => d.rcSend n (q.pkt 0x11 q.dest psn false (uph psn false false 0) (aeth synd q.msn) []) false none
  | none => d

/-- Acknowledge everything before RQ_EPSN. -/
def Dev.ackNow (d : Dev) (n : Nat) : Dev :=
  match d.qp n with
  | some q => (d.sendAeth n (psnSub q.epsn 1) 0x1F).updQp n (fun q => { q with unacked := 0 })
  | none => d

/-- A packet type that a requester sends. -/
def requestOp (op : Nat) : Bool := decide (op ≤ 0x0C) || decide (op = 0x13) || decide (op = 0x14) || decide (op = 0x64) || decide (op = 0x65)

/-! ## Protected segments (R408, R480, R481) -/

/-- The IV of a segment: requester's QPN, responder's QPN, direction, segment number. -/
def segIv (req resp : Nat) (rd : Bool) (num : Nat) : BitVec 96 :=
  BitVec.ofNat 96 (req * 2 ^ 72 + resp * 2 ^ 48 + b2n rd * 2 ^ 40 + num % 2 ^ 32)

/-- The additional data of a segment. -/
def segAad (first : Nat) (last rd : Bool) (len off : Nat) : List Byte :=
  beBytes 3 first ++ beBytes 1 (b2n last + 2 * b2n rd) ++ beBytes 4 len ++ beBytes 8 off

/-- The segments of a message. -/
def segCount (len : Nat) : Nat := (65535 + len) / 65536

/-- Seal the first `n` segments of a message of `len` bytes, numbered from `num` on. -/
def sealSegs (k : BitVec 256) (req resp : Nat) (rd : Bool) (first len num : Nat) (plain : List Byte) (n : Nat) : List Byte :=
  (List.range n).flatMap (fun i =>
    gcmSeal k (segIv req resp rd (num + i)) (segAad first (decide (i + 1 = segCount len)) rd len (65536 * i))
      ((plain.drop (65536 * i)).take 65536))

/-- Blocks that sealing or opening `n` bytes in segments runs (R465). -/
def segBlocks (n : Nat) : Nat := (List.range (segCount n)).foldl (fun s i => s + gcmBlocks (min 65536 (n - 65536 * i))) 0

/-! ## Finishing and errors (R389, R395) -/

/-- The 8-byte word of a RECV completion (R392). -/
def RecvUse.word (r : RecvUse) : Nat := r.imm.getD 0 + r.srcQpn * 2 ^ 32 + b2n r.imm.isSome * 2 ^ 56

/-- A message has ended: its entry finishes, or the dispatch context that sent it learns of it. -/
def Dev.msgDone (d : Dev) (o : MsgOwner) (st : Status) : Dev :=
  match o with
  | .entry qid idx => d.wqFinish qid idx st 0 0
  | .xdu key gen flag => d.xduMsgDone key gen flag st

/-- The QP enters ERROR with a status at a PSN, after a NAK of a syndrome (0 for none); `bad` and `badRecv` name the entry
that caused it (R389). -/
def Dev.qpError (d : Dev) (n : Nat) (st : Status) (psn synd : Nat) (bad : MsgOwner → Bool) (badRecv : Nat → Bool) : Dev :=
  match d.qp n with
  | none => d
  | some q =>
    if q.state = 4 then d
    else
      let fins := d.txs.ready.filterMap (fun f => if f.who = n ∧ requestOp (pktOp f.bytes) = true then f.fin else none)
      let d := d.upTxs (fun t => { t with ready := t.ready.filter (fun f => decide (f.who ≠ n) || !requestOp (pktOp f.bytes)) })
      let d := fins.foldl (fun d f => d.wqFinish f.1 f.2 .flushed 0 0) d
      let done := { q with
        ctx := bvSet (bvSet (bvSet (bvSet q.ctx 0 8 4) (8 * 0xC8) 32 (st.code + psn * 256)) (8 * 0x94) 24 0) (8 * 0xC0) 64 0,
        out := [], recvs := [], cur := none, bitmap := [], ends := [], ahead := [], unacked := 0, rnrWait := none, synd := synd }
      let d := d.setQp n done
      let d := q.out.foldl (fun d m => d.msgDone m.owner (if bad m.owner ∨ (match m.owner with | .xdu .. => true | .entry .. => false) = true then st else .flushed)) d
      let d := q.recvs.foldl (fun d r =>
        match r.done with
        | some s => d.wqFinish q.rqQid r.idx s r.bytes r.word
        | none => d.wqFinish q.rqQid r.idx (if badRecv r.idx then st else .flushed) 0 0) d
      let d := (d.wqFlush q.sqQid 65537).wqFlush q.rqQid 65537
      d.post q.fn (.other 0x20) st.code (n + psn * 2 ^ 32 + synd * 2 ^ 56)

/-- No entry caused the error. -/
def noOwner : MsgOwner → Bool := fun _ => false

/-- The message of an owner caused it. -/
def isOwner (o : MsgOwner) : MsgOwner → Bool := fun x => decide (x = o)

/-! ## Timers and retransmission (R398, R402) -/

/-- Restart TIMER while a PSN is unacknowledged, else disarm it. -/
def Dev.qpTimer (d : Dev) (n : Nat) : Dev :=
  d.updQp n (fun q => q.put 0xC0 8 (if q.open_ = 0 then 0 else d.ptp + 4096 * 2 ^ q.get 0x0E 1))

/-- The first PSN of a READ's response, or of an atomic, that has not landed. -/
def QpMsg.missing (m : QpMsg) : Nat :=
  ((List.range (psnSub m.last m.first + 1)).find? (fun i => !m.got.contains (psnAdd m.first i))).elim (psnAdd m.last 1) (psnAdd m.first)

/-- The request packet of a READ from a PSN of its response range on (R398); a protected READ is asked for whole. -/
def Qp.readReq (q : Qp) (m : QpMsg) (psn : Nat) : List Byte :=
  let off := if q.prot then 0 else psnSub psn m.first * q.mtu
  let p := if q.prot then m.first else psn
  q.pkt 0x0C q.dest p true (uph p false false 0) (reth (m.raddr + off) m.rkey (m.len - off)) []

/-- The packets of a message at or past a PSN that have been sent. -/
def Qp.resendOf (q : Qp) (m : QpMsg) (psn : Nat) : List (List Byte) :=
  let later (p : Nat) : Bool := decide (psnSub psn q.una ≤ psnSub p q.una)
  match m.kind with
  | .send | .write => ((m.pkts.take m.sent).zipIdx.filter (fun x => later (psnAdd m.first x.2))).map (·.1)
  | .atomic => if later m.first then m.pkts else []
  | .read =>
    if later m.last then [q.readReq m (if later m.missing then m.missing else psn)] else []

/-- Retransmit from a PSN. -/
def Dev.qpResend (d : Dev) (n psn : Nat) : Dev :=
  match d.qp n with
  | none => d
  | some q =>
    let stale (f : TxFrame) : Bool :=
      decide (f.who = n) && requestOp (pktOp f.bytes) && decide (psnSub psn q.una ≤ psnSub (pktPsn f.bytes) q.una)
    let d := d.upTxs (fun t => { t with ready := t.ready.filter (fun f => !stale f) })
    let ps := q.out.flatMap (fun m => q.resendOf m psn)
    let d := ps.foldl (fun d b => d.rcSend n b true none) d
    (d.fadd Reg.QPE_RETRANS_PKTS_COUNT ps.length).qpTimer n

/-- The message that holds a PSN, else the oldest. -/
def Qp.msgAt (q : Qp) (psn : Nat) : Option MsgOwner :=
  match q.out.find? (fun m => decide (psnSub psn m.first ≤ psnSub m.last m.first)) with
  | some m => some m.owner
  | none => q.out.head?.map (·.owner)

/-- A retransmission from a PSN takes one of the retries left, or exhausts them (R398). -/
def Dev.qpRetry (d : Dev) (n psn : Nat) : Dev :=
  match d.qp n with
  | none => d
  | some q =>
    let left := q.get 0x97 1
    if left % 8 = 0 then d.qpError n .retryExhausted psn 0 (match q.msgAt psn with | some o => isOwner o | none => noOwner) (fun _ => false)
    else (d.setQp n (q.put 0x97 1 (left - 1))).qpResend n psn

/-- Give the requester its full retries back. -/
def Qp.fullRetries (q : Qp) : Qp := q.put 0x97 1 (q.get 7 1)

/-! ## Sending (R396, R413) -/

/-- Set OUT_MSGS and OUT_RD from the messages outstanding. -/
def Qp.counts (q : Qp) : Qp :=
  (q.put 0x94 2 q.out.length).put 0x96 1 (q.out.filter (fun m => decide (m.kind = .read ∨ m.kind = .atomic))).length

/-- Send what the PSN bound allows of the last message. -/
def Dev.qpPump (d : Dev) (n : Nat) : Dev :=
  match d.qp n with
  | none => d
  | some q =>
    match q.out.getLast? with
    | none => d
    | some m =>
      if m.kind = .read ∨ m.kind = .atomic then d
      else
        let k := min (m.pkts.length - m.sent) (q.bound - q.open_)
        if k = 0 then d
        else
          let idle := decide (q.open_ = 0)
          let q' := { q with out := q.out.dropLast ++ [{ m with sent := m.sent + k }] }.put 0x18 3 (psnAdd q.sqPsn k)
          let d := ((m.pkts.drop m.sent).take k).zipIdx.foldl (fun d x =>
            d.rcSend n x.1 true (if m.sent = 0 ∧ x.2 = 0 then m.tag else none)) (d.setQp n q')
          if idle then d.qpTimer n else d

/-- A SEND or WRITE to start: its owner, immediate, bytes read from its source and their full number, remote address and
key, FLAGGED, timestamp tag, and the status with which reading the source failed. -/
structure OutMsg where
  owner : MsgOwner
  write : Bool
  imm : Option Nat
  plain : List Byte
  len : Nat
  raddr : Nat
  rkey : Nat
  flagged : Bool
  tag : Option Nat
  fail : Option Status
  deriving DecidableEq, Repr

/-- The packets of a SEND or WRITE whose payload stream is `stream`, `have_` of `total` (R383, R403). -/
def Qp.msgPkts (q : Qp) (m : OutMsg) (first num total have_ : Nat) (stream : List Byte) (recv : Bool) : List (List Byte) :=
  (List.range have_).map (fun i =>
    let payload := (stream.drop (i * q.mtu)).take q.mtu
    let last := decide (i + 1 = total)
    let sub := if total = 1 then 4 + b2n m.imm.isSome else if i = 0 then 0 else if last then 2 + b2n m.imm.isSome else 1
    let off := if q.prot then 65536 * (i * q.mtu / 65552) + min 65536 (i * q.mtu % 65552) else i * q.mtu
    let rh := if m.write ∧ (i = 0 ∨ q.unord) then reth (m.raddr + off) m.rkey m.len else []
    let ih := if last then (match m.imm with | some v => beBytes 4 v | none => []) else []
    q.pkt ((if m.write then 6 else 0) + sub) q.dest (psnAdd first i) last (uph first m.flagged recv num) (rh ++ ih) payload)

/-- Start a SEND or WRITE on an RC QP.  One whose source fails, whose key slot is EMPTY or whose segment numbers run out
sends the packets before the failure and moves the QP to ERROR (R389, R410, R437, R484). -/
def Dev.rcPost (d : Dev) (n : Nat) (m : OutMsg) : Dev :=
  match d.qp n with
  | none => d
  | some q =>
    let slot := d.slot (q.get 0x42 2)
    let segs := if q.prot then segCount m.len else 0
    let tx := q.get 0xA0 8
    let usable := min (if m.plain.length = m.len then segs else m.plain.length / 65536) (2 ^ 32 - 1 - tx)
    let usable := if slot.loaded then usable else 0
    let first := q.sqPsn
    let stream := if q.prot then sealSegs (keyK1 slot.key) n q.dest false first m.len tx m.plain usable else m.plain
    let whole := m.fail.isNone && (!q.prot || decide (usable = segs))
    let total := q.psns m.len
    let recv := !m.write || m.imm.isSome
    let recv := recv && !(m.imm.isSome && q.trig)
    let pkts := q.msgPkts m first q.sendNo total (if whole then total else stream.length / q.mtu) stream recv
    let d := if q.prot then d.cadBlocks 1 (segBlocks (min m.len (65536 * usable))) else d
    let sent := { q with sendNo := (q.sendNo + b2n recv) % 2 ^ 24 }.put 0xA0 8 (tx + (if q.prot then usable else 0))
    if whole then
      let msg : QpMsg := ⟨m.owner, if m.write then .write else .send, first, psnAdd first (total - 1), pkts, 0, m.tag, 0, 0, m.len, m.raddr, m.rkey, [], [], 0⟩
      ((d.setQp n ({ sent with out := sent.out ++ [msg] }.counts)).qpPump n)
    else
      let d := d.setQp n (sent.put 0x18 3 (psnAdd first pkts.length))
      let d := pkts.foldl (fun d b => d.rcSend n b true none) d
      let st := match m.fail with | some st => st | none => if slot.loaded then Status.keyLimit else .keyRevoked
      (d.msgDone m.owner st).qpError n st (psnAdd first pkts.length) 0 noOwner (fun _ => false)

/-- Start a READ or an atomic: one request packet, and its PSNs. -/
def Dev.rcRequest (d : Dev) (n : Nat) (m : QpMsg) (segs : Nat) : Dev :=
  match d.qp n with
  | none => d
  | some q =>
    let tx := q.get 0xA0 8
    if 2 ^ 32 - 1 - tx < segs then (d.msgDone m.owner .keyLimit).qpError n .keyLimit m.first 0 noOwner (fun _ => false)
    else
      let idle := decide (q.open_ = 0)
      let m := { m with seg := tx }
      let b := match m.kind with | .read => q.readReq m m.first | _ => (m.pkts.head?).getD []
      let q' := ({ q with out := q.out ++ [{ m with sent := 1 }] }.counts.put 0x18 3 (psnAdd m.last 1)).put 0xA0 8 (tx + segs)
      let d := (d.setQp n q').rcSend n b true m.tag
      if idle then d.qpTimer n else d

/-! ## Acknowledgement at the requester (R395, R398) -/

/-- Everything up to a PSN has been acknowledged: covered SENDs and WRITEs finish, and UNA_PSN advances to the oldest PSN
still unacknowledged. -/
def Dev.qpAck (d : Dev) (n a : Nat) : Dev :=
  match d.qp n with
  | none => d
  | some q =>
    if q.open_ ≤ psnSub a q.una then d
    else
      let simple (m : QpMsg) : Bool := decide (m.kind = .send ∨ m.kind = .write)
      let cov (m : QpMsg) : Bool := simple m && decide (m.sent = m.pkts.length) && decide (psnSub m.last q.una ≤ psnSub a q.una)
      let done := q.out.filter cov
      let rest := q.out.filter (fun m => !cov m)
      let holes := (rest.filter (fun m => !simple m && decide (psnSub m.missing q.una ≤ psnSub a q.una))).map (fun m => psnSub m.missing q.una)
      let adv := holes.foldl min (psnSub a q.una + 1)
      let q' := { q with out := rest }.counts
      let q' := if adv = 0 then q' else (q'.put 0x90 3 (psnAdd q.una adv)).fullRetries
      let d := done.foldl (fun d m => d.msgDone m.owner .ok) (d.setQp n q')
      (if adv = 0 then d else d.qpTimer n).qpPump n

/-! ## Work requests (R390 to R394) -/

/-- A field of a descriptor. -/
def dFld (x : BitVec 512) (o n : Nat) : Nat := bvFld x (8 * o) (8 * n)

/-- A value C of a counter meets a threshold (R195, R393). -/
def countMeets (c t : Nat) : Bool := decide ((2 ^ 32 + c - t) % 2 ^ 32 < 2 ^ 31)

/-- What a trigger names: its counter's value, or none when the counter is not of the partition. -/
def Dev.trigValue (d : Dev) (part : Option Nat) (zone : Bool) (counter num : Nat) : Option Nat :=
  if zone then
    if num < 4096 ∧ part.isSome ∧ d.zonePart num = part then some (d.fget (Reg.XDU_ZCNTz_COUNT num)) else none
  else if part.isSome ∧ (d.qpnFn num).bind d.fnPart = part then some (d.trigCount num counter)
  else none

/-- TRIG.EN of a SEND-queue entry; an atomic has no trigger. -/
def trigEn (x : BitVec 512) : Bool := decide (descOpcode x ≤ 5) && x.getLsbD (8 * 0x30 + 30)

/-- The status that an entry of a QP completes with without starting, if any (R385, R390, R391, R393, R405, R408). -/
def Dev.descVerdict (d : Dev) (q : Qp) (x : BitVec 512) : Option Status :=
  let op := descOpcode x
  let len := dFld x 0x1C 4
  let bad :=
    q.raw || (q.isUd && decide (2 < op)) || (q.prot && decide (5 < op)) ||
    (if op ≤ 5 then
      ((decide (op ≤ 2)) && decide (dFld x 0x20 12 ≠ 0)) || (!(decide (op = 2 ∨ op = 4)) && decide (dFld x 0x2C 4 ≠ 0)) ||
      decide (bvFld x (8 * 0x30 + 26) 4 ≠ 0) ||
      (if q.isUd then decide (dFld x 0x3B 1 ≠ 0) else decide (bvFld x (8 * 0x38) 31 ≠ 0) || decide (dFld x 0x3C 2 ≠ 0)) ||
      (!q.isUd && q.unord && x.getLsbD (8 * 0x38 + 31) &&
        !(decide (op = 3) && [1, 2, 4, 8].contains len && decide (dFld x 0x20 8 % max 1 len = 0)))
    else decide (len ≠ 0) || decide (dFld x 0x2C 4 ≠ 0) || (decide (op = 7) && decide (dFld x 0x38 8 ≠ 0)) || decide (dFld x 0x20 8 % 8 ≠ 0))
  if bad then some .malformed
  else if op ≤ 5 ∧ ((q.isUd ∧ q.mtu < len) ∨ (¬ q.isUd ∧ 2 ^ 31 < len) ∨ (q.prot ∧ 268435456 < len)) then some .lengthError
  else if trigEn x ∧ (d.trigValue (d.fnPart q.fn) (x.getLsbD (8 * 0x30 + 31)) (bvFld x (8 * 0x30 + 24) 2) (dFld x 0x30 3)).isNone then
    some .accessError
  else none

/-- The trigger of an entry is met, or it has none. -/
def Dev.trigMet (d : Dev) (q : Qp) (x : BitVec 512) : Bool :=
  !trigEn x ||
  match d.trigValue (d.fnPart q.fn) (x.getLsbD (8 * 0x30 + 31)) (bvFld x (8 * 0x30 + 24) 2) (dFld x 0x30 3) with
  | some c => countMeets c (dFld x 0x34 4)
  | none => false

/-- QPE can start the entry at the front of a SEND queue (R388, R393, R396, R405, R413). -/
def Dev.qpeCan (d : Dev) (qid : Nat) (w : Wq) (e : WqEntry) : Bool :=
  match d.qp (wqBind w.ctx) with
  | none => false
  | some q =>
    if q.state ≠ 3 ∨ q.sqQid ≠ qid then false
    else if (d.descVerdict q e.desc).isSome then true
    else if !d.trigMet q e.desc then false
    else if q.isUd then true
    else
      let op := descOpcode e.desc
      let k := if op ≤ 5 then q.psns (dFld e.desc 0x1C 4) else 1
      decide (d.inflight < 16384) && decide (q.out.length < q.get 0x40 2) && q.rnrWait.isNone &&
      q.out.all (fun m => decide (m.sent = max 1 m.pkts.length)) &&
      (decide (op < 5) || decide (q.get 0x96 1 < q.get 0x3E 1)) &&
      (decide (q.open_ = 0) || decide (q.open_ + k ≤ q.bound)) &&
      (!(q.unord && decide (op ≤ 5) && e.desc.getLsbD (8 * 0x38 + 31)) || decide (q.open_ = 0))

/-- The context of a QP's units for records. -/
def Dev.qpUnit (d : Dev) (n : Nat) (q : Qp) (key : Nat) : UnitCtx := ⟨1, n, d.qpPart q, q.fn, key⟩

/-- QPE reading a local buffer. -/
def Qp.localRead (q : Qp) : KeyUser := ⟨rLocalRead, false, some q.fn, none, false⟩
/-- QPE writing a local buffer. -/
def Qp.localWrite (q : Qp) : KeyUser := ⟨rLocalWrite, true, some q.fn, none, false⟩

/-- Start a UD send (R390, R421). -/
def Dev.udStart (d : Dev) (n qid : Nat) (q : Qp) (e : WqEntry) (rd : HostRead) : Dev :=
  let x := e.desc
  match d.qpe.ahs.find (dFld x 0x3C 2) with
  | none => d.wqFinish qid e.idx .accessError 0 0
  | some a =>
    if bvFld a (8 * 0x1E) 16 ≠ q.fn then d.wqFinish qid e.idx .accessError 0 0
    else
      let r := d.keyRead q.localRead (dFld x 0x18 4) (dFld x 0x10 8) (dFld x 0x1C 4) rd
      match r.2.2 with
      | some f => (r.1.unitFault (d.qpUnit n q (dFld x 0x18 4)) f false false).wqFinish qid e.idx f.st 0 0
      | none =>
        let imm := decide (descOpcode x = 2)
        let hdr := beBytes 4 (q.get 0x14 4) ++ beBytes 1 0 ++ beBytes 3 n ++ (if imm then beBytes 4 (dFld x 0x2C 4) else [])
        let b := q.pkt (if imm then 0x65 else 0x64) (dFld x 0x38 3) q.sqPsn false [] hdr r.2.1
        let d := r.1.setQp n (q.put 0x18 3 (psnAdd q.sqPsn 1))
        d.qpSend n q (ahPath a) none b true (if x.getLsbD 511 then some (bvFld x 496 15) else none) (some (qid, e.idx))

/-- Start an entry that the service round has given QPE. -/
def Dev.qpStart (d : Dev) (qid : Nat) (e : WqEntry) (rd : HostRead) : Dev :=
  match d.wqFind qid with
  | none => d
  | some w =>
    let n := wqBind w.ctx
    let d := d.readEnd (.qp (BitVec.ofNat 20 n))
    match d.qp n with
    | none => d
    | some q =>
      let x := e.desc
      match d.descVerdict q x with
      | some .malformed => d.wqMalformed qid e.idx
      | some st => d.wqFinish qid e.idx st 0 0
      | none =>
        if q.isUd then d.udStart n qid q e rd
        else
          let op := descOpcode x
          let len := dFld x 0x1C 4
          let la := dFld x 0x10 8
          let lk := dFld x 0x18 4
          let own := MsgOwner.entry qid e.idx
          let tag := if op ≤ 5 ∧ x.getLsbD 511 ∧ ¬ q.onaud then some (bvFld x 496 15) else none
          let first := q.sqPsn
          if op ≤ 4 then
            let r := d.keyRead q.localRead lk la len rd
            let d := match r.2.2 with | some f => r.1.unitFault (d.qpUnit n q lk) f false false | none => r.1
            d.rcPost n ⟨own, decide (3 ≤ op), if op = 2 ∨ op = 4 then some (dFld x 0x2C 4) else none, r.2.1, len, dFld x 0x20 8, dFld x 0x28 4,
              x.getLsbD (8 * 0x38 + 31), tag, r.2.2.map (·.st)⟩
          else if op = 5 then
            d.rcRequest n ⟨own, .read, first, psnAdd first (q.psns len - 1), [], 0, tag, la, lk, len, dFld x 0x20 8, dFld x 0x28 4, [], [], 0⟩
              (if q.prot then segCount len else 0)
          else
            let cas := decide (op = 6)
            let cmp := dFld x 0x30 8
            let hdr := beBytes 8 (dFld x 0x20 8) ++ beBytes 4 (dFld x 0x28 4) ++
              beBytes 8 (if cas then dFld x 0x38 8 else cmp) ++ beBytes 8 (if cas then cmp else 0)
            let b := q.pkt (if cas then 0x13 else 0x14) q.dest first true (uph first false false 0) hdr []
            d.rcRequest n ⟨own, .atomic, first, first, [b], 0, none, la, lk, 8, dFld x 0x20 8, dFld x 0x28 4, [], [], 0⟩ 0

/-- Give QPE its turn at a queue whose front entry passes a test, and start that entry. -/
def Dev.qpeTurn (d : Dev) (qid : Nat) (rd : HostRead) (ok : Dev → BitVec 512 → Bool) : Dev :=
  if !d.live then d
  else
    match (d.wqFind qid).bind Wq.front with
    | none => d
    | some e =>
      if !ok d e.desc then d
      else match d.wqTurn 0 0 qid d.qpeCan with
        | some (d, e) => d.qpStart qid e rd
        | none => d

/-- The entry at the front of a queue waits for a trigger counter: it starts by TRIGGERED_START. -/
def Dev.waitsTrigger (d : Dev) (qid : Nat) (x : BitVec 512) : Bool :=
  trigEn x && match (d.wqFind qid).bind (fun w => d.qp (wqBind w.ctx)) with
    | some q => (d.descVerdict q x).isNone
    | none => false

end Sys2Proof.Machine
end

