-- ==== Sys2Proof/Machine/Operands.lean ====
section
/-! DEFINITION. The operand forms of tile instructions: registers, predicates, scratchpad and tile addresses, and how
one instruction issues, waits, traps and moves the PC (R119 to R138). -/
namespace Sys2Proof.Machine
open Sys2Proof

/-- A tile. -/
def Dev.tile (d : Dev) (t : Nat) : Tile := d.tl.tiles.get Tile.reset t

/-- Replace a tile. -/
def Dev.setTile (d : Dev) (t : Nat) (x : Tile) : Dev := { d with tl := { d.tl with tiles := d.tl.tiles.set t x } }

/-- Change a tile. -/
def Dev.updTile (d : Dev) (t : Nat) (f : Tile → Tile) : Dev := d.setTile t (f (d.tile t))

/-- The code of an exception cause (R138). -/
def Cause.code : Cause → Nat
  | .none => 0 | .illegalInstruction => 1 | .illegalOperand => 2 | .sparseMetadata => 3 | .access => 4
  | .uncorrectable => 5 | .stallLimit => 6 | .fenced => 7

/-! ## Programs (R158) -/

/-- The offset of a tile's entry in TILE_PROGRAMS. -/
def tileEntry (t : Nat) : Nat := 128 * t

/-- CODE_LEN of a tile. -/
def Dev.codeLen (d : Dev) (t : Nat) : Nat := (d.sec secTilePrograms).u32 (tileEntry t + 0x10)

/-- The tile's entry is VALID. -/
def Dev.tileValid (d : Dev) (t : Nat) : Bool := decide ((d.sec secTilePrograms).u8 (tileEntry t) = 1)

/-- The instruction word at a PC of a tile's program. -/
def Dev.fetchWord (d : Dev) (t pc : Nat) : W64 :=
  let b := d.sec secTilePrograms
  BitVec.ofNat 64 (b.u64 (b.u64 (tileEntry t + 0x08) + 8 * pc))

/-- The CHANNELS word of a send channel: VALID, KIND, MAILBOX and destination. -/
def Dev.channel (d : Dev) (t ch : Nat) : Nat := (d.sec secTilePrograms).u16 (tileEntry t + 0x40 + 2 * ch)

/-- A tile's BARRIER_MASK has bit b set. -/
def Dev.joinsBarrier (d : Dev) (t b : Nat) : Bool := ((d.sec secTilePrograms).u64 (tileEntry t + 0x20)).testBit b

/-- The VARIANT flag that a partition's tiles run under: that of the partition-scoped image in force for it, else of
the last whole image (R60; log entry 25). -/
def Dev.variantAllowed (d : Dev) (t : Nat) : Bool :=
  match d.tilePart t with
  | some p => d.img.partVariant.get d.img.wholeVariant p
  | none => d.img.wholeVariant

/-! ## Registers of a tile -/

/-- A scalar register. -/
def Tile.sr (x : Tile) (i : Nat) : W64 := x.s.get 0 i

/-- The 32 zero lanes a vector register starts with. -/
def zeroLanes : List W32 := List.replicate 32 0

/-- A vector register. -/
def Tile.vr (x : Tile) (i : Nat) : List W32 := x.v.get zeroLanes i

/-- A lane of a vector. -/
def lane (v : List W32) (i : Nat) : W32 := v.getD i 0

/-- A predicate; p0 reads as all ones (R119). -/
def Tile.pr (x : Tile) (i : Nat) : W32 := if i = 0 then 0xFFFFFFFF else x.p.get 0 i

/-- The 256 zero cells an accumulator tile starts with. -/
def zeroCells : List W32 := List.replicate 256 0

/-- An accumulator tile. -/
def Tile.ar (x : Tile) (i : Nat) : List W32 := x.acc.get zeroCells i

/-- Write a scalar register. -/
def Tile.setS (x : Tile) (i : Nat) (v : W64) : Tile := { x with s := x.s.set i v }

/-- Write a vector register. -/
def Tile.setV (x : Tile) (i : Nat) (v : List W32) : Tile := { x with v := x.v.set i v }

/-- Write a predicate; a write to p0 is ignored (R119). -/
def Tile.setP (x : Tile) (i : Nat) (v : W32) : Tile := if i = 0 then x else { x with p := x.p.set i v }

/-- Write an accumulator tile. -/
def Tile.setA (x : Tile) (i : Nat) (v : List W32) : Tile := { x with acc := x.acc.set i v }

/-- Raise arithmetic flags (R114). -/
def Tile.raise (x : Tile) (fl : W32) : Tile := { x with aflags := x.aflags ||| fl }

/-- One operation has rounded stochastically (R102). -/
def Tile.bumpCtr (x : Tile) : Tile := { x with ctr := x.ctr + 1 }

/-- The lane mask an instruction's head selects (R120, R123). -/
def Tile.mask (x : Tile) (h : Head) : W32 :=
  let p := x.pr h.pred.toNat
  if h.pneg then ~~~p else p

/-- Merge new lanes under a mask: a lane whose bit is 0 keeps its old value (R120). -/
def mergeLanes (m : W32) (old new : List W32) : List W32 :=
  listOf 32 (fun i => if m.getLsbD i then lane new i else lane old i)

/-! ## How an instruction ends -/

/-- What an instruction that issues comes to. -/
inductive TRes where
  /-- It is done; the next instruction follows. -/
  | done (d : Dev)
  /-- It is done and control goes on at a PC as after a loop body's last instruction (LOOP over an empty count, RET). -/
  | seq (d : Dev) (next : Nat)
  /-- A taken branch. -/
  | jump (d : Dev) (target : Int)
  /-- An exception. -/
  | trap (c : Cause) (addr : Nat)
  /-- An exception after part of the effect. -/
  | late (d : Dev) (c : Cause) (addr : Nat)
  /-- It is done and the PC stays. -/
  | stay (d : Dev)
  /-- It waits; it changes nothing but what `d` holds, and issues again later. -/
  | wait (d : Dev) (w : WaitKind)

/-- The device address of an own-scratchpad or cluster-memory tile address. -/
def tileSpot (t a : Nat) : Nat := if fld a 60 4 = 0 then scratchBase t + fld a 0 21 else clusterBase (fld a 32 5) + fld a 0 29

/-- The record of the word that stopped a tile with cause 0x05 (R508, R513): the first bad one at or after the address. -/
def Dev.tileRecord (d : Dev) (t : Nat) (c : Cause) (addr : Nat) : Dev :=
  if c = .uncorrectable then d.badWordRecord (tileSpot t addr) 65536 2 8 ((d.tilePart t).getD 0xFF) 0xFFFF t else d

/-- A lasting fault of a logical tile claims its cluster's spare, or finds it claimed (R518, R519). -/
def Dev.claimSpare (d : Dev) (t : Nat) : Dev :=
  let c := clusterOf t
  let used := d.fon (Reg.RAS_CLU_SLOTSc_SPARE_USED c)
  let waiting := d.fget (Reg.RAS_CLU_SLOTSc_WAITING c)
  if waiting.testBit (t % 16) then d
  else
    let d := if used ∨ waiting ≠ 0 then d.fset (Reg.RAS_CLU_SLOTSc_NO_SPARE c) 1 else d
    if used then d else d.fset (Reg.RAS_CLU_SLOTSc_WAITING c) (waiting + 2 ^ (t % 16))

/-- Stop a tile with a cause, its PC and an address (R137): it issues nothing further.  A lasting fault of the tile itself, not of
cluster memory, claims the spare. -/
def Dev.tileDown (d : Dev) (t : Nat) (c : Cause) (addr : Nat) : Dev :=
  let cl := clusterOf t
  let i := t % 16
  let d := d.fset (Reg.CLU_TILE_CAUSEt_CAUSE cl i) c.code
  let d := d.fset (Reg.CLU_TILE_CAUSEt_PC cl i) (d.tile t).pc
  let d := d.fset (Reg.CLU_TILE_CAUSEt_ADDR cl i) addr
  let d := if c = .uncorrectable ∧ fld addr 60 4 = 0 then d.claimSpare t else d
  d.updTile t (fun x => { x with phase := .stopping, wait := none })

/-- Take a tile exception (R137): the record of the word it met, and the stop. -/
def Dev.tileTrap (d : Dev) (t : Nat) (c : Cause) (addr : Nat) : Dev := (d.tileRecord t c addr).tileDown t c addr

/-- Test loop ends from the innermost loop outward (R131, R133): each loop recorded at this call depth whose body
ends before `next` either starts another iteration or is closed. -/
def loopEnd : List LoopRec → Nat → Nat → List LoopRec × Nat
  | [], _, next => ([], next)
  | l :: r, depth, next =>
    if l.depth = depth ∧ next = l.stop then
      if 1 < l.left then ({ l with left := l.left - 1 } :: r, l.start) else loopEnd r depth next
    else (l :: r, next)

/-- Discard every loop recorded at this call depth whose body a branch leaves, with every loop inside it (R131,
R133). -/
def loopLeave : List LoopRec → Nat → Nat → List LoopRec
  | [], _, _ => []
  | l :: r, depth, target =>
    let r' := loopLeave r depth target
    if r'.length < r.length then r'
    else if l.depth = depth ∧ ¬ (l.start ≤ target ∧ target < l.stop) then r
    else l :: r

/-- Put the PC at `next`; outside the program it raises the illegal-instruction exception (R132). -/
def Dev.toPc (d : Dev) (t next : Nat) (loops : List LoopRec) : Dev :=
  if next < d.codeLen t then d.updTile t (fun x => { x with pc := next, loops := loops, wait := none })
  else d.tileTrap t .illegalInstruction 0

/-- Go on at `next` in sequence. -/
def Dev.seqTo (d : Dev) (t next : Nat) : Dev :=
  let x := d.tile t
  let r := loopEnd x.loops x.calls.length next
  d.toPc t r.2 r.1

/-- Go on with the next instruction. -/
def Dev.advance (d : Dev) (t : Nat) : Dev := d.seqTo t ((d.tile t).pc + 1)

/-- Branch. -/
def Dev.branchTo (d : Dev) (t : Nat) (target : Int) : Dev :=
  if target < 0 then d.tileTrap t .illegalInstruction 0
  else
    let x := d.tile t
    d.toPc t target.toNat (loopLeave x.loops x.calls.length target.toNat)

/-- Finish an instruction. -/
def Dev.finish (d : Dev) (t : Nat) : TRes → Dev
  | .done d' => d'.advance t
  | .seq d' next => d'.seqTo t next
  | .jump d' target => d'.branchTo t target
  | .trap c a => d.tileTrap t c a
  | .late d' c a => d'.tileTrap t c a
  | .stay d' => d'
  | .wait d' w => d'.updTile t (fun x => { x with wait := some w })

/-- What an instruction needs besides its body: whether its reserved bits are zero (R122), whether it is a variant
operation (R60) and whether its predicate is a lane mask (R120). -/
structure IssueKind where
  legal : Bool := true
  variant : Bool := false
  vector : Bool := false
  deriving DecidableEq, Repr

/-- The sequencer of a RUNNING tile issues one instruction (R122, R123, R126, R60).  A tile that is not RUNNING issues
nothing. -/
def Dev.issue (d : Dev) (t : Nat) (h : Head) (k : IssueKind) (body : Dev → TRes) : Dev :=
  if (d.tile t).phase ≠ .running then d
  else
    let e := d.bump
    if !k.legal || (k.variant && !d.variantAllowed t) then e.tileTrap t .illegalInstruction 0
    else if !k.vector && !((d.tile t).mask h).getLsbD 0 then e.advance t
    else e.finish t (body e)

/-- A register index lies in the predicate file or the accumulator file; an index past its file raises the
illegal-operand exception (log entry 27). -/
def inFile8 (i : BitVec 5) : Bool := decide (i.toNat < 8)

/-- Change the tile and go on. -/
def doneTile (d : Dev) (t : Nat) (f : Tile → Tile) : TRes := .done (d.updTile t f)

/-! ## Addresses (R134, R135) -/

/-- The space of a tile address. -/
def spaceOf (a : Nat) : Nat := fld a 60 4

/-- A DMA transfer in progress writes to a range of device addresses: its destination rows span it (R145). -/
def DmaCtx.writes (c : DmaCtx) (t a n : Nat) : Bool :=
  let dst := bvFld c.desc 128 64
  let ty := bvFld c.desc 0 8
  let len := bvFld c.desc 256 32
  let rows := bvFld c.desc 288 32
  let pitch := bvFld c.desc 384 64
  let span := if ty = 1 then len else (rows - 1) * pitch + len
  let base := if spaceOf dst = 0 then scratchBase t + fld dst 0 21
    else if spaceOf dst = 1 then clusterBase (fld dst 32 5) + fld dst 0 29
    else if spaceOf dst = 2 then scratchBase (fld dst 32 9) + fld dst 0 21
    else 0
  c.busy && !c.notify && decide (spaceOf dst ≤ 2) && decide (a < base + span) && decide (base < a + n)

/-- A DMA transfer in progress may still be writing to a range of device addresses. -/
def Dev.racing (d : Dev) (a n : Nat) : Bool :=
  d.tl.tiles.ents.any (fun p => p.2.dma.ents.any (fun q => q.2.writes p.1 a n))

/-- The bytes a tile reads; those that a DMA transfer may still be writing are undefined bits (R145), free values. -/
def Dev.tileBytes (d : Dev) (a n : Nat) : List Byte :=
  if d.racing a n then (List.range n).map (fun i => Config.freeValue 8 (d.fresh * 4194304 + i)) else d.memBytes a n

/-- What a tile address comes to for an access of `n` bytes by an instruction that reaches the spaces 0 and, if
`cm`, 1: the device address, or the exception. -/
inductive AddrRes where
  | ok (a : Nat)
  | bad (c : Cause)
  | busy
  deriving DecidableEq, Repr

/-- Resolve an own-scratchpad or cluster-memory address (R134, R135, R166). -/
def Dev.resolve (d : Dev) (t : Nat) (sp cm write : Bool) (a n : Nat) : AddrRes :=
  if sp && decide (spaceOf a = 0) then
    if fld a 21 39 = 0 ∧ fld a 0 21 + n ≤ 0x200000 then
      let p := scratchBase t + fld a 0 21
      if d.memStatus write p n = .ok then .ok p else .bad .uncorrectable
    else .bad .access
  else if cm && decide (spaceOf a = 1) then
    let c := fld a 32 5
    let p := clusterBase c + fld a 0 29
    if fld a 37 23 = 0 ∧ fld a 29 3 = 0 ∧ fld a 0 29 + n ≤ clusterBytes ∧ d.clusterPart c ≠ none ∧
        d.clusterPart c = d.tilePart t ∧ d.clusterOff c = false ∧ (d.regionAt p).isNone then
      if d.fbit Reg.MEM_CLEAR_BUSY_BUSY c then .busy
      else if d.memStatus write p n = .ok then .ok p else .bad .uncorrectable
    else .bad .access
  else .bad .access

/-- Go on with the bytes at a tile address. -/
def Dev.tileLoad (d : Dev) (t : Nat) (cm : Bool) (a n align : Nat) (k : Dev → List Byte → TRes) : TRes :=
  if a % align ≠ 0 then .trap .illegalOperand a
  else
    match d.resolve t true cm false a n with
    | .bad c => .trap c a
    | .busy => .wait d .memory
    | .ok p => k (d.noteAccess false p n) (d.tileBytes p n)

/-- Go on with bytes stored at a tile address. -/
def Dev.tileStore (d : Dev) (t : Nat) (cm : Bool) (a align : Nat) (bs : List Byte) (k : Dev → TRes) : TRes :=
  if a % align ≠ 0 then .trap .illegalOperand a
  else
    match d.resolve t true cm true a bs.length with
    | .bad c => .trap c a
    | .busy => .wait d .memory
    | .ok p => if d.writeSpoilt p bs.length then .late (d.memWrite p bs) .uncorrectable a else k (d.memWrite p bs)

/-- Go on with the old bytes under a masked store, which are read only when some lane keeps its bytes (R168). -/
def Dev.tileOld (d : Dev) (t : Nat) (m : W32) (a n align : Nat) (k : List Byte → TRes) : TRes :=
  if m = 0xFFFFFFFF then k [] else d.tileLoad t false a n align (fun _ bs => k bs)

/-- The address s(A) + offset, modulo 2^64. -/
def addrIM (f : FmtIM) (x : Tile) : Nat := (x.sr f.a.toNat + f.offset.signExtend 64).toNat

/-- MOD[hi:lo] of a Format IM instruction, numbered as in Format R. -/
def modIM (f : FmtIM) (lo w : Nat) : Nat := bvFld f.mod (lo - 14) w

/-- MOD[hi:lo] of a Format R instruction. -/
def modR (f : FmtR) (lo w : Nat) : Nat := bvFld f.mod lo w

/-- D of "sb or imm". -/
def srcD : SrcB → BitVec 5
  | .reg f => f.d
  | .imm f => f.d

/-- A of "sb or imm". -/
def srcA : SrcB → BitVec 5
  | .reg f => f.a
  | .imm f => f.a

/-- MOD[5:0] of "sb or imm". -/
def srcMod : SrcB → Nat
  | .reg f => modR f 0 6
  | .imm f => f.mod.toNat

/-- The value of "sb or imm". -/
def srcVal (x : Tile) : SrcB → W64
  | .reg f => x.sr f.b.toNat
  | .imm f => f.imm.signExtend 64

/-- The words of 4 bytes of a byte string. -/
def words32 (bs : List Byte) (n : Nat) : List W32 :=
  listOf n (fun i => BitVec.ofNat 32 (leNat ((bs.drop (4 * i)).take 4)))

/-- The bytes of words. -/
def bytes32 (ws : List W32) : List Byte := ws.flatMap (fun w => leBytes 4 w.toNat)

/-- Element `k` of packed elements of `eb` bits (R89). -/
def packedElem (bs : List Byte) (eb k : Nat) : Nat := fld (leNat ((bs.drop (k * eb / 8)).take ((k * eb % 8 + eb + 7) / 8))) (k * eb % 8) eb

/-- Pack elements of `eb` bits into bytes (R89). -/
def packElems (eb : Nat) (es : List Nat) : List Byte :=
  leBytes ((eb * es.length + 7) / 8) ((es.foldr (fun e acc => e % 2 ^ eb + 2 ^ eb * acc) 0))

end Sys2Proof.Machine
end

