-- ==== Sys2Proof/Machine/TileScalar.lean ====
section
/-! DEFINITION. The scalar and flow instructions of a tile (R125, R131 to R133, R607). -/
namespace Sys2Proof.Machine
open Sys2Proof

/-- A scalar operation on s(A) and "sb or imm". -/
def scalarOp (o : IntOp) (t : Fin 512) (h : Head) (b : SrcB) (s : State) : Host.Outcome State Fault Refusal :=
  onDev s (fun d => d.issue t h {} (fun d =>
    doneTile d t (fun x => x.setS (srcD b).toNat (intOp o (x.sr (srcA b).toNat) (srcVal x b)))))

/-- ADD: s(D) = s(A) + sb or imm, modulo 2^64. -/
def execAdd (t : Fin 512) (h : Head) (b : SrcB) (s : State) := scalarOp .add t h b s
/-- SUB. -/
def execSub (t : Fin 512) (h : Head) (b : SrcB) (s : State) := scalarOp .sub t h b s
/-- MUL keeps the low 64 bits. -/
def execMul (t : Fin 512) (h : Head) (b : SrcB) (s : State) := scalarOp .mul t h b s
/-- AND. -/
def execAnd (t : Fin 512) (h : Head) (b : SrcB) (s : State) := scalarOp .and t h b s
/-- OR. -/
def execOr (t : Fin 512) (h : Head) (b : SrcB) (s : State) := scalarOp .or t h b s
/-- XOR. -/
def execXor (t : Fin 512) (h : Head) (b : SrcB) (s : State) := scalarOp .xor t h b s
/-- SHL by bits [5:0] of the operand. -/
def execShl (t : Fin 512) (h : Head) (b : SrcB) (s : State) := scalarOp .shl t h b s
/-- SHR by bits [5:0] of the operand. -/
def execShr (t : Fin 512) (h : Head) (b : SrcB) (s : State) := scalarOp .shr t h b s
/-- SRA by bits [5:0] of the operand. -/
def execSra (t : Fin 512) (h : Head) (b : SrcB) (s : State) := scalarOp .sra t h b s
/-- MIN, signed. -/
def execMin (t : Fin 512) (h : Head) (b : SrcB) (s : State) := scalarOp .min t h b s
/-- MAX, signed. -/
def execMax (t : Fin 512) (h : Head) (b : SrcB) (s : State) := scalarOp .max t h b s
/-- MINU, unsigned. -/
def execMinu (t : Fin 512) (h : Head) (b : SrcB) (s : State) := scalarOp .minu t h b s
/-- MAXU, unsigned. -/
def execMaxu (t : Fin 512) (h : Head) (b : SrcB) (s : State) := scalarOp .maxu t h b s

/-- LI: s(D) = the immediate, sign-extended. -/
def execLi (t : Fin 512) (h : Head) (f : FmtI) (s : State) : Host.Outcome State Fault Refusal :=
  onDev s (fun d => d.issue t h {} (fun d => doneTile d t (fun x => x.setS f.d.toNat (f.imm.signExtend 64))))

/-- LUI: s(D)[63:32] = the immediate; s(D)[31:0] is kept. -/
def execLui (t : Fin 512) (h : Head) (f : FmtI) (s : State) : Host.Outcome State Fault Refusal :=
  onDev s (fun d => d.issue t h {} (fun d =>
    doneTile d t (fun x => x.setS f.d.toNat (f.imm ++ (x.sr f.d.toNat).extractLsb' 0 32))))

/-- All 32 bits of a predicate (R120). -/
def allBits (b : Bool) : W32 := if b then 0xFFFFFFFF else 0

/-- CMP.cc: p(D) = all ones or zero as s(A) compares with sb or imm (R607). -/
def execCmp (t : Fin 512) (h : Head) (b : SrcB) (s : State) : Host.Outcome State Fault Refusal :=
  onDev s (fun d => d.issue t h {} (fun d =>
    match condOf (srcMod b % 8) with
    | none => .trap .illegalOperand 0
    | some c =>
      if inFile8 (srcD b) then
        doneTile d t (fun x => x.setP (srcD b).toNat (allBits (iCmp c (x.sr (srcA b).toNat) (srcVal x b))))
      else .trap .illegalOperand 0))

/-- The operations of PLOG (R607). -/
def plogOp (o : Nat) (a b : W32) : W32 :=
  if o = 0 then a &&& b else if o = 1 then a ||| b else if o = 2 then a ^^^ b else a &&& ~~~b

/-- PLOG.op: p(D) = p(A) op p(B), op in MOD[1:0] (R607). -/
def execPlog (t : Fin 512) (h : Head) (f : FmtR) (s : State) : Host.Outcome State Fault Refusal :=
  onDev s (fun d => d.issue t h {} (fun d =>
    if inFile8 f.d && inFile8 f.a && inFile8 f.b then
      doneTile d t (fun x => x.setP f.d.toNat (plogOp (modR f 0 2) (x.pr f.a.toNat) (x.pr f.b.toNat)))
    else .trap .illegalOperand 0))

/-- LD.w: s(D) = w bytes at s(A) + OFFSET, zero-extended; the address is aligned to w (R607). -/
def execLd (t : Fin 512) (h : Head) (f : FmtIM) (s : State) : Host.Outcome State Fault Refusal :=
  onDev s (fun d => d.issue t h {} (fun d =>
    let n := 2 ^ modIM f 14 2
    d.tileLoad t true (addrIM f (d.tile t)) n n (fun d bs =>
      doneTile d t (fun x => x.setS f.d.toNat (BitVec.ofNat 64 (leNat bs))))))

/-- ST.w: the low w bytes of s(D) go to s(A) + OFFSET; the address is aligned to w (R607). -/
def execSt (t : Fin 512) (h : Head) (f : FmtIM) (s : State) : Host.Outcome State Fault Refusal :=
  onDev s (fun d => d.issue t h {} (fun d =>
    let n := 2 ^ modIM f 14 2
    d.tileStore t true (addrIM f (d.tile t)) n (leBytes n ((d.tile t).sr f.d.toNat).toNat) (fun d => .done d)))

/-- BR: the PC becomes PC + imm. -/
def execBr (t : Fin 512) (h : Head) (f : FmtI) (s : State) : Host.Outcome State Fault Refusal :=
  onDev s (fun d => d.issue t h {} (fun d => .jump d ((d.tile t).pc + f.imm.toInt)))

/-- CALL: pushes PC + 1 and jumps to PC + imm; a ninth nested CALL is illegal (R132).  The loops of the caller are
kept (R133). -/
def execCall (t : Fin 512) (h : Head) (f : FmtI) (s : State) : Host.Outcome State Fault Refusal :=
  onDev s (fun d => d.issue t h {} (fun d =>
    let x := d.tile t
    if 8 ≤ x.calls.length then .trap .illegalInstruction 0
    else .jump (d.setTile t { x with calls := (x.pc + 1) :: x.calls }) (x.pc + f.imm.toInt)))

/-- RET: pops the return address and discards every loop opened at the depth it leaves (R132, R133); the loop ends at
the return address are then tested as after any instruction. -/
def execRet (t : Fin 512) (h : Head) (_f : FmtR) (s : State) : Host.Outcome State Fault Refusal :=
  onDev s (fun d => d.issue t h {} (fun d =>
    let x := d.tile t
    match x.calls with
    | [] => .trap .illegalInstruction 0
    | r :: rest =>
      .seq (d.setTile t { x with calls := rest, loops := x.loops.filter (fun l => decide (l.depth < x.calls.length)) }) r))

/-- LOOP: runs the following imm instructions s(A) times; a count of 0 skips them; the fifth active loop and a body
length outside 1 to 8,191 are illegal operands (R125, R131). -/
def execLoop (t : Fin 512) (h : Head) (f : FmtI) (s : State) : Host.Outcome State Fault Refusal :=
  onDev s (fun d => d.issue t h {} (fun d =>
    let x := d.tile t
    let len := f.imm.toNat
    if len = 0 ∨ 8191 < len ∨ 4 ≤ x.loops.length then .trap .illegalOperand 0
    else if x.sr f.a.toNat = 0 then .seq d (x.pc + 1 + len)
    else .done (d.setTile t { x with
      loops := ⟨x.pc + 1, x.pc + 1 + len, (x.sr f.a.toNat).toNat, x.calls.length⟩ :: x.loops })))

end Sys2Proof.Machine
end

