-- ==== Sys2Proof/Machine/TileVector.lean ====
section
/-! DEFINITION. The vector instructions of a tile (R110 to R113, R120, R125, R607). -/
namespace Sys2Proof.Machine
open Sys2Proof

/-- The flags of the lanes whose mask bit is 1 (R120). -/
def laneFlags (m : W32) (g : Nat → W32) : W32 :=
  (List.range 32).foldl (fun acc i => if m.getLsbD i then acc ||| g i else acc) 0

/-- A lane-by-lane operation: v(D) lanes under the mask, their flags raised (R120). -/
def vectorOp (t : Fin 512) (h : Head) (f : FmtR) (g : W32 → W32 → W32 → Flagged W32) (s : State) :
    Host.Outcome State Fault Refusal :=
  onDev s (fun d => d.issue t h { vector := true } (fun d =>
    doneTile d t (fun x =>
      let r (i : Nat) := g (lane (x.vr f.a.toNat) i) (lane (x.vr f.b.toNat) i) (lane (x.vr f.c.toNat) i)
      let m := x.mask h
      (x.setV f.d.toNat (mergeLanes m (x.vr f.d.toNat) (listOf 32 (fun i => (r i).val)))).raise
        (laneFlags m (fun i => (r i).fl)))))

/-- VADD. -/
def execVadd (t : Fin 512) (h : Head) (f : FmtR) (s : State) := vectorOp t h f (fun a b _ => fAdd a b) s
/-- VSUB. -/
def execVsub (t : Fin 512) (h : Head) (f : FmtR) (s : State) := vectorOp t h f (fun a b _ => fSub a b) s
/-- VMUL. -/
def execVmul (t : Fin 512) (h : Head) (f : FmtR) (s : State) := vectorOp t h f (fun a b _ => fMul a b) s
/-- VFMA: va × vb + vc with one rounding. -/
def execVfma (t : Fin 512) (h : Head) (f : FmtR) (s : State) := vectorOp t h f (fun a b c => fFma a b c) s
/-- VDIV. -/
def execVdiv (t : Fin 512) (h : Head) (f : FmtR) (s : State) := vectorOp t h f (fun a b _ => fDiv a b) s
/-- VRCP. -/
def execVrcp (t : Fin 512) (h : Head) (f : FmtR) (s : State) := vectorOp t h f (fun a _ _ => fRcp a) s
/-- VSQRT. -/
def execVsqrt (t : Fin 512) (h : Head) (f : FmtR) (s : State) := vectorOp t h f (fun a _ _ => fSqrt a) s
/-- VRSQ. -/
def execVrsq (t : Fin 512) (h : Head) (f : FmtR) (s : State) := vectorOp t h f (fun a _ _ => fRsqrt a) s
/-- VEXP2. -/
def execVexp2 (t : Fin 512) (h : Head) (f : FmtR) (s : State) := vectorOp t h f (fun a _ _ => fExp2 a) s
/-- VEXP. -/
def execVexp (t : Fin 512) (h : Head) (f : FmtR) (s : State) := vectorOp t h f (fun a _ _ => fExp a) s
/-- VLOG2. -/
def execVlog2 (t : Fin 512) (h : Head) (f : FmtR) (s : State) := vectorOp t h f (fun a _ _ => fLog2 a) s
/-- VLOG. -/
def execVlog (t : Fin 512) (h : Head) (f : FmtR) (s : State) := vectorOp t h f (fun a _ _ => fLog a) s
/-- VTANH. -/
def execVtanh (t : Fin 512) (h : Head) (f : FmtR) (s : State) := vectorOp t h f (fun a _ _ => fTanh a) s
/-- VSIG. -/
def execVsig (t : Fin 512) (h : Head) (f : FmtR) (s : State) := vectorOp t h f (fun a _ _ => fSig a) s
/-- VSILU. -/
def execVsilu (t : Fin 512) (h : Head) (f : FmtR) (s : State) := vectorOp t h f (fun a _ _ => fSilu a) s
/-- VMIN. -/
def execVmin (t : Fin 512) (h : Head) (f : FmtR) (s : State) := vectorOp t h f (fun a b _ => fMinMax false a b) s
/-- VMAX. -/
def execVmax (t : Fin 512) (h : Head) (f : FmtR) (s : State) := vectorOp t h f (fun a b _ => fMinMax true a b) s
/-- VABS clears bit 31 and raises no flag. -/
def execVabs (t : Fin 512) (h : Head) (f : FmtR) (s : State) := vectorOp t h f (fun a _ _ => ⟨fAbs a, 0⟩) s
/-- VNEG flips bit 31 and raises no flag. -/
def execVneg (t : Fin 512) (h : Head) (f : FmtR) (s : State) := vectorOp t h f (fun a _ _ => ⟨fNeg a, 0⟩) s

/-- VCMP.cc: each lane's bit of p(D) under the mask; MOD[3] selects a signed integer comparison (R607). -/
def execVcmp (t : Fin 512) (h : Head) (f : FmtR) (s : State) : Host.Outcome State Fault Refusal :=
  onDev s (fun d => d.issue t h { vector := true } (fun d =>
    match condOf (modR f 0 3) with
    | none => .trap .illegalOperand 0
    | some c =>
      if inFile8 f.d then
        doneTile d t (fun x =>
          let m := x.mask h
          let r (i : Nat) : Flagged Bool :=
            let a := lane (x.vr f.a.toNat) i
            let b := lane (x.vr f.b.toNat) i
            if modR f 3 1 = 1 then ⟨iCmp c a b, 0⟩ else fCmp c a b
          let bits := BitVec.ofNat 32 (maskOf ((List.range 32).filter (fun i => (r i).val)))
          (x.setP f.d.toNat ((x.pr f.d.toNat &&& ~~~m) ||| (bits &&& m))).raise (laneFlags m (fun i => (r i).fl)))
      else .trap .illegalOperand 0))

/-- VSEL: lanes of va where its predicate is set, else of vb (R125). -/
def execVsel (t : Fin 512) (h : Head) (f : FmtR) (s : State) : Host.Outcome State Fault Refusal :=
  onDev s (fun d => d.issue t h { vector := true } (fun d =>
    doneTile d t (fun x => x.setV f.d.toNat (mergeLanes (x.mask h) (x.vr f.b.toNat) (x.vr f.a.toNat)))))

/-- VCVT: FP32 to INT32, or with MOD[25] INT32 to FP32, rounding by MOD[27:26] (R607). -/
def execVcvt (t : Fin 512) (h : Head) (f : FmtR) (s : State) : Host.Outcome State Fault Refusal :=
  onDev s (fun d => d.issue t h { vector := true } (fun d =>
    match rmodeOf (modR f 26 2) with
    | none => .trap .illegalOperand 0
    | some rm =>
      doneTile d t (fun x =>
        let m := x.mask h
        let r (i : Nat) : Flagged Nat :=
          let a := lane (x.vr f.a.toNat) i
          let w := srWord x.seed x.ctr i
          if modR f 25 1 = 1 then encodeFloat fmtFP32 rm false w (.fin (decide (a.toInt < 0)) a.toInt.natAbs 0)
          else encodeInt 32 rm w (decode32 a)
        let y := (x.setV f.d.toNat (mergeLanes m (x.vr f.d.toNat) (listOf 32 (fun i => BitVec.ofNat 32 (r i).val)))).raise
          (laneFlags m (fun i => (r i).fl))
        if rm = .sr then y.bumpCtr else y)))

/-- VIOP.op: an integer operation on each lane, its code in MOD[3:0] (R607). -/
def execViop (t : Fin 512) (h : Head) (f : FmtR) (s : State) : Host.Outcome State Fault Refusal :=
  onDev s (fun d => d.issue t h { vector := true } (fun d =>
    match viopOf (modR f 0 4) with
    | none => .trap .illegalOperand 0
    | some o =>
      doneTile d t (fun x => x.setV f.d.toNat (mergeLanes (x.mask h) (x.vr f.d.toNat)
        (listOf 32 (fun i => intOp o (lane (x.vr f.a.toNat) i) (lane (x.vr f.b.toNat) i)))))))

/-- One level of the reduction tree: adjacent results combined (R111). -/
def reduceLevel (g : W32 → W32 → Flagged W32) : List W32 → Flagged (List W32)
  | a :: b :: r =>
    let x := g a b
    let y := reduceLevel g r
    ⟨x.val :: y.val, x.fl ||| y.fl⟩
  | l => ⟨l, 0⟩

/-- `n` levels of the reduction tree. -/
def reduceTree (g : W32 → W32 → Flagged W32) : Nat → List W32 → Flagged W32
  | 0, l => ⟨l.getD 0 0, 0⟩
  | n + 1, l =>
    let x := reduceLevel g l
    let y := reduceTree g n x.val
    ⟨y.val, x.fl ||| y.fl⟩

/-- VRED.op: the fixed tree over the 32 lanes of va; s(D)[31:0] = the result, s(D)[63:32] = 0 (R111, R607).  It acts on
all lanes, and not at all under an empty mask (log entry 28). -/
def execVred (t : Fin 512) (h : Head) (f : FmtR) (s : State) : Host.Outcome State Fault Refusal :=
  onDev s (fun d => d.issue t h { vector := true } (fun d =>
    let op := modR f 0 2
    if op = 3 then .trap .illegalOperand 0
    else
      doneTile d t (fun x =>
        if x.mask h = 0 then x
        else
          let g : W32 → W32 → Flagged W32 := if op = 0 then fAdd else if op = 1 then fMinMax false else fMinMax true
          let r := reduceTree g 5 (listOf 32 (fun i => lane (x.vr f.a.toNat) i))
          (x.setS f.d.toNat (r.val.setWidth 64)).raise r.fl)))

/-- The element format of an MX operand code (R124). -/
def mxFmt : Nat → Option Fmt
  | 4 => some fmtE4M3
  | 5 => some fmtE5M2
  | 6 => some fmtE3M2
  | 7 => some fmtE2M3
  | 8 => some fmtE2M1
  | _ => none

/-- emax of an MX element format (R112). -/
def mxEmax : Nat → Int
  | 4 => 8
  | 5 => 15
  | 6 => 4
  | 7 => 2
  | _ => 2

/-- An MX block: its scale, its element encodings and the flags of forming it. -/
structure MxBlock where
  scale : Nat
  elems : List Nat
  fl : W32
  deriving DecidableEq, Repr

/-- The top exponent floor(log2 |x|) of a finite non-zero value; zero has none. -/
def topExp : FVal → Option Int
  | .fin _ m e => if m = 0 then none else some ((bitLen m : Int) - 1 + e)
  | _ => none

/-- The larger of two optional exponents. -/
def maxExp : Option Int → Option Int → Option Int
  | none, b => b
  | a, none => a
  | some a, some b => some (if a < b then b else a)

/-- A value times 2^k. -/
def scaleVal (k : Int) : FVal → FVal
  | .fin s m e => .fin s m (e + k)
  | v => v

/-- Block quantisation of 32 lanes (R112).  An element's infinity of its format's encoding never arises: every result
is clamped to the largest finite magnitude. -/
def quantise (code : Nat) (f : Fmt) (rm : RMode) (seed : W64) (ctr : W32) (v : List W32) : MxBlock :=
  let vals := listOf 32 (fun i => decode32 (lane v i))
  if vals.any (fun x => match x with | .fin _ _ _ => false | _ => true) then
    ⟨0xFF, List.replicate 32 0, flINV ||| (if vals.contains .nan then flNANIN else 0)⟩
  else
    match (vals.map topExp).foldl maxExp none with
    | none => ⟨0, List.replicate 32 0, 0⟩
    | some top =>
      let x0 := top - mxEmax code
      let x : Int := if x0 < -127 then -127 else if 127 < x0 then 127 else x0
      let es := listOf 32 (fun i => encodeFloat f rm true (srWord seed ctr i) (scaleVal (-x) (vals.getD i .nan)))
      ⟨(x + 127).toNat, es.map (·.val), es.foldl (fun acc e => acc ||| e.fl) 0⟩

/-- VQMX: one MX block from v(D): elements at s(A), scale at s(B) (R112, R607).  It acts on all lanes, and not at all
under an empty mask (log entry 28). -/
def execVqmx (t : Fin 512) (h : Head) (f : FmtR) (s : State) : Host.Outcome State Fault Refusal :=
  onDev s (fun d => d.issue t h { vector := true } (fun d =>
    match mxFmt (modR f 24 4), rmodeOf (modR f 22 2) with
    | some fm, some rm =>
      let x := d.tile t
      if x.mask h = 0 then .done d
      else
        let q := quantise (modR f 24 4) fm rm x.seed x.ctr (x.vr f.d.toNat)
        let ea := (x.sr f.a.toNat).toNat
        let sa := (x.sr f.b.toNat).toNat
        let bs := packElems fm.width q.elems
        -- both addresses are checked before anything is written
        match d.resolve t true false true ea bs.length, d.resolve t true false true sa 1 with
        | .ok p, .ok r =>
          doneTile ((d.memWrite p bs).memWrite r [BitVec.ofNat 8 q.scale]) t (fun x =>
            let y := x.raise q.fl
            if rm = .sr then y.bumpCtr else y)
        | .ok _, .bad c => .trap c sa
        | .bad c, _ => .trap c ea
        | _, _ => .wait d .memory
    | _, _ => .trap .illegalOperand 0))

/-- One dequantised lane (R113). -/
def dequant (f : Fmt) (scale e : Nat) : Flagged W32 :=
  if scale = 0xFF then nanIn
  else
    match decodeFloat f e with
    | .nan => nanIn
    | .inf s => ⟨inf32 s, 0⟩
    | .fin s m k => finish32 s m (k + scale - 127)

/-- VDQMX: v(D) from the MX block with elements at s(A) and scale at s(B) (R113). -/
def execVdqmx (t : Fin 512) (h : Head) (f : FmtR) (s : State) : Host.Outcome State Fault Refusal :=
  onDev s (fun d => d.issue t h { vector := true } (fun d =>
    match mxFmt (modR f 24 4) with
    | none => .trap .illegalOperand 0
    | some fm =>
      let x := d.tile t
      d.tileLoad t false (x.sr f.a.toNat).toNat (4 * fm.width) 1 (fun d es =>
        d.tileLoad t false (x.sr f.b.toNat).toNat 1 1 (fun d sc =>
          doneTile d t (fun x =>
            let m := x.mask h
            let r (i : Nat) := dequant fm (leNat sc) (packedElem es fm.width i)
            (x.setV f.d.toNat (mergeLanes m (x.vr f.d.toNat) (listOf 32 (fun i => (r i).val)))).raise
              (laneFlags m (fun i => (r i).fl)))))))

/-- VBCST: s(A)[31:0] into every lane. -/
def execVbcst (t : Fin 512) (h : Head) (f : FmtR) (s : State) : Host.Outcome State Fault Refusal :=
  onDev s (fun d => d.issue t h { vector := true } (fun d =>
    doneTile d t (fun x => x.setV f.d.toNat (mergeLanes (x.mask h) (x.vr f.d.toNat)
      (List.replicate 32 ((x.sr f.a.toNat).setWidth 32))))))

/-- VLD: 128 bytes at s(A) + OFFSET, 128-B aligned. -/
def execVld (t : Fin 512) (h : Head) (f : FmtIM) (s : State) : Host.Outcome State Fault Refusal :=
  onDev s (fun d => d.issue t h { vector := true } (fun d =>
    d.tileLoad t false (addrIM f (d.tile t)) 128 128 (fun d bs =>
      doneTile d t (fun x => x.setV f.d.toNat (mergeLanes (x.mask h) (x.vr f.d.toNat) (words32 bs 32))))))

/-- VST: 128 bytes at s(A) + OFFSET, 128-B aligned; a lane whose mask bit is 0 keeps its old bytes. -/
def execVst (t : Fin 512) (h : Head) (f : FmtIM) (s : State) : Host.Outcome State Fault Refusal :=
  onDev s (fun d => d.issue t h { vector := true } (fun d =>
    let x := d.tile t
    let a := addrIM f x
    d.tileOld t (x.mask h) a 128 128 (fun old =>
      d.tileStore t false a 128 (bytes32 (mergeLanes (x.mask h) (words32 old 32) (x.vr f.d.toNat))) (fun d => .done d))))

/-- The formats of VLDN and VSTN (R124): the float format, or none for INT8 and INT4, and the width. -/
def narrowFmt : Nat → Option (Option Fmt × Nat)
  | 0 => some (some fmtBF16, 16)
  | 1 => some (some fmtFP16, 16)
  | 2 => some (some fmtE4M3, 8)
  | 3 => some (some fmtE5M2, 8)
  | 9 => some (none, 8)
  | 10 => some (none, 4)
  | _ => none

/-- The FP32 lane of a narrow element; an integer element becomes its FP32 value (log entry 29). -/
def widen (fm : Option Fmt) (w e : Nat) : W32 :=
  match fm with
  | some f =>
    match decodeFloat f e with
    | .nan => nan32
    | .inf s => inf32 s
    | .fin s m k => (finish32 s m k).val
  | none => (finish32 (decide (sext w e < 0)) (sext w e).natAbs 0).val

/-- VLDN: 32 packed narrow elements at s(A) + OFFSET, aligned to their size; a load raises no flag (R114). -/
def execVldn (t : Fin 512) (h : Head) (f : FmtIM) (s : State) : Host.Outcome State Fault Refusal :=
  onDev s (fun d => d.issue t h { vector := true } (fun d =>
    match narrowFmt (modIM f 24 4) with
    | none => .trap .illegalOperand 0
    | some (fm, w) =>
      d.tileLoad t false (addrIM f (d.tile t)) (4 * w) (4 * w) (fun d bs =>
        doneTile d t (fun x => x.setV f.d.toNat (mergeLanes (x.mask h) (x.vr f.d.toNat)
          (listOf 32 (fun i => widen fm w (packedElem bs w i))))))))

/-- A lane rounded to a narrow element (R98 to R101). -/
def narrow (fm : Option Fmt) (w : Nat) (rm : RMode) (sat : Bool) (r : Nat) (a : W32) : Flagged Nat :=
  match fm with
  | some f => encodeFloat f rm sat r (decode32 a)
  | none => encodeInt w rm r (decode32 a)

/-- VSTN: 32 lanes rounded to packed narrow elements at s(A) + OFFSET, aligned to their size; a lane whose mask bit is 0
keeps its old element. -/
def execVstn (t : Fin 512) (h : Head) (f : FmtIM) (s : State) : Host.Outcome State Fault Refusal :=
  onDev s (fun d => d.issue t h { vector := true } (fun d =>
    match narrowFmt (modIM f 24 4), rmodeOf (modIM f 22 2) with
    | some (fm, w), some rm =>
      let x := d.tile t
      let m := x.mask h
      let a := addrIM f x
      let sat := decide (modIM f 21 1 = 1)
      d.tileOld t m a (4 * w) (4 * w) (fun old =>
        let r (i : Nat) := narrow fm w rm sat (srWord x.seed x.ctr i) (lane (x.vr f.d.toNat) i)
        let es := listOf 32 (fun i => if m.getLsbD i then (r i).val else packedElem old w i)
        d.tileStore t false a (4 * w) (packElems w es) (fun d =>
          doneTile d t (fun x =>
            let y := x.raise (laneFlags m (fun i => (r i).fl))
            if rm = .sr then y.bumpCtr else y)))
    | _, _ => .trap .illegalOperand 0))

end Sys2Proof.Machine
end

