-- ==== Sys2Proof/Machine/TileMatrix.lean ====
section
/-! DEFINITION. The matrix and sparse-metadata instructions of a tile (R82 to R109, R125 to R130). -/
namespace Sys2Proof.Machine
open Sys2Proof

/-! ## Operand formats (R83, R124) -/

/-- The element format of an operand code: a float format or none for an integer, and its width. -/
def elemFmt : Nat → Option (Option Fmt × Nat)
  | 0 => some (some fmtBF16, 16)
  | 1 => some (some fmtFP16, 16)
  | 2 => some (some fmtE4M3, 8)
  | 3 => some (some fmtE5M2, 8)
  | 4 => some (some fmtE4M3, 8)
  | 5 => some (some fmtE5M2, 8)
  | 6 => some (some fmtE3M2, 6)
  | 7 => some (some fmtE2M3, 6)
  | 8 => some (some fmtE2M1, 4)
  | 9 => some (none, 8)
  | 10 => some (none, 4)
  | _ => none

/-- The code names an MX format. -/
def isMx (c : Nat) : Bool := decide (4 ≤ c) && decide (c ≤ 8)

/-- The summation modes (R83). -/
inductive SumMode where
  | group | chain | integer
  deriving DecidableEq, Repr

/-- The summation mode of a pair of formats; none for an integer with a float (R83, R84). -/
def sumMode (a b : Option Fmt × Nat) : Option SumMode :=
  match a.1, b.1 with
  | none, none => some .integer
  | some _, some _ => some (if a.2 = 16 ∨ b.2 = 16 then .chain else .group)
  | _, _ => none

/-- K is allowed in a mode (R85). -/
def kAllowed (m : SumMode) (mx : Bool) (k : Nat) : Bool :=
  let step := if m = .chain ∧ ¬ mx then 16 else 32
  decide (step ≤ k) && decide (k ≤ 16384) && decide (k % step = 0)

/-! ## The operands in scratchpad (R127, R128) -/

/-- A matrix operation's operands as read at issue; `byte` is the scratchpad. -/
structure MmaOp where
  byte : Nat → Nat
  aBase : Nat
  aPitch : Nat
  bBase : Nat
  bPitch : Nat
  mdata : Nat
  sa : Nat
  sb : Nat
  aFmt : Nat
  bFmt : Nat
  k : Nat
  zskip : Bool
  sp24 : Bool
  bsparse : Bool

/-- `n` little-endian bytes of the scratchpad. -/
def leAt (byte : Nat → Nat) : Nat → Nat → Nat
  | _, 0 => 0
  | a, n + 1 => byte a + 256 * leAt byte (a + 1) n

/-- Element `i` of elements of `eb` bits packed at `base` (R89). -/
def elemAt (byte : Nat → Nat) (base eb i : Nat) : Nat :=
  fld (leAt byte (base + i * eb / 8) ((i * eb % 8 + eb + 7) / 8)) (i * eb % 8) eb

/-- The width of A's elements. -/
def MmaOp.ea (o : MmaOp) : Nat := ((elemFmt o.aFmt).map (·.2)).getD 8
/-- The width of B's elements. -/
def MmaOp.eb (o : MmaOp) : Nat := ((elemFmt o.bFmt).map (·.2)).getD 8

/-- a[i][k]. -/
def MmaOp.aElem (o : MmaOp) (i k : Nat) : Nat := elemAt o.byte (o.aBase + i * o.aPitch) o.ea k

/-- k-block `kb` of B is stored (R107). -/
def MmaOp.stored (o : MmaOp) (kb : Nat) : Bool := !o.bsparse || (o.byte (o.mdata + kb / 8)).testBit (kb % 8)

/-- Stored blocks below k-block `kb`. -/
def MmaOp.storedBelow (o : MmaOp) (kb : Nat) : Nat := ((List.range kb).filter o.stored).length

/-- Bytes of the values of a 16 × 16 block, and of a whole stored block. -/
def MmaOp.blockVals (o : MmaOp) : Nat := if o.sp24 then 16 * o.eb else 32 * o.eb
/-- Bytes of a stored block with its metadata. -/
def MmaOp.blockLen (o : MmaOp) : Nat := o.blockVals + (if o.sp24 then 32 else 0)

/-- The first byte of stored block `kb`. -/
def MmaOp.blockAt (o : MmaOp) (kb : Nat) : Nat := o.bBase + o.storedBelow kb * o.blockLen

/-- The metadata of k-block `kb` (R105, R107). -/
def MmaOp.metaAt (o : MmaOp) (kb : Nat) : Nat := if o.bsparse then o.blockAt kb + o.blockVals else o.mdata + 32 * kb

/-- The metadata nibble of column `j`, group `q` of k-block `kb` (R105). -/
def MmaOp.nibble (o : MmaOp) (kb j q : Nat) : Nat := fld (o.byte (o.metaAt kb + (4 * j + q) / 2)) (4 * ((4 * j + q) % 2)) 4

/-- b[k][j], none where the sparse form does not compute the product (R105, R107, R109). -/
def MmaOp.bElem (o : MmaOp) (k j : Nat) : Option Nat :=
  let kb := k / 16
  if !o.stored kb then none
  else
    let col := if o.bsparse then o.blockAt kb + j * (o.blockVals / 16) else o.bBase + j * o.bPitch
    if o.sp24 then
      let n := o.nibble kb j (k % 16 / 4)
      let g := if o.bsparse then k % 16 / 4 else k / 4
      if k % 4 = n % 4 then some (elemAt o.byte col o.eb (2 * g))
      else if k % 4 = n / 4 then some (elemAt o.byte col o.eb (2 * g + 1))
      else none
    else some (elemAt o.byte col o.eb (if o.bsparse then k % 16 else k))

/-- The scale of row i, group g of A; 127 for an operand that is not MX (R88, R90). -/
def MmaOp.scaleA (o : MmaOp) (i g : Nat) : Nat := if isMx o.aFmt then o.byte (o.sa + i * (o.k / 32) + g) else 127
/-- The scale of column j, group g of B. -/
def MmaOp.scaleB (o : MmaOp) (j g : Nat) : Nat := if isMx o.bFmt then o.byte (o.sb + j * (o.k / 32) + g) else 127

/-- An element's encoding is ±0. -/
def isZeroElem (f : Option Fmt × Nat) (e : Nat) : Bool :=
  match f.1 with
  | some _ => decide (e % 2 ^ (f.2 - 1) = 0)
  | none => decide (e = 0)

/-- The run of 16 k-steps `kb` is skipped (R108). -/
def MmaOp.skipped (o : MmaOp) (kb : Nat) : Bool :=
  o.zskip && (List.range 16).all (fun i =>
    decide (o.scaleA i (kb / 2) ≠ 0xFF) &&
    (List.range 16).all (fun x => isZeroElem ((elemFmt o.aFmt).getD (none, 8)) (o.aElem i (16 * kb + x))))

/-- The computed products of cell (i, j) for k from `k0`, `n` of them: pairs of encodings (R109). -/
def MmaOp.products (o : MmaOp) (i j k0 n : Nat) : List (Nat × Nat) :=
  (List.range n).filterMap (fun x =>
    let k := k0 + x
    if o.skipped (k / 16) then none else (o.bElem k j).map (fun b => (o.aElem i k, b)))

/-! ## Summation (R91 to R95) -/

/-- What a group or chain step of products comes to (R94). -/
inductive SumVal where
  | nan
  | inf (neg : Bool)
  | fin (d : Dyadic)
  deriving DecidableEq, Repr

/-- Add two sums; infinities of both signs yield NaN with INV. -/
def SumVal.add : Flagged SumVal → Flagged SumVal → Flagged SumVal
  | ⟨.nan, f⟩, ⟨_, g⟩ => ⟨.nan, f ||| g⟩
  | ⟨_, f⟩, ⟨.nan, g⟩ => ⟨.nan, f ||| g⟩
  | ⟨.inf s, f⟩, ⟨.inf t, g⟩ => if s = t then ⟨.inf s, f ||| g⟩ else ⟨.nan, f ||| g ||| flINV⟩
  | ⟨.inf s, f⟩, ⟨.fin _, g⟩ => ⟨.inf s, f ||| g⟩
  | ⟨.fin _, f⟩, ⟨.inf t, g⟩ => ⟨.inf t, f ||| g⟩
  | ⟨.fin a, f⟩, ⟨.fin b, g⟩ => ⟨.fin (a.add b), f ||| g⟩

/-- One exact product. -/
def product (fa fb : Fmt) (a b : Nat) : Flagged SumVal :=
  match decodeFloat fa a, decodeFloat fb b with
  | .nan, _ => ⟨.nan, flNANIN⟩
  | _, .nan => ⟨.nan, flNANIN⟩
  | .inf s, .inf t => ⟨.inf (s != t), 0⟩
  | .inf s, .fin t n _ => if n = 0 then ⟨.nan, flINV⟩ else ⟨.inf (s != t), 0⟩
  | .fin s m _, .inf t => if m = 0 then ⟨.nan, flINV⟩ else ⟨.inf (s != t), 0⟩
  | .fin s m e, .fin t n f => ⟨.fin (dyOf (s != t) (m * n) (e + f)), 0⟩

/-- The exact sum of computed products under scales `sa` and `sb` (R91, R92, R94).  A NaN product, and infinities of both signs
where no product is NaN, make the sum NaN; a NaN scale does so after that. -/
def sumProducts (fa fb : Fmt) (sa sb : Nat) (ps : List (Nat × Nat)) : Flagged SumVal :=
  let qs := ps.map (fun p => product fa fb p.1 p.2)
  let r : Flagged SumVal :=
    if qs.any (fun q => decide (q.val = .nan)) then ⟨.nan, qs.foldl (fun acc q => acc ||| q.fl) 0⟩
    else qs.foldl SumVal.add ⟨.fin ⟨0, 0⟩, 0⟩
  if sa = 0xFF ∨ sb = 0xFF then ⟨.nan, r.fl ||| flNANIN⟩
  else
    match r.val with
    | .fin x => ⟨.fin ⟨x.m, x.e + sa + sb - 254⟩, r.fl⟩
    | _ => r

/-- No cell holds −0 after a matrix operation (R95). -/
def noNegZero (a : W32) : W32 := if a = 0x80000000 then 0 else a

/-- Add a sum to an accumulator cell with one rounding (R91, R94). -/
def accumulate (acc : W32) (v : SumVal) : Flagged W32 :=
  match decode32 acc, v with
  | .nan, _ => ⟨nan32, 0⟩
  | _, .nan => ⟨nan32, 0⟩
  | .inf s, .inf t => if s = t then ⟨inf32 s, 0⟩ else nanInv
  | .inf s, .fin _ => ⟨inf32 s, 0⟩
  | .fin _ _ _, .inf t => ⟨inf32 t, 0⟩
  | .fin s m e, .fin x =>
    let r := finishDy false ((dyOf s m e).add x)
    ⟨noNegZero r.val, r.fl⟩

/-- Run a cell over groups (group mode) or steps (chain mode) of `len` products from group `g`, `n` of them. -/
def MmaOp.floatCell (o : MmaOp) (fa fb : Fmt) (i j len : Nat) : Nat → Nat → Flagged W32 → Flagged W32
  | _, 0, acc => acc
  | g, n + 1, acc =>
    let ps := o.products i j (g * len) len
    if ps = [] then o.floatCell fa fb i j len (g + 1) n acc
    else
      let k32 := g * len / 32
      let s := sumProducts fa fb (o.scaleA i k32) (o.scaleB j k32) ps
      let r := accumulate acc.val s.val
      o.floatCell fa fb i j len (g + 1) n ⟨r.val, acc.fl ||| s.fl ||| r.fl⟩

/-- Clamp an exact sum to INT32, with ISAT (R93). -/
def clamp32 (x : Int) : Flagged W32 :=
  if x > 2147483647 then ⟨0x7FFFFFFF, flISAT⟩
  else if x < -2147483648 then ⟨0x80000000, flISAT⟩
  else ⟨BitVec.ofInt 32 x, 0⟩

/-- Run a cell in integer mode over groups of 32 (R93). -/
def MmaOp.intCell (o : MmaOp) (i j : Nat) : Nat → Nat → Flagged W32 → Flagged W32
  | _, 0, acc => acc
  | g, n + 1, acc =>
    let s := (o.products i j (32 * g) 32).foldl (fun x p => x + sext o.ea p.1 * sext o.eb p.2) (0 : Int)
    let r := clamp32 (acc.val.toInt + s)
    o.intCell i j (g + 1) n ⟨r.val, acc.fl ||| r.fl⟩

/-- One cell of a matrix operation. -/
def MmaOp.cell (o : MmaOp) (m : SumMode) (i j : Nat) (start : W32) : Flagged W32 :=
  match (elemFmt o.aFmt).bind (·.1), (elemFmt o.bFmt).bind (·.1) with
  | some fa, some fb =>
    let r := match m with
      | .chain => o.floatCell fa fb i j 1 0 o.k ⟨start, 0⟩
      | _ => o.floatCell fa fb i j 32 0 (o.k / 32) ⟨start, 0⟩
    ⟨noNegZero r.val, r.fl⟩
  | _, _ => o.intCell i j 0 (o.k / 32) ⟨start, 0⟩

/-- All 256 cells. -/
def MmaOp.run (o : MmaOp) (m : SumMode) (old : List W32) : Flagged (List W32) :=
  let cs := listOf 256 (fun n => o.cell m (n / 16) (n % 16) (lane old n))
  ⟨cs.map (·.val), cs.foldl (fun acc c => acc ||| c.fl) 0⟩

/-- Every metadata nibble that the operation uses names two positions in rising order (R106). -/
def MmaOp.metaOk (o : MmaOp) : Bool :=
  !o.sp24 || (List.range (o.k / 16)).all (fun kb => !o.stored kb ||
    (List.range 64).all (fun n => decide (o.nibble kb (n / 4) (n % 4) % 4 < o.nibble kb (n / 4) (n % 4) / 4)))

/-- Bytes of `n` elements of `eb` bits. -/
def elemBytes (eb n : Nat) : Nat := (eb * n + 7) / 8

/-- The alignment rules of R129. -/
def MmaOp.aligned (o : MmaOp) : Bool :=
  decide (o.aBase % 16 = 0) && decide (o.bBase % 16 = 0) &&
  decide (o.aPitch % 16 = 0) && decide (elemBytes o.ea o.k ≤ o.aPitch) &&
  (o.bsparse || (decide (o.bPitch % 16 = 0) && decide (elemBytes o.eb (if o.sp24 then o.k / 2 else o.k) ≤ o.bPitch))) &&
  (!(o.sp24 && !o.bsparse) || decide (o.mdata % 16 = 0)) &&
  (!o.bsparse || decide (o.mdata % 8 = 0))

/-- A scale array is read for the groups of `need`, for each of 16 rows or columns (R90). -/
def MmaOp.scaleRanges (o : MmaOp) (base : Nat) (need : Nat → Bool) : List (Nat × Nat) :=
  let gs := List.range (o.k / 32)
  if gs.all need then [(base, 16 * (o.k / 32))]
  else (List.range 16).flatMap (fun i => (gs.filter need).map (fun g => (base + i * (o.k / 32) + g, 1)))

/-- The ranges of scratchpad that the operation reads (R128).  Scales are read where a product is computed under them (R107,
R109), and those of A where a run is skipped too, since R108 looks at them. -/
def MmaOp.ranges (o : MmaOp) : List (Nat × Nat) :=
  (List.range 16).map (fun i => (o.aBase + i * o.aPitch, elemBytes o.ea o.k)) ++
  (if o.bsparse then (List.range (o.k / 16)).filterMap (fun kb => if o.stored kb then some (o.blockAt kb, o.blockLen) else none)
   else (List.range 16).map (fun j => (o.bBase + j * o.bPitch, elemBytes o.eb (if o.sp24 then o.k / 2 else o.k)))) ++
  (if o.bsparse then [(o.mdata, (o.k / 16 + 63) / 64 * 8)] else if o.sp24 then [(o.mdata, o.k / 16 * 32)] else []) ++
  (if isMx o.aFmt then o.scaleRanges o.sa (fun g => o.stored (2 * g) || o.stored (2 * g + 1)) else []) ++
  (if isMx o.bFmt then o.scaleRanges o.sb (fun g =>
      (o.stored (2 * g) && !o.skipped (2 * g)) || (o.stored (2 * g + 1) && !o.skipped (2 * g + 1))) else [])

/-- The first exception that a list of own-scratchpad ranges raises, with its address. -/
def Dev.scratchBad (d : Dev) (t : Nat) (write : Bool) : List (Nat × Nat) → Option (Cause × Nat)
  | [] => none
  | (a, n) :: r =>
    match d.resolve t true false write a n with
    | .ok _ => d.scratchBad t write r
    | .bad c => some (c, a)
    | .busy => d.scratchBad t write r

/-- The byte of a tile's scratchpad at an offset, undefined while a DMA transfer may be writing it (R145). -/
def Dev.scratchByte (d : Dev) (t a : Nat) : Nat :=
  let p := scratchBase t + fld a 0 21
  if d.racing p 1 then (Config.freeValue 8 (d.fresh * 4194304 + fld a 0 21)).toNat else (d.memByte p).toNat

/-- The operands of an MMA, read from the scalar registers at issue (R127). -/
def Dev.mmaOp (d : Dev) (t : Nat) (f : FmtM) : MmaOp :=
  let x := d.tile t
  let r (b : BitVec 5) (k : Nat) : Nat := (x.sr (b.toNat + k)).toNat
  { byte := d.scratchByte t, aBase := r f.a 0, aPitch := r f.a 1, bBase := r f.b 0, bPitch := r f.b 1, mdata := r f.b 2,
    sa := r f.sa 0, sb := r f.sb 0, aFmt := f.afmt.toNat, bFmt := f.bfmt.toNat, k := 16 * f.kdiv16.toNat,
    zskip := f.zskip, sp24 := f.sp24, bsparse := f.bsparse }

/-- Every scalar register an MMA names exists (log entry 27). -/
def mmaRegs (f : FmtM) : Bool :=
  decide (f.a.toNat + 1 < 32) && decide (f.b.toNat + (if f.sp24 || f.bsparse then 2 else 1) < 32)

/-- MMA: starts a matrix operation on the array that holds acc(ACC).  Its cells and flags are fixed by the operands at
issue (R118) and arrive at ACCUMULATOR_READY; until then an instruction naming the tile waits (R126). -/
def execMma (t : Fin 512) (h : Head) (f : FmtM) (s : State) : Host.Outcome State Fault Refusal :=
  onDev s (fun d => d.issue t h { legal := decide (f.rsvd = 0) } (fun d =>
    let x := d.tile t
    let n := f.acc.toNat
    if (x.pend.find n).isSome then .wait d (.acc n)
    else
      match elemFmt f.afmt.toNat, elemFmt f.bfmt.toNat with
      | some fa, some fb =>
        match sumMode fa fb with
        | none => .trap .illegalOperand 0
        | some m =>
          let o := d.mmaOp t f
          if !kAllowed m (isMx o.aFmt || isMx o.bFmt) o.k || !mmaRegs f || !o.aligned then .trap .illegalOperand 0
          else
            match d.scratchBad t false o.ranges with
            | some (c, a) => .trap c a
            | none =>
              if !o.metaOk then .trap .sparseMetadata 0
              else
                let r := o.run m (if f.clr then zeroCells else x.ar n)
                doneTile d t (fun x => { x with pend := x.pend.set n ⟨r.val, r.fl, decide (m = .integer)⟩ })
      | _, _ => .trap .illegalOperand 0))

/-- ACCUMULATOR_READY: the last k-step of an MMA plus 8 cycles has passed; its cells and flags are there (R86). -/
def execAccumulatorReady (t : Fin 512) (acc : Fin 8) (s : State) : Host.Outcome State Fault Refusal :=
  onDev s (fun d =>
    match (d.tile t).pend.find acc with
    | none => d
    | some r => d.updTile t (fun x =>
        { (x.setA acc r.cells).raise r.fl with pend := x.pend.del acc, accInt := x.accInt.set acc r.isInt }))

/-- An instruction that names an accumulator tile: D[2:0], which must be in the file, and free (R126). -/
def withAcc (d : Dev) (t : Nat) (f : FmtR) (k : Nat → TRes) : TRes :=
  if !inFile8 f.d then .trap .illegalOperand 0
  else if ((d.tile t).pend.find f.d.toNat).isSome then .wait d (.acc f.d.toNat)
  else k f.d.toNat

/-- The formats of MWR (R97, R124): the float format, none for raw 32-bit cells, and the cell width in bits. -/
def mwrFmt : Nat → Option (Option Fmt × Nat)
  | 0 => some (some fmtBF16, 16)
  | 1 => some (some fmtFP16, 16)
  | 2 => some (some fmtE4M3, 8)
  | 3 => some (some fmtE5M2, 8)
  | 11 => some (some fmtFP32, 32)
  | 12 => some (none, 32)
  | _ => none

/-- One cell written out (R97 to R100): FP32 to FP32 keeps the value, an infinity included, since R99 names no FP32 target;
an INT32 cell to FP32 rounds to nearest even, and INT32 keeps the bits (log entry 24). -/
def writeOutCell (fm : Option Fmt) (isInt : Bool) (rm : RMode) (sat : Bool) (r : Nat) (c : W32) : Flagged Nat :=
  match fm with
  | none => ⟨c.toNat, 0⟩
  | some f =>
    if isInt && decide (f = fmtFP32) then
      encodeFloat f .rne false 0 (.fin (decide (c.toInt < 0)) c.toInt.natAbs 0)
    else encodeFloat f rm (sat && !decide (f = fmtFP32)) r (decode32 c)

/-- Store the 16 rows of a write-out. -/
def Dev.storeRows (d : Dev) (base pitch : Nat) : Nat → List (List Byte) → Dev
  | _, [] => d
  | i, r :: rest => (d.memWrite (base + i * pitch) r).storeRows base pitch (i + 1) rest

/-- MWR: row i of acc(D), converted, to s(A) + i × s(A+1) (R97, R130). -/
def execMwr (t : Fin 512) (h : Head) (f : FmtR) (s : State) : Host.Outcome State Fault Refusal :=
  onDev s (fun d => d.issue t h {} (fun d => withAcc d t f (fun n =>
    match mwrFmt (modR f 24 4), rmodeOf (modR f 22 2) with
    | some (fm, w), some rm =>
      let x := d.tile t
      let base := (x.sr f.a.toNat).toNat
      let pitch := (x.sr (f.a.toNat + 1)).toNat
      let row := 2 * w
      if 32 ≤ f.a.toNat + 1 ∨ base % row ≠ 0 ∨ pitch % row ≠ 0 then .trap .illegalOperand base
      else
        let sat := decide (modR f 21 1 = 1)
        let cs := listOf 256 (fun i => writeOutCell fm (x.accInt.get false n) rm sat (srWord x.seed x.ctr i) (lane (x.ar n) i))
        match d.scratchBad t true ((List.range 16).map (fun i => (base + i * pitch, row))) with
        | some (c, a) => .trap c a
        | none =>
          let rows := listOf 16 (fun i => packElems w (((cs.drop (16 * i)).take 16).map (·.val)))
          doneTile (d.storeRows (scratchBase t + fld base 0 21) pitch 0 rows) t (fun x =>
            let y := x.raise (cs.foldl (fun acc c => acc ||| c.fl) 0)
            if rm = .sr then y.bumpCtr else y)
    | _, _ => .trap .illegalOperand 0)))

/-- MLD: acc(D) = 256 raw cells at s(A), row pitch 64 B; no alignment is asked (log entry 30). -/
def execMld (t : Fin 512) (h : Head) (f : FmtR) (s : State) : Host.Outcome State Fault Refusal :=
  onDev s (fun d => d.issue t h {} (fun d => withAcc d t f (fun n =>
    d.tileLoad t false ((d.tile t).sr f.a.toNat).toNat 1024 1 (fun d bs =>
      doneTile d t (fun x => x.setA n (words32 bs 256))))))

/-- MST: the 256 raw cells of acc(D) go to s(A), row pitch 64 B. -/
def execMst (t : Fin 512) (h : Head) (f : FmtR) (s : State) : Host.Outcome State Fault Refusal :=
  onDev s (fun d => d.issue t h {} (fun d => withAcc d t f (fun n =>
    d.tileStore t false ((d.tile t).sr f.a.toNat).toNat 1 (bytes32 (listOf 256 (fun i => lane ((d.tile t).ar n) i)))
      (fun d => .done d))))

/-- MZERO: acc(D) = +0 in every cell. -/
def execMzero (t : Fin 512) (h : Head) (f : FmtR) (s : State) : Host.Outcome State Fault Refusal :=
  onDev s (fun d => d.issue t h {} (fun d => withAcc d t f (fun n => doneTile d t (fun x => x.setA n zeroCells))))

/-! ## Sparse metadata -/

/-- Every nibble of `n` metadata bytes obeys R106. -/
def nibblesOk (bs : List Byte) : Bool :=
  bs.all (fun b => decide (fld b.toNat 0 2 < fld b.toNat 2 2) && decide (fld b.toNat 4 2 < fld b.toNat 6 2))

/-- SMCHK: p(D) = all ones when every nibble of the s(B) 32-byte blocks at s(A) obeys R106, else zero. -/
def execSmchk (t : Fin 512) (h : Head) (f : FmtR) (s : State) : Host.Outcome State Fault Refusal :=
  onDev s (fun d => d.issue t h {} (fun d =>
    if !inFile8 f.d then .trap .illegalOperand 0
    else
      let x := d.tile t
      let n := 32 * (x.sr f.b.toNat).toNat
      if 0x200000 < n then .trap .access (x.sr f.a.toNat).toNat
      else d.tileLoad t false (x.sr f.a.toNat).toNat n 1 (fun d bs =>
        doneTile d t (fun x => x.setP f.d.toNat (allBits (nibblesOk bs))))))

/-- The set bits among the first `n` bits of the bitmap at s(A). -/
def bitmapCount (t : Fin 512) (h : Head) (f : FmtR) (s : State) : Host.Outcome State Fault Refusal :=
  onDev s (fun d => d.issue t h {} (fun d =>
    let x := d.tile t
    let n := (x.sr f.b.toNat).toNat
    if 0x1000000 < n then .trap .access (x.sr f.a.toNat).toNat
    else d.tileLoad t false (x.sr f.a.toNat).toNat ((n + 7) / 8) 1 (fun d bs =>
      doneTile d t (fun x => x.setS f.d.toNat (BitVec.ofNat 64 (popBits n (leNat bs % 2 ^ n)))))))

/-- BMPOP: s(D) = set bits among the first s(B) bits of the bitmap at s(A). -/
def execBmpop (t : Fin 512) (h : Head) (f : FmtR) (s : State) := bitmapCount t h f s
/-- BMIDX: s(D) = set bits below bit index s(B) of the bitmap at s(A). -/
def execBmidx (t : Fin 512) (h : Head) (f : FmtR) (s : State) := bitmapCount t h f s

end Sys2Proof.Machine
end

