-- ==== Sys2Proof/Machine/TileComm.lean ====
section
/-! DEFINITION. The DMA, message, sync and system instructions of a tile, and its start (R119, R136 to R153). -/
namespace Sys2Proof.Machine
open Sys2Proof

/-! ## Tile-DMA descriptors (R141, R142) -/

/-- TYPE of a descriptor. -/
def descType (x : BitVec 512) : Nat := bvFld x 0 8
/-- FLAGS.NOTIFY. -/
def descNotify (x : BitVec 512) : Bool := decide (bvFld x 8 1 = 1)
/-- CHANNEL. -/
def descChannel (x : BitVec 512) : Nat := bvFld x 16 8
/-- SRC_KEY. -/
def descSrcKey (x : BitVec 512) : Nat := bvFld x 32 32
/-- SRC_ADDR. -/
def descSrc (x : BitVec 512) : Nat := bvFld x 64 64
/-- DST_ADDR. -/
def descDst (x : BitVec 512) : Nat := bvFld x 128 64
/-- DST_KEY. -/
def descDstKey (x : BitVec 512) : Nat := bvFld x 192 32
/-- LENGTH. -/
def descLen (x : BitVec 512) : Nat := bvFld x 256 32
/-- ROWS. -/
def descRows (x : BitVec 512) : Nat := bvFld x 288 32
/-- SRC_PITCH. -/
def descSrcPitch (x : BitVec 512) : Nat := bvFld x 320 64
/-- DST_PITCH. -/
def descDstPitch (x : BitVec 512) : Nat := bvFld x 384 64
/-- INDEX_ADDR. -/
def descIndex (x : BitVec 512) : Nat := bvFld x 448 64

/-- A descriptor obeys R141 and R142. -/
def descOk (x : BitVec 512) : Bool :=
  let ty := descType x
  decide (1 ≤ ty) && decide (ty ≤ 3) && decide (bvFld x 9 7 = 0) && decide (bvFld x 24 8 = 0) && decide (bvFld x 224 32 = 0) &&
  (!descNotify x || decide (descChannel x < 16)) &&
  (decide (spaceOf (descSrc x) = 4) || decide (descSrcKey x = 0)) &&
  (decide (spaceOf (descDst x) = 4) || decide (descDstKey x = 0)) &&
  decide (descSrc x % 32 = 0) && decide (descDst x % 32 = 0) && decide (descLen x % 32 = 0) &&
  (if ty = 1 then
    decide (32 ≤ descLen x) && decide (descLen x ≤ 268435456) && decide (descRows x = 0) && decide (descSrcPitch x = 0) &&
    decide (descDstPitch x = 0) && decide (descIndex x = 0)
  else
    decide (32 ≤ descLen x) && decide (descLen x ≤ 16777216) && decide (1 ≤ descRows x) &&
    decide (descRows x ≤ (if ty = 2 then 65536 else 4096)) && decide (descSrcPitch x % 32 = 0) && decide (descDstPitch x % 32 = 0) &&
    (if ty = 2 then decide (descIndex x = 0) else decide (descIndex x % 32 = 0) && decide (spaceOf (descIndex x) = 0)))

/-- The device address of a DMA address that lies inside Holanes, for `n` bytes; none where the tile's program may not
name it (R134, R135, R166). -/
def Dev.dmaSpot (d : Dev) (t a n : Nat) : Option Nat :=
  let sp := spaceOf a
  if sp = 0 then
    if fld a 21 39 = 0 ∧ fld a 0 21 + n ≤ 0x200000 then some (scratchBase t + fld a 0 21) else none
  else if sp = 1 then
    let c := fld a 32 5
    let p := clusterBase c + fld a 0 29
    if fld a 37 23 = 0 ∧ fld a 29 3 = 0 ∧ fld a 0 29 + n ≤ clusterBytes ∧ d.clusterPart c ≠ none ∧
        d.clusterPart c = d.tilePart t ∧ d.clusterOff c = false ∧ (d.regionAt p).isNone then some p else none
  else if sp = 2 then
    let u := fld a 32 9
    if fld a 41 19 = 0 ∧ fld a 21 11 = 0 ∧ fld a 0 21 + n ≤ 0x200000 ∧ d.tilePart u ≠ none ∧ d.tilePart u = d.tilePart t ∧
        d.clusterOff (clusterOf u) = false then some (scratchBase u + fld a 0 21) else none
  else if sp = 3 then
    match d.tilePart t with
    | none => none
    | some p =>
      match d.regionOf p (fld a 48 8) with
      | none => none
      | some r => if fld a 56 4 = 0 ∧ r.kind ≠ 2 ∧ fld a 0 48 + n ≤ r.len then some (r.base + fld a 0 48) else none
  else none

/-- A DMA address may be named: it is external, or every one of `rows` rows lies where the tile may reach. -/
def Dev.dmaNamed (d : Dev) (t a n rows pitch : Nat) : Bool :=
  decide (spaceOf a = 4) || (List.range rows).all (fun r => (d.dmaSpot t (a + r * pitch) n).isSome)

/-- Rows of a descriptor: one for TYPE 1. -/
def descRowCount (x : BitVec 512) : Nat := if descType x = 1 then 1 else descRows x

/-- The first address of a descriptor that the tile may not name (R135); a row address that comes from an index is
checked as the row moves (R144). -/
def Dev.descBad (d : Dev) (t : Nat) (x : BitVec 512) : Option Nat :=
  let n := descLen x
  let rows := descRowCount x
  let src := if descType x = 3 then decide (spaceOf (descSrc x) ≤ 4) else d.dmaNamed t (descSrc x) n rows (descSrcPitch x)
  if !src then some (descSrc x)
  else if !d.dmaNamed t (descDst x) n rows (descDstPitch x) then some (descDst x)
  else if descType x = 3 ∧ (d.dmaSpot t (descIndex x) (4 * rows)).isNone then some (descIndex x)
  else none

/-- A send channel is declared (R158, R159): VALID, to a tile of the partition or an endpoint. -/
def Dev.channelOk (d : Dev) (t ch : Nat) : Bool :=
  let w := d.channel t ch
  w.testBit 15 && (w.testBit 14 || (decide (d.tilePart (fld w 0 9) = d.tilePart t) && !d.clusterOff (clusterOf (fld w 0 9))))

/-- An idle DMA context with status OK. -/
def DmaCtx.idle : DmaCtx := ⟨false, false, 0, .ok⟩

/-- A DMA context of a tile. -/
def Tile.ctx (x : Tile) (c : Nat) : DmaCtx := x.dma.get DmaCtx.idle c

/-- Format X with its reserved bits zero and an ID field of `w` bits (R122). -/
def xLegal (f : FmtX) (w : Nat) : Bool := decide (f.rsvd = 0) && decide (f.x.toNat < 2 ^ w)

/-- The 64 bytes in s(a) to s(a+7), s(a) first. -/
def Tile.regs512 (x : Tile) (a : Nat) : BitVec 512 :=
  BitVec.ofNat 512 ((List.range 8).foldr (fun i acc => (x.sr (a + i)).toNat + 2 ^ 64 * acc) 0)

/-- DMA: starts the descriptor in s(A) to s(A+7) on context X[2:0]; a busy context is waited for (R125, R141, R142). -/
def execDma (t : Fin 512) (h : Head) (f : FmtX) (s : State) : Host.Outcome State Fault Refusal :=
  onDev s (fun d => d.issue t h { legal := xLegal f 3 } (fun d =>
    let x := d.tile t
    let c := f.x.toNat
    if 24 < f.a.toNat then .trap .illegalOperand 0
    else if (x.ctx c).busy then .wait d (.dmaBusy c)
    else
      let desc := x.regs512 f.a.toNat
      if !descOk desc then .trap .illegalOperand 0
      else
        match d.descBad t desc with
        | some a => .trap .access a
        | none =>
          if descNotify desc && !d.channelOk t (descChannel desc) then .trap .access 0
          else doneTile d t (fun x => { x with dma := x.dma.set c ⟨true, false, desc, .ok⟩ })))

/-- DMA.WAIT: waits for context X[2:0] to go IDLE and writes its status to s(D); the status is returned once (R143). -/
def execDmaWait (t : Fin 512) (h : Head) (f : FmtX) (s : State) : Host.Outcome State Fault Refusal :=
  onDev s (fun d => d.issue t h { legal := xLegal f 3 } (fun d =>
    let x := d.tile t
    let c := f.x.toNat
    if (x.ctx c).busy then .wait d (.dmaWait c)
    else doneTile d t (fun x =>
      { (x.setS f.d.toNat (BitVec.ofNat 64 (x.ctx c).status.code)) with dma := x.dma.set c DmaCtx.idle })))

/-! ## Messages (R146 to R149) -/

/-- Credits left of a send channel. -/
def Tile.credits (x : Tile) (ch : Nat) : Nat := x.cred.get 8 ch

/-- Send a message of a tile's channel into the NoC, taking one credit (R146, R149). -/
def Dev.sendMsg (d : Dev) (t ch : Nat) (data : BitVec 512) : Dev :=
  let w := d.channel t ch
  let p := (d.tilePart t).getD 0
  let m : NocMsg :=
    { toTile := if w.testBit 14 then none else some (fld w 0 9, fld w 11 3),
      toEngine := if w.testBit 14 then some (fld w 0 8) else none,
      src := .tile t ch, part := p, epoch := d.roleEpoch p, data := data }
  let d := d.updTile t (fun x => { x with cred := x.cred.set ch (x.credits ch - 1) })
  { d with tl := { d.tl with noc := d.tl.noc ++ [m] } }

/-- Return a credit to a sender (R146): a tile's channel holds at most 8. -/
def Dev.returnCredit (d : Dev) (t mb : Nat) : Sender → Dev
  | .tile u ch => d.updTile u (fun x => { x with cred := x.cred.set ch (min 8 (x.credits ch + 1)) })
  | .engine _ => { d with tl := { d.tl with engCred := d.tl.engCred.set (8 * t + mb) (min 8 (d.tl.engCred.get 8 (8 * t + mb) + 1)) } }

/-- SEND: the 64 bytes at s(A) as a message on channel X[3:0]; waits for a credit (R146, R148). -/
def execSend (t : Fin 512) (h : Head) (f : FmtX) (s : State) : Host.Outcome State Fault Refusal :=
  onDev s (fun d => d.issue t h { legal := xLegal f 4 } (fun d =>
    let x := d.tile t
    let ch := f.x.toNat
    if !d.channelOk t ch then .trap .access 0
    else if x.credits ch = 0 then .wait d (.credit ch)
    else d.tileLoad t false (x.sr f.a.toNat).toNat 64 64 (fun d bs => .done (d.sendMsg t ch (BitVec.ofNat 512 (leNat bs))))))

/-- The messages in a mailbox, oldest first. -/
def Tile.mail (x : Tile) (mb : Nat) : List Mail := x.mbox.get [] mb

/-- The oldest message among the mailboxes of a mask, with its mailbox. -/
def Tile.firstMail (x : Tile) (mask : Nat) : Option (Nat × Mail) :=
  (List.range 8).foldl (fun best mb =>
    if mask.testBit mb then
      match (x.mail mb).head?, best with
      | some m, none => some (mb, m)
      | some m, some (b, n) => if m.ord < n.ord then some (mb, m) else some (b, n)
      | none, _ => best
    else best) none

/-- Take the oldest message of the mailboxes of a mask into the 64 bytes at s(A): the slot is freed and the credit
returned. -/
def recvOp (t : Nat) (f : FmtX) (mask : Nat) (k : Nat → Tile → Tile) (d : Dev) : TRes :=
  let x := d.tile t
  match x.firstMail mask with
  | none => .wait d (.recv mask)
  | some (mb, m) =>
    d.tileStore t false (x.sr f.a.toNat).toNat 64 (leBytes 64 m.data.toNat) (fun d =>
      let d := d.updTile t (fun x => { x with mbox := x.mbox.set mb (x.mail mb).tail })
      doneTile (d.returnCredit t mb m.src) t (k mb))

/-- RECV: the oldest message of mailbox X[2:0] into s(A), 64-B aligned (log entry 30). -/
def execRecv (t : Fin 512) (h : Head) (f : FmtX) (s : State) : Host.Outcome State Fault Refusal :=
  onDev s (fun d => d.issue t h { legal := xLegal f 3 } (fun d => recvOp t f (1 <<< f.x.toNat) (fun _ x => x) d))

/-- RECV.ANY: the first message to arrive in any mailbox of the mask X[7:0]; s(D) = its mailbox. -/
def execRecvAny (t : Fin 512) (h : Head) (f : FmtX) (s : State) : Host.Outcome State Fault Refusal :=
  onDev s (fun d => d.issue t h { legal := xLegal f 8, variant := true } (fun d =>
    recvOp t f f.x.toNat (fun mb x => x.setS f.d.toNat (BitVec.ofNat 64 mb)) d))

/-- The first message in flight to a mailbox, and the others. -/
def takeMsg (p : NocMsg → Bool) : List NocMsg → Option (NocMsg × List NocMsg)
  | [] => none
  | m :: r => if p m then some (m, r) else (takeMsg p r).map (fun q => (q.1, m :: q.2))

/-- MESSAGE_ARRIVAL: the oldest message on its way to the mailbox reaches it.  One whose role epoch is not current is
dropped and counted; an engine's credit returns, a tile's does not (R149). -/
def execMessageArrival (t : Fin 512) (mb : Fin 8) (s : State) : Host.Outcome State Fault Refusal :=
  onDev s (fun d =>
    match takeMsg (fun m => decide (m.toTile = some (t.val, mb.val))) d.tl.noc with
    | none => d
    | some (m, rest) =>
      let d := { d with tl := { d.tl with noc := rest } }
      if epochKind m.epoch (d.roleEpoch m.part) = .current then
        let n := d.tl.arrivals
        let d := d.updTile t (fun x => { x with mbox := x.mbox.set mb (x.mail mb ++ [⟨m.src, n, m.data⟩]) })
        { d with tl := { d.tl with arrivals := n + 1 } }
      else
        let d := d.finc (Reg.CLU_MSG_EPOCH_DROP_COUNT (clusterOf t))
        match m.src with
        | .engine e => d.returnCredit t mb (.engine e)
        | .tile _ _ => d)

/-! ## Barriers, fences and atomics (R151 to R153) -/

/-- The members of barrier b of partition p. -/
def Dev.barrierMembers (d : Dev) (p b : Nat) : List Nat :=
  (List.range 512).filter (fun u => d.tileValid u && d.joinsBarrier u b && decide (d.tilePart u = some p))

/-- Release a member that waits at barrier b. -/
def Dev.releaseBar (d : Dev) (b u : Nat) : Dev :=
  if (d.tile u).wait = some (.bar b) ∧ (d.tile u).phase = .running then d.advance u else d

/-- BAR: arrives at barrier X[5:0] of the partition and waits until every member has arrived; the last to arrive
releases them all (R151).  A non-member takes the access exception. -/
def execBar (t : Fin 512) (h : Head) (f : FmtX) (s : State) : Host.Outcome State Fault Refusal :=
  onDev s (fun d => d.issue t h { legal := xLegal f 6 } (fun d =>
    let b := f.x.toNat
    match d.tilePart t with
    | none => .trap .access 0
    | some p =>
      if !d.joinsBarrier t b then .trap .access 0
      else
        let old := d.tl.bars.get [] (64 * p + b)
        let arrived := if old.contains t.val then old else old ++ [t.val]
        let members := d.barrierMembers p b
        if members.all (fun u => arrived.contains u) then
          let d := { d with tl := { d.tl with bars := d.tl.bars.del (64 * p + b) } }
          .done ((members.filter (fun u => decide (u ≠ t.val))).foldl (fun d u => d.releaseBar b u) d)
        else .wait { d with tl := { d.tl with bars := d.tl.bars.set (64 * p + b) arrived } } (.bar b)))

/-- FENCE: every earlier store and atomic of the tile has been performed.  Stores of this model are performed as they
issue (log entry 31), so it completes at once. -/
def execFence (t : Fin 512) (h : Head) (_f : FmtR) (s : State) : Host.Outcome State Fault Refusal :=
  onDev s (fun d => d.issue t h {} (fun d => .done d))

/-- An atomic on `n` bytes of cluster memory at s(A) + OFFSET, aligned to n. -/
def atomicOp (t : Fin 512) (h : Head) (f : FmtIM) (variant : Bool) (n : Nat) (g : Nat → W64 → Nat) (s : State) :
    Host.Outcome State Fault Refusal :=
  onDev s (fun d => d.issue t h { variant := variant } (fun d =>
    let x := d.tile t
    let a := addrIM f x
    if a % n ≠ 0 then .trap .illegalOperand a
    else
      match d.resolve t false true false a n with
      | .bad c => .trap c a
      | .busy => .wait d .memory
      | .ok p => .done (d.memWrite p (leBytes n (g (leNat (d.memBytes p n)) (x.sr f.d.toNat))))))

/-- ATADD.I: wrapping 64-bit add. -/
def execAtaddI (t : Fin 512) (h : Head) (f : FmtIM) (s : State) :=
  atomicOp t h f false 8 (fun old v => (BitVec.ofNat 64 old + v).toNat) s
/-- ATMIN.I: signed minimum. -/
def execAtminI (t : Fin 512) (h : Head) (f : FmtIM) (s : State) :=
  atomicOp t h f false 8 (fun old v => (intOp .min (BitVec.ofNat 64 old) v).toNat) s
/-- ATMAX.I: signed maximum. -/
def execAtmaxI (t : Fin 512) (h : Head) (f : FmtIM) (s : State) :=
  atomicOp t h f false 8 (fun old v => (intOp .max (BitVec.ofNat 64 old) v).toNat) s
/-- ATADD.F: FP32 add of s(D)[31:0], rounded to nearest even (R117). -/
def execAtaddF (t : Fin 512) (h : Head) (f : FmtIM) (s : State) :=
  atomicOp t h f true 4 (fun old v => (fAdd (BitVec.ofNat 32 old) (v.setWidth 32)).val.toNat) s

/-! ## System -/

/-- NOP. -/
def execNop (t : Fin 512) (h : Head) (_f : FmtR) (s : State) : Host.Outcome State Fault Refusal :=
  onDev s (fun d => d.issue t h {} (fun d => .done d))

/-- HALT: issue stops; the tile drains (R136). -/
def execHalt (t : Fin 512) (h : Head) (_f : FmtR) (s : State) : Host.Outcome State Fault Refusal :=
  onDev s (fun d => d.issue t h {} (fun d => .stay (d.updTile t (fun x => { x with phase := .halting, wait := none }))))

/-- No DMA context of a tile runs a transfer. -/
def Tile.dmaIdle (x : Tile) : Bool := x.dma.ents.all (fun p => !p.2.busy)

/-- TILE_HALTED: the drain after HALT ends once every DMA context is IDLE; a SEND leaves the tile as it issues (R136). -/
def execTileHalted (t : Fin 512) (s : State) : Host.Outcome State Fault Refusal :=
  onDev s (fun d =>
    if (d.tile t).phase = .halting ∧ (d.tile t).dmaIdle then d.updTile t (fun x => { x with phase := .halted }) else d)

/-- RDFLAG: s(D) = AFLAGS, once every earlier arithmetic operation of the tile has completed (R115). -/
def execRdflag (t : Fin 512) (h : Head) (f : FmtR) (s : State) : Host.Outcome State Fault Refusal :=
  onDev s (fun d => d.issue t h {} (fun d =>
    match (d.tile t).pend.keys.head? with
    | some n => .wait d (.acc n)
    | none => doneTile d t (fun x => x.setS f.d.toNat (x.aflags.setWidth 64))))

/-- CLRFLAG: clears the AFLAGS bits of the immediate mask (R114). -/
def execClrflag (t : Fin 512) (h : Head) (f : FmtI) (s : State) : Host.Outcome State Fault Refusal :=
  onDev s (fun d => d.issue t h {} (fun d => doneTile d t (fun x => { x with aflags := x.aflags &&& ~~~f.imm })))

/-- SEED: the rounding seed = s(A), and the counter 0 (R102). -/
def execSeed (t : Fin 512) (h : Head) (f : FmtR) (s : State) : Host.Outcome State Fault Refusal :=
  onDev s (fun d => d.issue t h {} (fun d => doneTile d t (fun x => { x with seed := x.sr f.a.toNat, ctr := 0 })))

/-- RDID: s(D) = the logical tile ID in [8:0] and the partition in [20:16]. -/
def execRdid (t : Fin 512) (h : Head) (f : FmtR) (s : State) : Host.Outcome State Fault Refusal :=
  onDev s (fun d => d.issue t h {} (fun d =>
    doneTile d t (fun x => x.setS f.d.toNat (BitVec.ofNat 64 (t.val + (d.tilePart t).getD 0 * 65536)))))

/-- RDCYC: s(D) = CCLK cycles since the tile started, a free value: the model counts no cycles (log entry 4). -/
def execRdcyc (t : Fin 512) (h : Head) (f : FmtR) (s : State) : Host.Outcome State Fault Refusal :=
  onDev s (fun d => d.issue t h { variant := true } (fun d =>
    doneTile d t (fun x => x.setS f.d.toNat (Config.freeValue 64 d.fresh))))

/-- RDPTIME: s(D) = pod time in ns. -/
def execRdptime (t : Fin 512) (h : Head) (f : FmtR) (s : State) : Host.Outcome State Fault Refusal :=
  onDev s (fun d => d.issue t h { variant := true } (fun d =>
    doneTile d t (fun x => x.setS f.d.toNat (d.regGet Reg.ONF_PODTIME))))

/-- RDTRNG: s(D) = 64 random bits, a free value. -/
def execRdtrng (t : Fin 512) (h : Head) (f : FmtR) (s : State) : Host.Outcome State Fault Refusal :=
  onDev s (fun d => d.issue t h { variant := true } (fun d =>
    doneTile d t (fun x => x.setS f.d.toNat (Config.freeValue 64 d.fresh))))

/-! ## Starting (R74, R119, R140) -/

/-- The state of R119 at a tile's start, with the send-channel credits given. -/
def Dev.startTile (d : Dev) (t : Nat) (cred : Tab Nat) : Dev :=
  let b := d.sec secTilePrograms
  let init := b.u64 (tileEntry t + 0x18)
  let d := d.clearRam (scratchBase t) 0x200000
  let d := d.regSet (Reg.CLU_TILE_CAUSEt (clusterOf t) (t % 16)) 0
  d.setTile t { Tile.reset with
    phase := .running, pc := b.u32 (tileEntry t + 0x04),
    s := ⟨(List.range 32).map (fun i => (i, BitVec.ofNat 64 (b.u64 (init + 8 * i))))⟩, cred := cred }

/-- Tile t awaits a spare, or its cluster is fenced (R140, R518, R521). -/
def Dev.tileBarred (d : Dev) (t : Nat) : Bool :=
  d.fbit (Reg.RAS_CLU_SLOTSc_WAITING (clusterOf t)) (t % 16) || d.fbit Reg.RAS_FENCED_CLU_CLUSTERS (clusterOf t)

/-- Tile t has a program to run: VALID, in a partition's cluster whose role is not OFF. -/
def Dev.tileRuns (d : Dev) (t : Nat) : Bool :=
  d.tileValid t && !d.clusterOff (clusterOf t) && (d.tilePart t).isSome && !d.tileBarred t

/-- TILE_START: at the first NoC frame boundary after commit or wake, every such tile starts at its entry point. -/
def execTileStart (s : State) : Host.Outcome State Fault Refusal :=
  onDev s (fun d =>
    if d.img.startDue then
      let d := { d with img := { d.img with startDue := false } }
      ((List.range 512).filter d.tileRuns).foldl (fun d t => d.startTile t ⟨[]⟩) d
    else d)

/-- Discard a tile's mailbox contents, returning one credit for each message to the senders that pass a test. -/
def Dev.discardMail (d : Dev) (t : Nat) (dest : Sender → Bool) : Dev :=
  let x := d.tile t
  let d := d.setTile t { x with mbox := ⟨[]⟩ }
  x.mbox.ents.foldl (fun d p => p.2.foldl (fun d m => if dest m.src then d.returnCredit t p.1 m.src else d) d) d

/-- Restart one tile (R140): only one that is HALTED or STOPPED and not barred. -/
def Dev.restartTile (d : Dev) (t : Nat) : Dev :=
  let ph := (d.tile t).phase
  if (ph = .halted ∨ ph = .stopped) ∧ d.tileBarred t = false then
    let d := d.discardMail t (fun _ => true)
    d.startTile t (d.tile t).cred
  else d

/-- TILE_RESTART: a write of CLU_TILE_RESTART on cluster c with the bits of a mask (R140).  A bit clears as its tile
runs, and a bit that is ignored does not stay. -/
def execTileRestart (c : Fin 32) (mask : BitVec 16) (s : State) : Host.Outcome State Fault Refusal :=
  onDev s (fun d => (bitsOf 16 mask.toNat).foldl (fun d i => d.restartTile (16 * c + i)) d)

/-- STALL_LIMIT: a BAR, DMA.WAIT or SEND credit wait, a NOTIFY's among them, exceeds CLU_STALL_LIMIT (R138). -/
def execStallLimit (t : Fin 512) (s : State) : Host.Outcome State Fault Refusal :=
  onDev s (fun d =>
    let x := d.tile t
    let counted : Bool := match x.wait with
      | some (.bar _) => true
      | some (.dmaWait _) => true
      | some (.credit _) => true
      | _ => x.dma.ents.any (fun p => p.2.notify)
    if x.phase = .running ∧ counted ∧ d.fget (Reg.CLU_STALL_LIMIT_LIMIT_US (clusterOf t)) ≠ 0 then d.tileTrap t .stallLimit 0
    else d)

end Sys2Proof.Machine
end

