-- ==== Sys2Proof/Machine/Dispatching.lean ====
section
/-! DEFINITION. Expert dispatch: firing, batches, combine and write-back (chapter 6). -/
namespace Sys2Proof.Machine
open Sys2Proof

/-! ## Validation (R205) -/

/-- The non-null entries of a token's gating record, in ascending expert order (R200, R216). -/
def gateEntries (b : List Byte) (k : Nat) : List (Nat × W32) :=
  let es := (List.range k).filterMap (fun i =>
    let e := leNat ((b.drop (2 * i)).take 2)
    if e = 0xFFFF then none else some (e, BitVec.ofNat 32 (leNat ((b.drop (32 + 4 * i)).take 4))))
  es.foldl (fun acc e => (acc.filter (fun (x : Nat × W32) => decide (x.1 ≤ e.1))) ++ e :: (acc.filter (fun (x : Nat × W32) => decide (e.1 < x.1)))) []

/-- Assignments grouped by expert in ascending order, tokens ascending (R206). -/
def groupByExpert (gs : List (List (Nat × W32))) : List (Nat × List Nat) :=
  let es := (gs.flatMap (fun g => g.map (·.1))).eraseDups
  let es := es.foldl (fun (acc : List Nat) e => acc.filter (fun x => decide (x < e)) ++ e :: acc.filter (fun x => decide (e < x))) []
  es.map (fun e => (e, (gs.zipIdx.filter (fun (p : List (Nat × W32) × Nat) => p.1.any (fun (x : Nat × W32) => decide (x.1 = e)))).map (·.2)))

/-- The records of a zone pass the checks of R205. -/
def Dev.gatesOk (d : Dev) (part : Nat) (x : BitVec 512) (tokens : Nat) (gs : List (List (Nat × W32))) : Bool :=
  let r := d.eptRec part
  decide (1 ≤ tokens) && decide (tokens ≤ xMax x) &&
  gs.all (fun g => decide ((g.map (·.1)).eraseDups.length = g.length) &&
    g.all (fun (e : Nat × W32) => decide (e.1 < r.experts) && eptValid (d.eptEntry (r.index (xLayer x) e.1))))

/-- A fired descriptor becomes a context of a slot: the header and the gating records are read and checked. -/
def Dev.xduFire (d : Dev) (key qid : Nat) (w : Wq) (e : WqEntry) (part : Nat) : Dev :=
  let x := e.desc
  let gen := d.xdu.gens.get 0 key
  let c : XCtx :=
    { qid := qid, idx := e.idx, desc := x, fn := wqFn w.ctx, part := part, order := d.xdu.fired, gen := gen, seq := 0, tokens := 0, gates := [],
      waiting := [], deferred := [], late := false, nextBatch := 0, batches := [], outs := [], rows := [], inFlight := 0, flagSent := false }
  let d := d.upXdu (fun s => { s with gens := s.gens.set key (gen + 1), fired := s.fired + 1, ctxs := s.ctxs.set key c })
  let z := xZoneDev x
  match d.memStatus false z 64 with
  | .ok =>
    let tokens := leNat (d.memBytes (z + 4) 2)
    let n := 128 * min tokens (xMax x)
    match d.memStatus false (z + xGate x) n with
    | .ok =>
      let gs := (List.range (min tokens (xMax x))).map (fun t => gateEntries (d.memBytes (z + xGate x + 128 * t) 96) (xK x))
      let d := (d.noteAccess false z 64).noteAccess false (z + xGate x) n
      if d.fbit Reg.RAS_FENCED_DIE_DIES (key / 64) then d.xduEnd key .uncorrectable
      else if d.gatesOk part x tokens gs then
        let c := { c with seq := leNat (d.memBytes z 4), tokens := tokens, gates := gs, waiting := groupByExpert gs }
        d.upXdu (fun s => { s with ctxs := s.ctxs.set key c })
      else d.xduEnd key .malformed
    | st => (d.unitFault ⟨3, xContext key gen, part, wqFn w.ctx, 0⟩ ⟨st, z + xGate x, 0, none, true⟩ false false).xduEnd key st
  | st => (d.unitFault ⟨3, xContext key gen, part, wqFn w.ctx, 0⟩ ⟨st, z, 0, none, true⟩ false false).xduEnd key st

/-- DISPATCH_FIRE: the oldest unfired descriptor of a dispatch queue (R195 to R198).  One whose TRIGGER is out of range
fires at once. -/
def execDispatchFire (qid : BitVec 16) (s : State) : Host.Outcome State Fault Refusal :=
  onDev s (fun d =>
    match d.live, d.wqFind qid.toNat with
    | true, some w =>
      match w.front with
      | none => d
      | some e =>
        if wqClass w.ctx ≠ 2 ∨ d.fnStarts (wqFn w.ctx) = false ∨ ((d.wqPart w).any d.partHeld) = true then d
        else
          let die := wqBind w.ctx
          let p := d.wqPart w
          let t := xTrigger e.desc
          let count := if bitAt t 31 then d.fget (Reg.XDU_ZCNTz_COUNT (fld t 0 24)) else d.trigCount (fld t 0 24) (fld t 24 2)
          let ok := d.dispatchOk p die e.desc
          let trigOk := decide (fld t 26 5 = 0) && (!bitAt t 31 || (decide (fld t 24 2 = 0) && decide (fld t 0 24 < 4096)))
          let slot := (List.range 64).find? (fun k => (d.xdu.ctxs.find (64 * die + k)).isNone)
          if trigOk && !countMeets count (xThreshold e.desc) then d
          else
            match ok, slot with
            | false, _ => (((d.finc (Reg.XDU_FIREDd_COUNT die)).wqStart qid.toNat).wqMalformed qid.toNat e.idx)
            | true, none => d
            | true, some k => ((d.finc (Reg.XDU_FIREDd_COUNT die)).wqStart qid.toNat).xduFire (64 * die + k) qid.toNat w e (p.getD 0)
    | _, _ => d)

/-! ## Combine and write-back (R216 to R220) -/

/-- The outputs of a token in ascending expert order, when all of them are there. -/
def XCtx.inputs (c : XCtx) (t : Nat) : Option (List (W32 × List W32)) :=
  (c.gates.getD t []).foldr (fun (e : Nat × W32) (acc : Option (List (W32 × List W32))) =>
    match acc, c.outs.find? (fun (o : (Nat × Nat) × List W32) => decide (o.1 = (t, e.1))) with
    | some l, some o => some ((e.2, o.2) :: l)
    | _, _ => none) (some [])

/-- Result rows may be written: every read of the zone is over (R201). -/
def XCtx.zoneRead (c : XCtx) : Bool :=
  c.waiting.isEmpty && !c.batches.any (fun b => match b.site with | .here .. => true | .peer _ => false)

/-- The XDU writing to accelerator memory. -/
def XCtx.user (c : XCtx) : KeyUser := ⟨rLocalWrite, true, none, some c.part, false⟩

/-- The QP of PATH 0 takes one more message. -/
def Dev.xduQpReady (d : Dev) (n : Nat) : Bool :=
  match d.qp n with
  | some q =>
    decide (q.state = 3) && !q.isUd && decide (d.inflight < 16384) && decide (q.out.length < q.get 0x40 2) && q.rnrWait.isNone &&
    q.out.all (fun m => decide (m.sent = max 1 m.pkts.length))
  | none => false

/-- The status with which a QP that cannot send ends a context, if it can send no more (R221). -/
def Dev.xduQpDead (d : Dev) (n : Nat) : Option Status :=
  match d.qp n with
  | some q => if q.state = 4 then some ((statusOf (q.get 0xC8 1)).getD .flushed) else if q.isUd then some .malformed else none
  | none => some .flushed

/-- Write a result row; answers false when it must wait for the QP. -/
def Dev.xduRow (d : Dev) (key : Nat) (c : XCtx) (t : Nat) (row : List Byte) : Dev × Bool :=
  let x := c.desc
  let a := xOutAddr x + t * row.length
  let note (d : Dev) (more : Nat) : Dev :=
    d.upXdu (fun s => { s with ctxs := s.ctxs.set key { c with rows := c.rows ++ [t], inFlight := c.inFlight + more } })
  if xPath x = 1 then
    match d.keyWrite c.user (xOutKey x) a row false with
    | (d, none) => (note d 0, true)
    | (d, some f) =>
      let f := { f with done := f.done + c.rows.length * row.length }
      ((d.unitFault ⟨3, xContext key c.gen, c.part, c.fn, xOutKey x⟩ f true false).xduEnd key f.st, false)
  else
    match d.xduQpDead (xQpn x) with
    | some st => (d.xduEnd key st, false)
    | none =>
      if d.xduQpReady (xQpn x) then
        ((note d 1).rcPost (xQpn x) ⟨.xdu key c.gen false, true, none, row, row.length, a, xOutKey x, false, none, none⟩, true)
      else (d, false)

/-- Combine the tokens that are complete, and write their rows in that order; `n` bounds them. -/
def Dev.xduCombine (d : Dev) (key : Nat) : Nat → Dev
  | 0 => d
  | n + 1 =>
    match d.xdu.ctxs.find key with
    | none => d
    | some c =>
      if !c.zoneRead then d
      else
        match (List.range c.tokens).find? (fun t => !c.rows.contains t && (c.inputs t).isSome) with
        | none => d
        | some t =>
          match d.xduRow key c t (rowBytes (xOut c.desc) (combineRow (xWidth c.desc) ((c.inputs t).getD []))) with
          | (d, true) => d.xduCombine key n
          | (d, false) => d

/-- Combine every token of a context that is complete: at most one row for each token. -/
def Dev.xduCombineAll (d : Dev) (key : Nat) : Dev := d.xduCombine key (((d.xdu.ctxs.find key).map (·.tokens)).getD 0)

/-- The result flag (R219). -/
def XCtx.flag (c : XCtx) : List Byte := leBytes 4 c.seq ++ leBytes 1 c.good.code ++ leBytes 1 0 ++ leBytes 2 c.tokens

/-- RESULT_FLAG: the rows that still wait for their QP are sent; once every data write of the context has landed, the flag is
written, and the context completes behind it (R219, R220). -/
def execResultFlag (die : Fin 4) (slot : Fin 64) (s : State) : Host.Outcome State Fault Refusal :=
  let key := 64 * die.val + slot.val
  onDev s (fun d =>
    if !d.live then d
    else
      let d := d.xduCombineAll key
      match d.xdu.ctxs.find key with
      | none => d
      | some c =>
        let x := c.desc
        if c.tokens = 0 ∨ c.rows.length ≠ c.tokens ∨ c.inFlight ≠ 0 ∨ c.flagSent = true then d
        else if xPath x = 1 then
          match d.keyWrite c.user (xOutKey x) (xFlagAddr x) c.flag true with
          | (d, none) => d.xduEnd key c.good
          | (d, some f) => (d.unitFault ⟨3, xContext key c.gen, c.part, c.fn, xOutKey x⟩ f true false).xduEnd key f.st
        else
          match d.xduQpDead (xQpn x) with
          | some st => d.xduEnd key st
          | none =>
            let idle := match d.qp (xQpn x) with | some q => !q.unord || decide (q.open_ = 0) | none => false
            if d.xduQpReady (xQpn x) && idle then
              (d.upXdu (fun s => { s with ctxs := s.ctxs.set key { c with flagSent := true } })).rcPost (xQpn x)
                ⟨.xdu key c.gen true, true, none, c.flag, 8, xFlagAddr x, xOutKey x, true, none, none⟩
            else d)

/-! ## Batches (R206 to R209, R213) -/

/-- Count the tokens of a context that wait under R206, each once (R207). -/
def Dev.xduDefer (d : Dev) (key : Nat) (expert : Nat) (left : List Nat) : Dev :=
  match d.xdu.ctxs.find key with
  | none => d
  | some c =>
    let new := (left.map (fun t => (t, expert))).filter (fun p => !c.deferred.contains p)
    let d := d.fadd (Reg.XDU_DEFER_TOKd_COUNT (key / 64)) new.length
    d.upXdu (fun s => { s with ctxs := s.ctxs.set key { c with deferred := c.deferred ++ new, late := c.late || !left.isEmpty } })

/-- Note a batch that has left with the first `n` waiting tokens of an expert. -/
def Dev.xduLeft (d : Dev) (key : Nat) (b : XBatch) (n window idx : Nat) : Dev :=
  match d.xdu.ctxs.find key with
  | none => d
  | some c =>
    let ts := ((c.waiting.find? (fun p => decide (p.1 = b.expert))).map (·.2)).getD []
    let rest := ts.drop n
    let waiting := (c.waiting.map (fun p => if p.1 = b.expert then (p.1, rest) else p)).filter (fun p => !p.2.isEmpty)
    let d := d.upXdu (fun s =>
      { s with window := s.window.set (65536 * (key / 64) + idx) (window - n),
               ctxs := s.ctxs.set key { c with waiting := waiting, nextBatch := (c.nextBatch + 1) % 4096, batches := c.batches ++ [b] } })
    d.xduDefer key b.expert rest

/-- Batches outstanding on the XDU of a die. -/
def Dev.xduOutstanding (d : Dev) (die : Nat) : Nat :=
  ((d.xdu.ctxs.ents.filter (fun p => decide (p.1 / 64 = die))).map (fun p => p.2.batches.length)).foldl (· + ·) 0

/-- The token record of a zone. -/
def XCtx.record (c : XCtx) (t : Nat) : Nat := xZoneDev c.desc + 64 + t * xTrec c.desc

/-- Let up to `n` tokens of an expert leave. -/
def Dev.xduLeave (d : Dev) (key : Nat) (c : XCtx) (expert idx n window : Nat) (tokens : List Nat) : Dev :=
  let x := c.desc
  let die := key / 64
  let e := d.eptEntry idx
  let ts := tokens.take n
  let id := die * 2 ^ 30 + key % 64 * 2 ^ 24 + c.nextBatch * 2 ^ 12 + c.gen % 4096
  let w := xWidth x
  let fail (d : Dev) (st : Status) (a : Nat) : Dev :=
    (d.unitFault ⟨3, xContext key c.gen, c.part, c.fn, 0⟩ ⟨st, a, 0, none, true⟩ false false).xduEnd key st
  if eptRank e ≠ d.rank then
    match ts.find? (fun t => decide (d.memStatus false (c.record t) (xTrec x) ≠ .ok)) with
    | some t => fail d (d.memStatus false (c.record t) (xTrec x)) (c.record t)
    | none =>
      let rows := ts.flatMap (fun t => d.memBytes (c.record t) (xTrec x))
      let d := ts.foldl (fun d t => d.noteAccess false (c.record t) (xTrec x)) d
      let d := d.finc (Reg.XDU_REMOTE_OUTd_COUNT die)
      let d := d.xduLeft key ⟨BitVec.ofNat 32 id, expert, ts, .peer (eptRank e)⟩ n window idx
      let d := d.sendDispatch (eptRank e) 0 c.part (xHeader 1 0 d.rank id (xLayer x) expert n w (xIn x) :: rowCells rows)
      if d.pathBlocked (eptRank e) then d.xduPathLost (fun r => decide (r = eptRank e)) else d
  else
    match d.pickCluster (fun _ => die) (eptMask e) with
    | none => d
    | some k =>
      let t := 16 * k + eptTile e
      match d.areaFind c.part k (roomLocal n w) with
      | none => d
      | some off =>
        if d.engineCredit t (eptMbox e) = 0 then d
        else
          let a := clusterBase k + off
          match d.memStatus true a (4 * n) with
          | .ok =>
            let d := d.memWrite a (ts.flatMap (fun t => leBytes 4 t))
            let d := d.xduLeft key ⟨BitVec.ofNat 32 id, expert, ts, .here k t off (roomLocal n w)⟩ n window idx
            d.engineSend (0x40 + die) t (eptMbox e) c.part
              (notice id n (xLayer x) expert (xIn x) w (xZone x + 64) (space1 k off) (space1 k (off + roundUp (4 * n) 64)) (eptWeights e))
          | st => fail d st a

/-- The record of an uncorrectable placement entry that a context reads (R509, R513). -/
def Dev.eptRecord (d : Dev) (idx action ctx part fn : Nat) : Dev :=
  d.rasRecord { sev := 4, unit := 0x0F, action := action, status := if action = 1 then Status.uncorrectable.code else 0, loc := idx, detail := 1,
                kind := if action = 1 then 3 else 0, part := part, fn := fn, ctx := ctx }

/-- BATCH_LEAVE: up to CAP tokens of an expert leave in a steep window; `opens` says that a new window has opened for that
expert since the last batch (R206). -/
def execBatchLeave (die : Fin 4) (slot : Fin 64) (expert : BitVec 16) (opens : Bool) (s : State) : Host.Outcome State Fault Refusal :=
  let key := 64 * die.val + slot.val
  onDev s (fun d =>
    match d.live, d.xdu.ctxs.find key with
    | true, some c =>
      match c.waiting.find? (fun p => decide (p.1 = expert.toNat)) with
      | none => d
      | some (_, tokens) =>
        let r := d.eptRec c.part
        let idx := r.index (xLayer c.desc) expert.toNat
        let cap := eptCap (d.eptEntry idx)
        let window := if opens then cap else d.xdu.window.get cap (65536 * die.val + idx)
        let d := d.upXdu (fun x => { x with window := x.window.set (65536 * die.val + idx) window })
        let earlier := d.xdu.ctxs.ents.any (fun p => decide (p.1 / 64 = die.val) && decide (p.2.order < c.order) && decide (p.2.part = c.part) &&
          decide (xLayer p.2.desc = xLayer c.desc) && p.2.waiting.any (fun q => decide (q.1 = expert.toNat)))
        let n := min window tokens.length
        if earlier then d
        else if d.xdu.hurt.contains idx then (d.eptRecord idx 1 (xContext key c.gen) c.part c.fn).xduEnd key .uncorrectable
        else if n = 0 then d.xduDefer key expert.toNat tokens
        else if 4096 ≤ d.xduOutstanding die.val then d
        else d.xduLeave key c expert.toNat idx n window tokens
    | _, _ => d)

/-! ## Outputs -/

/-- The FP32 rows of a byte string. -/
def rowsOf (w n : Nat) (bs : List Byte) : List (List W32) :=
  (List.range n).map (fun i => (List.range w).map (fun j => BitVec.ofNat 32 (leNat ((bs.drop (4 * (i * w + j))).take 4))))

/-- The outputs of a batch of a context have come back. -/
def Dev.xduOutputs (d : Dev) (key : Nat) (b : XBatch) (rows : List (List W32)) : Dev :=
  match d.xdu.ctxs.find key with
  | none => d
  | some c =>
    let outs := (b.tokens.zip rows).map (fun p => ((p.1, b.expert), p.2))
    let c := { c with outs := c.outs ++ outs, batches := c.batches.filter (fun x => decide (x.id ≠ b.id)) }
    (d.upXdu (fun s => { s with ctxs := s.ctxs.set key c })).xduCombineAll key

/-- Take a batch out of its context, and end the context with a status. -/
def Dev.xduBatchFail (d : Dev) (key : Nat) (b : XBatch) (st : Status) : Dev :=
  match d.xdu.ctxs.find key with
  | none => d
  | some c =>
    (d.upXdu (fun s => { s with ctxs := s.ctxs.set key { c with batches := c.batches.filter (fun x => decide (x.id ≠ b.id)) } })).xduEnd key st

/-- The outstanding batch of a context that passes a test. -/
def Dev.xduFind (d : Dev) (ok : XBatch → Bool) : Option (Nat × XCtx × XBatch) :=
  d.xdu.ctxs.ents.findSome? (fun p => (p.2.batches.find? ok).map (fun b => (p.1, p.2, b)))

/-- Answer a peer whose batch was served here. -/
def Dev.xduReturn (d : Dev) (s : XServed) (st : Status) : Dev :=
  let h := s.head.toNat
  let n := if st = .ok then s.tokens else 0
  let rows := d.memBytes s.out (n * 4 * s.width)
  let d := d.noteAccess false s.out (n * 4 * s.width)
  let id := fld h 32 32
  d.sendDispatch s.origin (id / 2 ^ 30) s.part
    (xHeader 2 st.code s.origin id (fld h 64 16) (fld h 80 16) s.tokens s.width (fld h 128 8) :: rowCells rows)

/-- Read the output rows of a batch of a context from `len` bytes at `a` (R210, R211). -/
def Dev.xduCollect (d : Dev) (key : Nat) (c : XCtx) (b : XBatch) (a len : Nat) : Dev :=
  match d.memStatus false a len with
  | .ok => (d.noteAccess false a len).xduOutputs key b (rowsOf (xWidth c.desc) b.tokens.length (d.memBytes a len))
  | st => (d.unitFault ⟨3, xContext key c.gen, c.part, c.fn, 0⟩ ⟨st, a, 0, none, true⟩ false false).xduBatchFail key b st

/-- The batch that a done message with this number names, when it comes from a tile of this cluster (R210). -/
def XBatch.isDone (b : XBatch) (id : W32) (cluster : Nat) : Bool :=
  decide (b.id = id) && (match b.site with | .here k _ _ _ => decide (k = cluster) | .peer _ => false)

/-- DONE_MESSAGE: the oldest done message at the XDU of a die (R210, R211). -/
def execDoneMessage (die : Fin 4) (s : State) : Host.Outcome State Fault Refusal :=
  onDev s (fun d =>
    match d.live, takeFirst (fun (m : NocMsg) => decide (m.toEngine = some (0x40 + die.val))) d.tl.noc with
    | true, some (m, rest) =>
      let d := d.upTl (fun t => { t with noc := rest })
      let id : W32 := m.data.setWidth 32
      let st := (statusOf (bvFld m.data 48 8)).filter (fun s => decide (s.code < 0x16))
      let st := st.getD .malformed
      let tile := match m.src with | .tile t _ => t | .engine _ => 512
      let d := match m.src with | .tile t ch => d.updTile t (fun x => { x with cred := x.cred.set ch (min 8 (x.cred.get 8 ch + 1)) }) | .engine _ => d
      let mine (b : XBatch) : Bool := b.isDone id (clusterOf tile)
      if epochKind m.epoch (d.roleEpoch m.part) ≠ .current then d.finc (Reg.XDU_STALE_DROPd_COUNT die)
      else
        match d.xduFind mine with
        | some (key, c, b) =>
          if st ≠ .ok then d.xduBatchFail key b st
          else
            match b.site with
            | .peer _ => d
            | .here k _ off _ =>
              d.xduCollect key c b (clusterBase k + off + roundUp (4 * b.tokens.length) 64) (b.tokens.length * 4 * xWidth c.desc)
        | none =>
          match takeFirst (fun (x : XServed) => decide (x.id = id) && decide (x.cluster = clusterOf tile)) d.xdu.served with
          | some (x, rest) =>
            let st := if st = .ok then d.memStatus false x.out (x.tokens * 4 * x.width) else st
            (d.xduReturn x st).upXdu (fun s => { s with served := rest })
          | none =>
            let d := d.finc (Reg.XDU_STALE_DROPd_COUNT die)
            match takeFirst (fun (p : Nat × XBatch) => mine p.2) d.xdu.orphans with
            | some (_, rest) => d.upXdu (fun s => { s with orphans := rest })
            | none => d
    | _, _ => d)

/-- BATCH_TIMEOUT: a batch has waited longer than the limit (R212, R222). -/
def execBatchTimeout (id : W32) (s : State) : Host.Outcome State Fault Refusal :=
  onDev s (fun d =>
    if !d.live || decide (d.fget Reg.XDU_BATCH_TIMEOUT_LIMIT_US = 0) then d
    else
      match d.xduFind (fun b => decide (b.id = id)) with
      | some (key, _, b) => (d.finc (Reg.XDU_TIMEOUTd_COUNT (key / 64))).xduBatchFail key b .flushed
      | none =>
        match takeFirst (fun (p : Nat × XBatch) => decide (p.2.id = id)) d.xdu.orphans with
        | some ((die, _), rest) => (d.upXdu (fun s => { s with orphans := rest })).finc (Reg.XDU_TIMEOUTd_COUNT die)
        | none => d)

/-! ## Batches of peers (R213 to R215) -/

/-- The first whole dispatch-class message of a rank among the bursts delivered: its bursts' partition, its cells, and the
bursts that remain. -/
def Dev.dispatchMsg (d : Dev) (src : Nat) : Option (Nat × List (BitVec 512) × List OnfBurst) :=
  let here (b : OnfBurst) : Bool := decide (b.cls = 1) && decide (b.peer = src) && decide (1024 ≤ b.unit) && decide (b.unit % 256 / 4 = 0x10)
  match d.onf.inbox.filter here with
  | [] => none
  | b :: r =>
    let h := ((b.cells.head?).getD 0).toNat
    let n := fld h 96 16
    let w := fld h 112 16
    let rows := if fld h 0 8 = 2 then (if fld h 8 8 = 0 then n * 4 * w / 64 else 0) else n * trecOf (fld h 128 8) w / 64
    -- take bursts until the message is whole
    let got := r.foldl (fun (acc : List OnfBurst × Nat) x => if acc.2 < rows + 1 then (acc.1 ++ [x], acc.2 + x.cells.length) else acc) ([b], b.cells.length)
    if got.2 < rows + 1 then none
    else
      let k := got.1.length
      let rest := (d.onf.inbox.foldl (fun (acc : List OnfBurst × Nat) x =>
        if here x && decide (acc.2 < k) then (acc.1, acc.2 + 1) else (acc.1 ++ [x], acc.2)) ([], 0)).1
      some (b.part, got.1.flatMap (·.cells), rest)

/-- REMOTE_BATCH: a batch from a rank is placed on a cluster (R208, R214); an expert that no cluster here can serve is answered
with MALFORMED. -/
def execRemoteBatch (src : Fin 64) (s : State) : Host.Outcome State Fault Refusal :=
  onDev s (fun d =>
    match d.live, d.dispatchMsg src with
    | true, some (part, cells, rest) =>
      let head := (cells.head?).getD 0
      let h := head.toNat
      if fld h 0 8 ≠ 1 then d
      else
        let n := fld h 96 16
        let w := fld h 112 16
        let fmt := fld h 128 8
        let idx := (d.eptRec part).index (fld h 64 16) (fld h 80 16)
        let e := d.eptEntry idx
        let taken (d : Dev) : Dev := d.upOnf (fun o => { o with inbox := rest })
        if d.xdu.hurt.contains idx then
          ((taken d).eptRecord idx 0 0 part 0xFFFF).xduReturn ⟨src, BitVec.ofNat 32 (fld h 32 32), 0, part, n, w, head, 0, 0, 0, 0, 0⟩ .uncorrectable
        else
        match d.pickCluster (fun c => c / 8) (eptMask e) with
        | none => (taken d).xduReturn ⟨src, BitVec.ofNat 32 (fld h 32 32), 0, part, n, w, head, 0, 0, 0, 0, 0⟩ .malformed
        | some k =>
          let room := roomServed n w fmt
          let t := 16 * k + eptTile e
          match d.areaFind part k room with
          | none => d
          | some off =>
            if d.engineCredit t (eptMbox e) = 0 then d
            else
              let d := (taken d).finc (Reg.XDU_REMOTE_INd_COUNT (k / 8))
              let ix := off
              let out := off + roundUp (4 * n) 64
              let rows := out + n * 4 * w
              let x : XServed := ⟨src, BitVec.ofNat 32 (fld h 32 32), k / 8, part, n, w, head, k, t, off, room, clusterBase k + out⟩
              match d.memStatus true (clusterBase k + off) room with
              | .ok =>
                let d := d.memWrite (clusterBase k + ix) ((List.range n).flatMap (fun i => leBytes 4 i))
                let d := d.memWrite (clusterBase k + rows) ((cellBytes (cells.drop 1)).take (n * trecOf fmt w))
                let d := d.upXdu (fun s => { s with served := s.served ++ [x] })
                d.engineSend (0x40 + k / 8) t (eptMbox e) part
                  (notice (fld h 32 32) n (fld h 64 16) (fld h 80 16) fmt w (space1 k rows) (space1 k ix) (space1 k out) (eptWeights e))
              | st => d.xduReturn x st
    | _, _ => d)

/-- REMOTE_RESULT: a result from a rank enters the combine, or ends its context (R215, R221, R222). -/
def execRemoteResult (src : Fin 64) (s : State) : Host.Outcome State Fault Refusal :=
  onDev s (fun d =>
    match d.live, d.dispatchMsg src with
    | true, some (_, cells, rest) =>
      let h := ((cells.head?).getD 0).toNat
      if fld h 0 8 ≠ 2 then d
      else
        let d := d.upOnf (fun o => { o with inbox := rest })
        match d.xduFind (fun b => decide (b.id.toNat = fld h 32 32) && decide (b.site = .peer src)) with
        | none => d.fadd (Reg.XDU_STALE_DROPd_COUNT (fld h 62 2)) cells.length
        | some (key, c, b) =>
          if fld h 8 8 ≠ 0 then d.xduBatchFail key b ((statusOf (fld h 8 8)).getD .malformed)
          else d.xduOutputs key b (rowsOf (xWidth c.desc) b.tokens.length (cellBytes (cells.drop 1)))
    | _, _ => d)

/-! ## Counters and the table -/

/-- ZONE_COUNTER_WRITE: a write of `size` bytes at offset `off` of window 255 of a function's BAR4; `poisoned` is EP set (R196,
R307, R308, R515). -/
def execZoneCounterWrite (fn : Fin 264) (off size : Nat) (poisoned : Bool) (s : State) : Host.Outcome State Fault Refusal :=
  onDev s (fun d =>
    if !d.live || !d.isFn fn || (decide (1 ≤ fn.val) && decide (fn.val < 256)) then d
    else if d.bar4Shut || poisoned || decide (16383 < off) || decide (size ≠ 4) || decide (off % 4 ≠ 0) ||
        decide (d.zonePart (off / 4) = none) || decide (d.zonePart (off / 4) ≠ d.fnPart fn) then d.p2pDrop fn (255 * 134217728 + off)
    else d.finc (Reg.XDU_ZCNTz_COUNT (off / 4)))

/-- EPT_DATA0_READ: latches the entry that XDU_EPT_INDEX names and answers its first word (R223). -/
def execEptData0Read (s : State) : Host.Outcome State Fault Refusal :=
  onDev s (fun d =>
    if !d.alive then d
    else
      let e := d.eptEntry (d.fget Reg.XDU_EPT_INDEX_INDEX)
      (d.upXdu (fun x => { x with latch := e })).emit (.regRead 0 (Reg.XDU_EPT_DATAi 0) 4 (BitVec.ofNat 64 (bvFld e 0 32))))

end Sys2Proof.Machine
end

