-- ==== Sys2Proof/Machine/FabricOps.lean ====
section
/-! DEFINITION. Onaud links, lost ranks, leadership, route switches and congestion maps (R225 to R266). -/
namespace Sys2Proof.Machine
open Sys2Proof

/-! ## Lost paths (R259, R262) -/

/-- Every engine ends what waits on cells toward ranks that `hit` names: XDU, Samovar and placement (R262). -/
def Dev.pathLost (d : Dev) (hit : Nat → Bool) : Dev := ((d.xduPathLost hit).smvPathLost hit).memPathLost hit

/-- The active route toward a rank goes through rank r. -/
def Dev.routeVia (d : Dev) (r x : Nat) : Bool := decide (x = r) || decide (d.nextHop d.activeSet x = some r)

/-- The steep-window flow of a class toward a rank has used link n of its bundle (R236). -/
def Dev.usedLink (d : Dev) (n cls x : Nat) : Bool :=
  match d.nextHop d.activeSet x with
  | some h =>
    let ms := (d.bundle h).filter (fun k => decide (k = n) || decide (d.linkState k = 3))
    decide (d.mapRank n = h) && decide (ms[(5 * x + cls) % ms.length]? = some n)
  | none => false

/-- A link went down with cells in its replay buffer: contexts with cells sent over it end (R244, R262). -/
def Dev.linkLost (d : Dev) (n : Nat) : Dev :=
  let d := d.xduPathLost (d.usedLink n 1)
  let via (c : Coll) : Bool := c.gathered && c.peers.any (fun k =>
    decide (d.streamLink (if opPair c.op ∨ k ≠ c.succ then (d.grp c.group).pair + k else (d.grp c.group).ring) = some n))
  (d.smvFailWhere via .fabricPathLost Coll.self).memPathLost (d.usedLink n 3)

/-- Cells toward a lost rank are dropped, and it is announced (R259). -/
def Dev.loseRank (d : Dev) (r : Nat) : Dev :=
  if d.rankLost r ∨ r = d.rank then d
  else
    let gone (c : OnfCell) : Bool := decide (cellLane c ≠ 0) && decide (d.nextHop (hdrRoute c.hdr) (hdrDst c.hdr) = some r)
    let n := ((d.onf.links.vals.flatMap (·.queue)).filter gone).length
    let d := d.upOnf (fun o => { o with links := o.links.mapVal (fun _ l => { l with queue := l.queue.filter (fun c => !gone c) }) })
    let d := (d.fadd Reg.ONF_LOST_DROP_COUNT n).forb Reg.ONF_LOST_RANKS (2 ^ r)
    ((d.post 0 .rankLost 0 r).smvRankLost r).pathLost (d.routeVia r)

/-! ## The leader's choice of a route set (R249, R257, R260) -/

/-- The peer end of a link, where the leader knows it. -/
def Dev.peerOf (d : Dev) (x : Nat × Nat) : Option Nat :=
  if x.1 = d.rank ∧ d.mapUsed x.2 = true then some (d.mapRank x.2) else (d.onf.peersTold.find? (fun p => decide (p.1 = x))).map (·.2)

/-- A route set avoids a rank. -/
def Dev.setAvoids (d : Dev) (set r : Nat) : Bool := ((d.sec secRouteSets).u64 (256 * set + 0x40)).testBit r

/-- A route set covers a failed link: it names either end, or never passes through one of its ranks. -/
def Dev.setCovers (d : Dev) (set : Nat) (x : Nat × Nat) : Bool :=
  let b := d.sec secRouteSets
  let named := (List.range (b.u8 (256 * set + 0x48))).map (fun i => b.u16 (256 * set + 0x50 + 2 * i))
  let ends := x :: (if x.1 = d.rank then [(d.mapRank x.2, d.mapLink x.2)] else [])
  ends.any (fun e => named.contains (256 * e.1 + e.2)) || d.setAvoids set x.1 || ((d.peerOf x).any (d.setAvoids set)) = true

/-- The lowest-numbered set that covers every element to avoid. -/
def Dev.coveringSet (d : Dev) : Option Nat :=
  (List.range 4).find? (fun s => d.onf.avoidRanks.all (d.setAvoids s) && d.onf.avoidLinks.all (d.setCovers s))

/-- A SWITCH has been announced (R254). -/
def Dev.takeSwitch (d : Dev) (set frame epoch : Nat) (lost recal : W64) : Dev :=
  let d := d.upOnf (fun o => { o with switches := o.switches ++ [⟨set, frame, epoch, recal⟩] })
  let d := (d.fset Reg.ONF_ROUTE_STATUS_PENDING 1).fset Reg.ONF_ROUTE_STATUS_NEXT_SET ((d.onf.switches.head?.map (·.set)).getD set)
  (bitsOf 64 lost.toNat).foldl (fun d r => d.loseRank r) d

/-- The leader announces a route set at least 64 frames ahead (R254). -/
def Dev.announceSet (d : Dev) (set : Nat) : Dev :=
  let frame := d.onf.switches.foldl (fun f s => max f (s.frame + 1)) (d.frameNo + 65)
  let epoch := (d.fget Reg.ONF_ROUTE_STATUS_SCHED_EPOCH + d.onf.switches.length + 1) % 65536
  let lost := d.regGet Reg.ONF_LOST
  let recal := BitVec.ofNat 64 (maskOf ((List.range 64).filter (fun n => (d.onfLink n).recal)))
  d.announce (.switch set frame epoch lost recal) (fun d => d.takeSwitch set frame epoch lost recal)

/-- The leader looks for a set that covers what has failed; it waits while a switch is announced (R260, R261). -/
def Dev.review (d : Dev) : Dev :=
  if !d.leads || decide (d.onf.switches ≠ []) then d
  else
    match d.coveringSet with
    | some s =>
      let d := d.fset Reg.ONF_ROUTE_STATUS_NOCOVER 0
      if s = d.activeSet then d else d.announceSet s
    | none => ((d.fset Reg.ONF_ROUTE_STATUS_NOCOVER 1).releaseHeld).pathLost (fun r => d.routeFailed r)

/-- Elements have failed: the leader adds them to those that a set must avoid (R260). -/
def Dev.failed (d : Dev) (ranks : List Nat) (links : List (Nat × Nat)) : Dev :=
  (d.upOnf (fun o => { o with avoidRanks := (o.avoidRanks ++ ranks).eraseDups, avoidLinks := (o.avoidLinks ++ links).eraseDups })).review

/-- A FAULT reaches the leader (R258, R260). -/
def Dev.takeFault (d : Dev) (reporter link state : Nat) (lost : Option Nat) : Dev :=
  let x := (reporter, link)
  let d := match lost with
    | some r => d.upOnf (fun o => { o with peersTold := (x, r) :: o.peersTold.filter (fun p => decide (p.1 ≠ x)) })
    | none => d
  if state = 0 ∨ state = 4 then
    (d.upOnf (fun o => { o with failedLinks := (o.failedLinks ++ [x]).eraseDups })).failed [] [x]
  else if state = 3 then d.upOnf (fun o => { o with failedLinks := o.failedLinks.filter (fun y => decide (y ≠ x)) })
  else d

/-- Report a link to the leader (R258, R260). -/
def Dev.report (d : Dev) (n state : Nat) (lost : Option Nat) : Dev :=
  if d.leads then d.takeFault d.rank n state lost else d.toLeader d.rank (.fault d.rank n state lost)

/-- A rank is lost here; the leader counts it among the failed elements, and every link of its bundle is reported with it. -/
def Dev.rankGone (d : Dev) (r : Nat) : Dev :=
  let was := d.rankLost r
  let d := d.loseRank r
  if was then d
  else
    let d := (d.bundle r).foldl (fun d n => d.report n (d.linkState n) (some r)) d
    if d.leads then d.failed [r] [] else d

/-! ## Links (R225 to R229, R244) -/

/-- Move a cell that waited on a link to another member of its bundle; control cells are not moved. -/
def Dev.requeue (d : Dev) (c : OnfCell) : Dev :=
  if cellLane c = 0 then d
  else
    match d.transitLink c.hdr with
    | some (hop, k) => if d.rankLost hop then d.finc Reg.ONF_LOST_DROP_COUNT else d.pushCells k [c]
    | none => d.finc Reg.ONF_LOST_DROP_COUNT

/-- A link stops carrying cells: DOWN (0) or DISABLED (6).  Its replay buffer is lost, its waiting cells move or are dropped, and
the loss of the whole bundle loses the rank (R236, R244, R259). -/
def Dev.linkOut (d : Dev) (n st : Nat) : Dev :=
  let l := d.onfLink n
  let was := d.linkState n
  if was = st then d
  else
    let d := (d.setLinkState n st).fset (Reg.ONF_LINKn_CTL_RETRAIN n) 0
    let d := d.updLink n (fun l => { l with replay := [], queue := [], nak := false, failSeq := none })
    let d := if l.replay = [] then d else d.linkLost n
    let d :=
      if st = 0 ∧ d.mapUsed n = true ∧ (d.bundle (d.mapRank n)).all (fun k => decide (d.linkState k = 0)) = true then d.rankGone (d.mapRank n) else d
    let d := l.queue.foldl (fun d c => d.requeue c) d
    if (was = 3 ∨ was = 4 ∨ was = 5) ∧ st = 0 then d.report n 0 none else d

/-- The identity that this device's IDENT cells carry on a link (R227). -/
def Dev.ownIdent (d : Dev) (n : Nat) : Ident :=
  ⟨d.rank, n, d.fon Reg.GLB_STRAPS_LEADER, d.imageLeader, d.committed, d.regGet Reg.GLB_POD_IMAGE_ID, (d.regGet Reg.GLB_STRUCT_EPOCH).setWidth 32⟩

/-- G and P_MAX of a link (R239). -/
def Dev.linkG (d : Dev) (n : Nat) : Nat := (d.sec secOnaudSchedule).u16 (64 + 8 * n)
/-- P_MAX. -/
def Dev.linkPMax (d : Dev) (n : Nat) : Nat := (d.sec secOnaudSchedule).u16 (64 + 8 * n + 2)

/-- The frame start lies within ±8 slots of pod time (R252). -/
def Dev.frameAligned (d : Dev) : Bool := decide (-8 ≤ d.onf.offset) && decide (d.onf.offset ≤ 8)

/-- The first admission condition of a link that fails, 0 for none; `aligned` is the peer's frame alignment (R228). -/
def Dev.admitReason (d : Dev) (n : Nat) (aligned : Bool) : Nat :=
  match (d.onfLink n).ident with
  | none => 1
  | some i =>
    let lat := d.fget (Reg.ONF_LINKn_LAT_LAT0 n)
    if !d.committed || !i.committed then 1
    else if i.podImage ≠ d.regGet Reg.GLB_POD_IMAGE_ID ∨ i.leader ≠ d.imageLeader then 2
    else if i.rank ≠ d.mapRank n ∨ i.link ≠ d.mapLink n ∨ d.mapUsed n = false then 3
    else if 96 < lat ∨ d.linkPMax n < lat + d.linkG n then 4
    else if !d.frameAligned || !aligned then 5
    else 0

/-- Show the reason a link stays in ADMIT. -/
def Dev.showReason (d : Dev) (n : Nat) (aligned : Bool) : Dev :=
  if d.linkState n = 2 then d.fset (Reg.ONF_LINKn_STATE_REASON n) (d.admitReason n aligned) else d

/-- Of the lanes that have trained, those that self-test has not found bad (R559). -/
def Dev.goodLanes (d : Dev) (n : Nat) (lanes : BitVec 4) : BitVec 4 :=
  lanes &&& ~~~BitVec.ofNat 4 (maskOf ((List.range 4).filter (fun i => d.bst.onfBad.contains (4 * n + i))))

/-- A link stays DOWN: its die is fenced, or the device enters or is in STANDBY (R521, R544). -/
def Dev.linkBarred (d : Dev) (n : Nat) : Bool :=
  d.fbit Reg.RAS_FENCED_DIE_DIES (n / 16) || decide (d.fget Reg.PWR_STATE_STATE = 1) || d.inStandby

/-- Start training: nothing is known of the lanes or the peer yet. -/
def Dev.startTraining (d : Dev) (n : Nat) : Dev :=
  if d.linkBarred n then d.setLinkState n 0 else
  let d := (d.setLinkState n 1).fset (Reg.ONF_LINKn_STATE_LANES n) 0
  (d.updLink n (fun l => { l with ident := none, echoes := 0, echoMax := 0 })).emit (.ident n (d.ownIdent n))

/-- A latency measurement of a link in slots (R229). -/
def latencyOf (rt hold : Nat) : Nat := (rt - hold + 1) / 2

/-- A measurement on an open link: LAT_NOW, and SLIP when it passes the guard (R256). -/
def Dev.measure (d : Dev) (n lat : Nat) : Dev :=
  let d := d.fset (Reg.ONF_LINKn_LAT_LAT_NOW n) lat
  let lat0 := d.fget (Reg.ONF_LINKn_LAT_LAT0 n)
  let d := d.updLink n (fun l => { l with slip := max l.slip (lat - lat0) })
  if lat ≤ lat0 + d.linkG n ∨ d.fon (Reg.ONF_LINKn_STATE_SLIP n) = true then d
  else (d.fset (Reg.ONF_LINKn_STATE_SLIP n) 1).post 0 .linkSlip 0 (n + lat0 % 65536 * 2 ^ 16 + lat % 65536 * 2 ^ 32)

/-- A link comes into service with full credits and empty buffers; its peer is no longer lost (R228, R242). -/
def Dev.linkIn (d : Dev) (n : Nat) : Dev :=
  let st := if popBits 4 (d.fget (Reg.ONF_LINKn_STATE_LANES n)) = 4 then 3 else 4
  let d := d.updLink n (fun l =>
    { l with txSeq := 0, rxSeq := 0, replay := [], credits := ⟨[]⟩, owed := ⟨[]⟩, queue := [], nak := false, failSeq := none })
  let d := (d.setLinkState n st).fclr Reg.ONF_LOST_RANKS (2 ^ d.mapRank n)
  ((d.upOnf (fun o => { o with upSeen := true })).report n st none).releaseHeld

/-! ## Leadership (R247, R248, R251) -/

/-- Take a rank as leader. -/
def Dev.takeLeader (d : Dev) (r : Nat) (follow : Bool) : Dev :=
  let d := (d.fset Reg.ONF_POD_INFO_LEADER r).fset Reg.ONF_POD_INFO_IS_LEADER (b2n (r = d.rank && !follow))
  d.upOnf (fun o => { o with follows := follow, aligned := o.aligned || (decide (r = d.rank) && !follow) })

/-- PODTIME of a leader is followed (R248). -/
def Dev.podtimeTaken (d : Dev) (leader : Nat) : Bool :=
  if d.leads then decide (leader < d.rank) else if d.onf.follows then decide (leader ≤ d.leader) else decide (leader ≠ d.rank)

/-- A PODTIME copy is better than the one used last: a later broadcast, fewer hops, or on a tie a lower rank (R251). -/
def Dev.podtimeBetter (d : Dev) (bseq hops src : Nat) : Bool :=
  match d.onf.lastPod with
  | some (b, h, r) => if b = bseq then decide (hops < h) || (decide (hops = h) && decide (src < r)) else true
  | none => true

/-- Align to a PODTIME value that came on a link (R251): the first alignment steps the counter. -/
def Dev.alignTo (d : Dev) (link : Nat) (time : W64) : Dev :=
  let t := time.toNat + d.fget (Reg.ONF_LINKn_LAT_LAT0 link)
  let shift : Int := if d.onf.aligned then (t : Int) - (d.podTime : Int) else 0
  let d := if d.onf.aligned then d else d.regSet Reg.ONF_PODTIME (BitVec.ofNat 64 t)
  let d := d.upOnf (fun o => { o with aligned := true, offset := shift })
  d.fset Reg.ONF_ALIGN_OFFSET (BitVec.ofInt 8 (max (-128) (min 127 shift))).toNat

/-! ## Congestion maps (R265, R266) -/

/-- FRAMES as it applies: 0 to 15 count as 16. -/
def Dev.cmapFrames (d : Dev) : Nat := max 16 (d.fget Reg.ONF_CMAP_CTL_FRAMES)

/-- A link entry of this device's record; STEEP_USE is a free value (log entry 4). -/
def Dev.cmapEntry (d : Dev) (n : Nat) : Nat :=
  let l := d.onfLink n
  (Config.freeValue 7 (d.fresh + n)).toNat % 101 * 2 ^ 56 + min 65535 (d.fget (Reg.ONF_LINKn_STEEP_WAIT_MAX_COUNT n)) * 2 ^ 40 +
    min 65535 l.stalls * 2 ^ 24 + min 255 l.replays * 2 ^ 16 + min 255 l.slip * 2 ^ 8 + d.linkState n * 16

/-- This device's record for the interval that ends. -/
def Dev.cmapRecord (d : Dev) : List Byte :=
  leBytes 4 d.rank ++ leBytes 4 d.onf.interval ++ leBytes 8 d.podTime ++ leBytes 4 d.onf.cmapFrames ++ leBytes 1 d.activeSet ++
    List.replicate 11 0 ++ leBytes 8 (d.regGet Reg.ONF_LOST).toNat ++ List.replicate 24 0 ++ (List.range 64).flatMap (fun n => leBytes 8 (d.cmapEntry n))

/-- The leader writes a record to its ring and then the count of records written (R266). -/
def Dev.cmapWrite (d : Dev) (rec_ : List Byte) : Dev :=
  let root := d.fget Reg.ONF_CMAP_CTL_ROOT
  let lg := max 6 (min 16 (d.fget Reg.ONF_CMAP_CTL_RING_LOG2))
  let n := d.onf.written
  if !d.pf0Root root || ringFull n (d.fget Reg.ONF_CMAP_TAIL_TAIL) lg then d.finc Reg.ONF_CMAP_DROP_COUNT
  else
    match d.rootWrite root ((d.regGet Reg.ONF_CMAP_BASE).toNat + 576 * (n % 2 ^ lg)) rec_ false with
    | (d, false) => d.finc Reg.ONF_CMAP_DROP_COUNT
    | (d, true) =>
      ((d.rootWrite root (d.regGet Reg.ONF_CMAP_HEAD_ADDR).toNat (leBytes 8 (n + 1)) true).1).upOnf (fun o => { o with written := n + 1 })

/-- The leader receives a part of a rank's record, and writes the record once it is complete. -/
def Dev.cmapPart (d : Dev) (r part : Nat) (data : BitVec 384) : Dev :=
  let ps := (part, data) :: ((d.onf.parts.get [] r).filter (fun p => decide (p.1 ≠ part)))
  if (List.range 12).all (fun i => ps.any (fun p => decide (p.1 = i))) then
    let rec_ := (List.range 12).flatMap (fun i => leBytes 48 (((ps.find? (fun p => decide (p.1 = i))).map (fun p => p.2.toNat)).getD 0))
    (d.upOnf (fun o => { o with parts := o.parts.del r })).cmapWrite rec_
  else d.upOnf (fun o => { o with parts := o.parts.set r ps })

/-! ## Bursts that arrive (R255) -/

/-- Send an EPOCH_NAK for a burst, with its first cell's header and 52 bytes of that cell's payload. -/
def Dev.epochNak (d : Dev) (h : BitVec 96) (p : BitVec 512) : Dev :=
  let body := BitVec.ofNat 512 (h.toNat + p.toNat % 2 ^ 416 * 2 ^ 96)
  let hdr := mkHdr 3 (hdrClass h) (hdrSrc h) d.rank (hdrPart h) (d.roleEpoch (hdrPart h)).toNat 0 d.activeSet 0 0
  match (d.nextHop d.activeSet (hdrSrc h)).bind (fun hop => d.flowLink hop (hdrClass h) (hdrSrc h)) with
  | some k => d.pushCells k [⟨hdr, .data body⟩]
  | none => d.finc Reg.ONF_LOST_DROP_COUNT

/-- A unit of this device belongs to a partition, or is an engine endpoint, which serves every partition. -/
def Dev.unitAccepts (d : Dev) (unit part : Nat) : Bool := decide (1024 ≤ unit) || decide (d.tilePart (unit % 512) = some part)

/-- The first cell of a burst: its checks, and whether the burst is dropped. -/
def Dev.burstCheck (d : Dev) (h : BitVec 96) (p : BitVec 512) : Dev × Bool :=
  let key := 64 * hdrClass h + hdrSrc h
  let gap := match d.onf.rxTag.find key with | some t => decide (t ≠ hdrTag h) | none => false
  let d := if gap then d.finc Reg.ONF_TAG_GAP_COUNT else d
  let d := d.upOnf (fun o => { o with rxTag := o.rxTag.set key ((hdrTag h + 1) % 1024) })
  if !d.unitAccepts (hdrUnit h) (hdrPart h) then (d.finc Reg.ONF_PART_DROP_COUNT, true)
  else
    match epochKind (hdrEpoch h) (d.roleEpoch (hdrPart h)) with
    | .current => (d, false)
    | .mismatched =>
      let d := d.finc Reg.ONF_EPOCH_DROP_COUNT
      let d := if hdrClass h = 1 then d.fadd (Reg.XDU_EPOCH_DROPd_COUNT (hdrUnit h / 256 % 4)) (hdrRemain h + 1) else d
      (d.epochNak h p, true)
    | .malformed => (d.finc Reg.ONF_EPOCH_BAD_COUNT, true)

/-- A whole burst reaches its unit: packets go to the queue pairs, a placement acknowledgement to its own event, and the rest
waits for its engine. -/
def Dev.deliver (d : Dev) (b : OnfBurst) : Dev :=
  let bytes := cellBytes b.cells
  if b.cls = 2 ∧ b.unit = engineUnit 0 0x50 then
    let n := leNat ((bytes.drop 5).take 3).reverse
    (d.upEth (fun e => { e with inbox := e.inbox ++ [⟨n, false, some b.peer, 0, 0, 0, false, false, [], bytes, none, 0⟩] })).finc Reg.QPE_RX_PKTS_COUNT
  else if b.cls = 1 ∧ b.cells.length = 1 ∧ ¬ (1 ≤ leNat (bytes.take 1) ∧ leNat (bytes.take 1) ≤ 2) then d
  else d.upOnf (fun o => { o with inbox := o.inbox ++ [b] })

/-- A DATA cell for this device. -/
def Dev.takeData (d : Dev) (h : BitVec 96) (p : BitVec 512) : Dev :=
  let key := 64 * hdrClass h + hdrSrc h
  let more := match d.onf.rx.find key with
    | some b => if hdrTag b.first = hdrTag h ∧ hdrRemain h + b.cells.length = hdrRemain b.first then some b else none
    | none => none
  let r := match more with
    | some b => (d, { b with cells := b.cells ++ [p] })
    | none =>
      let x := d.burstCheck h p
      (x.1, ⟨x.2, h, [p]⟩)
  let d := r.1
  let b := r.2
  if hdrRemain h ≠ 0 then d.upOnf (fun o => { o with rx := o.rx.set key b })
  else
    let d := d.upOnf (fun o => { o with rx := o.rx.del key })
    if b.drop then d
    else d.deliver ⟨hdrClass h, hdrSrc h, hdrUnit b.first, hdrPart b.first, hdrEpoch b.first, b.cells⟩

end Sys2Proof.Machine
end

