-- ==== Sys2Proof/Machine/Ethernet.lean ====
section
/-! DEFINITION. Ethernet ports and transmit scheduling (chapter 10). -/
namespace Sys2Proof.Machine
open Sys2Proof

/-! ## Receiving -/

/-- A PAUSE or PFC frame is consumed (R354). -/
def Dev.rxPause (d : Dev) (p : Nat) (b : List Byte) : Dev :=
  let op := beAt b 14 2
  let set (d : Dev) (c q : Nat) : Dev :=
    if q = 0 then d.fclr (Reg.ETH_PORTp_STATUS_PAUSED p) (1 <<< c) else d.forb (Reg.ETH_PORTp_STATUS_PAUSED p) (1 <<< c)
  if op = 1 ∧ d.fcMode p = 1 then
    ((List.range 8).foldl (fun d c => set d c (beAt b 16 2)) d).finc (Reg.ETH_PORTp_PFC_RX_COUNT p)
  else if op = 0x0101 ∧ d.fcMode p = 2 then
    ((bitsOf 8 (beAt b 16 2)).foldl (fun d c => set d c (beAt b (18 + 2 * c) 2)) d).finc (Reg.ETH_PORTp_PFC_RX_COUNT p)
  else d.finc (Reg.ETH_PORTp_FC_IGNORED_COUNT p)

/-- Verify a protected frame: the frame it carries, or none (R379, R485). -/
def Dev.macsecOpen (d : Dev) (p : Nat) (b : List Byte) : Dev × Option (List Byte) :=
  let tci := beAt b 14 1
  let sc := tci.testBit 5
  let hdr := if sc then 28 else 20
  let live (a : BitVec 256) : Bool :=
    decide (d.slotMode (saFld a 2 2) = 5) && (d.slot (saFld a 2 2)).loaded && (!sc || decide (saFld a 8 8 = beAt b 20 8))
  match d.saFor p false (tci % 4) live with
  | none => (d, none)
  | some (n, a) =>
    let low := saFld a 0x10 8
    let pn := xpnRecover low (beAt b 16 4)
    if pn < low then (d, none)
    else
      let k := d.slot (saFld a 2 2)
      let ct := b.drop hdr
      let d := d.cadBlocks 0 (gcmBlocks (ct.length - 16))
      match gcmOpen (keyK1 k.key) (xpnNonce k.salt (saFld a 4 4) pn) (b.take hdr) ct with
      | none => (d.finc Reg.CAD_AUTH_FAIL_COUNT, none)
      | some plain =>
        let next := max low (pn + 1 - saFld a 0x18 4)
        (d.upEth (fun e => { e with sas := e.sas.set n (bvSet a 128 64 next) }), some (b.take 12 ++ plain))

/-- Deliver an admitted frame: RoCEv2 to QPE, a steered frame to its QP (R344, R349). -/
def Dev.rxDeliver (d : Dev) (p cls cells : Nat) (head : Bool) (steer : Option Nat) (stamp : Option Nat) (i : FrameInfo) (b : List Byte) : Dev :=
  let pkt (qpn : Nat) (raw : Bool) (bytes : List Byte) : RxPkt :=
    ⟨qpn, raw, none, p, cls, cells, head, decide (i.ecn = 3), i.ipBytes b, bytes, stamp, d.ptp⟩
  let push (d : Dev) (x : RxPkt) : Dev := ((d.upEth (fun e => { e with inbox := e.inbox ++ [x] })).finc Reg.QPE_RX_PKTS_COUNT).checkXoff p cls
  match steer with
  | some q => push d (pkt q true b)
  | none =>
    if i.roce b then
      if i.icrcOk b then
        let x := i.bthIcrc b
        let x := x.take (x.length - 4)
        push d (pkt (pktQpn x) false x)
      else (d.finc Reg.QPE_RX_PKTS_COUNT).finc Reg.QPE_ICRC_ERR_COUNT
    else d.finc (Reg.ETH_PORTp_RX_NO_MATCH_COUNT p)

/-- The rules, the policers and admission of a frame without FCS (R347 to R359). -/
def Dev.rxClassify (d : Dev) (p : Nat) (b : List Byte) : Dev :=
  let i := frameInfo b
  let r := d.ruleFor p i b
  let act := match r with | some r => ruleFld r 1 1 | none => 1
  if act = 0 then d.finc (Reg.ETH_PORTp_STR_DROP_COUNT p)
  else
    let cls := d.frameClass p i r
    let cnp := i.roce b && decide (pktOp (i.bthIcrc b) = 0x81)
    let ctl := cnp || decide (act = 3)
    let steer := if act = 2 then r.map (fun r => ruleFld r 0x20 4 % 2 ^ 24) else none
    let qpn := match steer with | some q => some q | none => if i.roce b then some (pktQpn (i.bthIcrc b)) else none
    let fn := (qpn.bind d.qp).map Qp.fn
    let n := b.length + 4
    let pol : Dev × Option (Colour × Option Nat) := if !ctl && d.lossless p cls then (d, some (.green, none)) else d.police p ctl fn i n
    match pol with
    | (d, none) => d.finc (Reg.ETH_PORTp_POL_RED_COUNT p)
    | (d, some (col, dscp)) =>
      let d := if dscp.isSome then d.finc (Reg.ETH_PORTp_POL_YELLOW_COUNT p) else d
      let b := match dscp with | some v => i.mark b v | none => b
      let stamp := match r with | some r => if (ruleFld r 0 1).testBit 1 then some d.ptp else none | none => none
      let cells := (n + 255) / 256
      match d.admitCells p cls cells col with
      | .shared => d.rxDeliver p cls cells false steer stamp i b
      | .headroom => d.rxDeliver p cls cells true steer stamp i b
      | .dropped true => d.finc (Reg.ETH_PORTp_HEADROOM_DROP_COUNT p)
      | .dropped false => d.finc (Reg.ETH_PORTp_BUF_DROP_COUNT p)

/-- RX_FRAME: a frame, destination address to FCS, arrives at a port, with a PCS error or not and the codewords that its
FEC corrected and could not correct (R344, R345). -/
def execRxFrame (p : Fin 32) (bytes : List Byte) (pcsErr : Bool) (corr uncorr : BitVec 32) (s : State) : Host.Outcome State Fault Refusal :=
  onDev s (fun d =>
    if !d.live || !d.portExists p || decide (d.portState p ≠ 3) then d
    else
      let d := (d.fadd (Reg.ETH_PORTp_FEC_CORR_COUNT p) corr.toNat).fadd (Reg.ETH_PORTp_FEC_UNCORR_COUNT p) uncorr.toNat
      let d := d.finc (Reg.ETH_PORTp_RX_FRAMES_COUNT p)
      let n := bytes.length
      let b := bytes.take (n - 4)
      let da := beAt bytes 0 6
      if n < 64 then d.finc (Reg.ETH_PORTp_RX_RUNT_COUNT p)
      else if pcsErr || decide (uncorr ≠ 0) then d.finc (Reg.ETH_PORTp_RX_PCS_ERR_COUNT p)
      else if leNat (bytes.drop (n - 4)) ≠ (crc32 b).toNat then d.finc (Reg.ETH_PORTp_RX_FCS_COUNT p)
      else if d.fget (Reg.ETH_PORTp_CTL_MTU p) < n then d.finc (Reg.ETH_PORTp_RX_OVERSIZE_COUNT p)
      else if !(beAt bytes 0 1).testBit 0 && decide (da ≠ d.fget (Reg.ETH_PORTp_MAC_ADDR p)) && !d.fon (Reg.ETH_PORTp_CTL_PROMISC p) then
        d.finc (Reg.ETH_PORTp_RX_DA_DROP_COUNT p)
      else if beAt b 12 2 = 0x8808 ∧ (beAt b 14 2 = 1 ∨ beAt b 14 2 = 0x0101) then d.rxPause p b
      else if d.fon (Reg.ETH_PORTp_CTL_MACSEC p) && decide (beAt b 12 2 ≠ 0x888E) then
        if beAt b 12 2 ≠ 0x88E5 then d.finc (Reg.ETH_PORTp_MACSEC_DROP_COUNT p)
        else
          match d.macsecOpen p b with
          | (d, some b) => d.rxClassify p b
          | (d, none) => d.finc (Reg.ETH_PORTp_MACSEC_DROP_COUNT p)
      else d.rxClassify p b)

/-- PAUSE_EXPIRY: a received pause of a class runs out; under PAUSE it held every class (R354). -/
def execPauseExpiry (p : Fin 32) (c : Fin 8) (s : State) : Host.Outcome State Fault Refusal :=
  onDev s (fun d => d.fclr (Reg.ETH_PORTp_STATUS_PAUSED p) (if d.fcMode p = 1 then 255 else 1 <<< c.val))

/-- PFC_REPEAT: the pause is repeated while the class stays above XON (R355). -/
def execPfcRepeat (p : Fin 32) (c : Fin 8) (s : State) : Host.Outcome State Fault Refusal :=
  onDev s (fun d =>
    if d.live && d.eth.xoff.contains (8 * p + c) && decide (d.fget (Reg.ETH_PORTp_BUFc_XON p c) < d.cellsOf p c false + d.cellsOf p c true)
    then d.sendPause p c 0xFFFF else d)

/-! ## Transmitting (R361 to R369) -/

/-- The head frame of a subscriber in a class: the first frame staged by the QP that became eligible first. -/
def Dev.subHead (d : Dev) (p c s : Nat) : Option TxFrame :=
  if d.onWheel (subWho s) then none
  else
    d.txs.order.findSome? (fun w =>
      match d.txs.ready.find? (fun f => decide (f.who = w)) with
      | some f => if f.port = p ∧ f.cls = c ∧ f.sub = s then some f else none
      | none => none)

/-- The frame that start-time fair queueing picks in a class: the smallest start tag, the lower subscriber on a tie. -/
def Dev.classHead (d : Dev) (p c : Nat) : Option TxFrame :=
  let subs := ((d.txs.ready.filter (fun f => decide (f.port = p) && decide (f.cls = c))).map (·.sub)).eraseDups
  let heads := subs.filterMap (fun s => d.subHead p c s)
  heads.foldl (fun (best : Option TxFrame) f =>
    match best with
    | none => some f
    | some g =>
      let sf := d.txs.start.get 0 (8 * f.sub + c)
      let sg := d.txs.start.get 0 (8 * g.sub + c)
      if tagBefore sf sg ∨ (sf % 2 ^ 48 = sg % 2 ^ 48 ∧ f.sub < g.sub) then some f else some g) none

/-- The transmit SA in use on a port: VALID, with a key, and with packet numbers left (R378, R485). -/
def Dev.txSa (d : Dev) (p : Nat) : Option (Nat × BitVec 256) :=
  d.saFor p true (d.fget (Reg.ETH_PORTp_CTL_TX_AN p)) (fun a =>
    decide (d.slotMode (saFld a 2 2) = 5) && (d.slot (saFld a 2 2)).loaded && decide (saFld a 0x10 8 < 0xFFFFFFFF00000000))

/-- The MACsec overhead of a port's frames now. -/
def Dev.secExtra (d : Dev) (p : Nat) : Nat :=
  if d.fon (Reg.ETH_PORTp_CTL_MACSEC p) then (match d.txSa p with | some (_, a) => macsecExtra a | none => 24) else 0

/-- A frame's time on the wire with guard, in whole ns rounded up (R366). -/
def Dev.txNs (d : Dev) (p n : Nat) : Nat :=
  ((n + 20 + d.secExtra p) * 8000 + d.portRate p - 1) / max 1 (d.portRate p) + d.fget (Reg.TXS_GATEp_GUARD_GUARD_NS p)

/-- A frame fits the gates (R366). -/
def Dev.gateFits (d : Dev) (p : Nat) (f : TxFrame) : Bool := d.openFor p f.cls 1024 d.ptp (d.txNs p (frameLen f))

/-- CBS credit of a class, in bytes times the port rate. -/
def Dev.cbsCredit (d : Dev) (p c : Nat) : Int := d.txs.cbs.get 0 (8 * p + c)

/-- Classes that could send but for their gates: not paused, credit not negative, a transmit SA at hand. -/
def Dev.txReady (d : Dev) (p : Nat) : List TxFrame :=
  if d.fon (Reg.ETH_PORTp_CTL_MACSEC p) && (d.txSa p).isNone then []
  else
    (List.range 8).filterMap (fun c =>
      match d.classHead p c with
      | some f => if d.fbit (Reg.ETH_PORTp_STATUS_PAUSED p) c || (d.cbsOn p c && decide (d.cbsCredit p c < 0)) then none else some f
      | none => none)

/-- Deficit round robin (R362): from the class served last, with the deficits; `n` bounds the visits. -/
def Dev.drrPick (d : Dev) (p : Nat) (fs : List TxFrame) : Nat → Nat → Tab Nat → Option (TxFrame × Nat × Tab Nat)
  | 0, _, _ => none
  | n + 1, at_, def_ =>
    let here := fs.find? (fun f => decide (f.cls = at_))
    let have_ := def_.get 0 (8 * p + at_)
    match here with
    | some f =>
      if frameLen f ≤ have_ then some (f, at_, def_.set (8 * p + at_) (have_ - frameLen f))
      else
        let nx := (at_ + 1) % 8
        d.drrPick p fs n nx (def_.set (8 * p + nx) (def_.get 0 (8 * p + nx) + (if fs.any (fun f => decide (f.cls = nx)) then d.wrr p nx * 1024 else 0)))
    | none =>
      let nx := (at_ + 1) % 8
      d.drrPick p fs n nx ((def_.set (8 * p + at_) 0).set (8 * p + nx)
        (def_.get 0 (8 * p + nx) + (if fs.any (fun f => decide (f.cls = nx)) then d.wrr p nx * 1024 else 0)))

/-- The frame a port sends next, with its deficits updated. -/
def Dev.txPick (d : Dev) (p : Nat) : Option (TxFrame × Dev) :=
  let fs := (d.txReady p).filter (fun f => d.gateFits p f)
  match (fs.filter (fun f => (d.spMask p).testBit f.cls)).getLast? with
  | some f => some (f, d)
  | none =>
    match d.drrPick p fs 4096 (d.txs.drrAt.get 0 p) d.txs.deficit with
    | some (f, a, t) => some (f, d.upTxs (fun x => { x with drrAt := x.drrAt.set p a, deficit := t }))
    | none => none

/-- Credits after a frame of class c of `n` bytes on the wire (R363): the class falls, and shaped classes that wait rise,
unless paused or gated. -/
def Dev.cbsSent (d : Dev) (p c n : Nat) : Dev :=
  let r := d.portRate p
  (List.range 8).foldl (fun d k =>
    if !d.cbsOn p k then d
    else
      let cr := d.cbsCredit p k
      let waits := (d.txs.ready.any (fun f => decide (f.port = p) && decide (f.cls = k)))
      let cr' : Int :=
        if k = c then
          let x := cr - ((r - d.idleSlope p k) * n : Nat)
          if !waits && decide (0 < x) then 0 else x
        else if waits && !d.fbit (Reg.ETH_PORTp_STATUS_PAUSED p) k && (d.gatesAt p d.ptp).2.1.testBit k then
          min (d.hiCredit p k * r : Nat) (cr + (d.idleSlope p k * n : Nat))
        else cr
      d.upTxs (fun t => { t with cbs := t.cbs.set (8 * p + k) cr' })) d

/-- Push a transmit timestamp (R375). -/
def Dev.pushTxts (d : Dev) (p tag : Nat) : Dev :=
  let q := d.eth.txts.get [] p
  if 64 ≤ q.length then d.finc (Reg.ETH_PORTp_TXTS_DROP_COUNT p)
  else d.upEth (fun e => { e with txts := e.txts.set p (q ++ [(tag, d.ptp % 2 ^ 48)]) })

/-- The next eligible times of the QP and its subscriber after a frame (R368, R417). -/
def Dev.pace (d : Dev) (f : TxFrame) : Dev :=
  let n := frameLen f
  let d := match d.qp f.who with
    | some q =>
      if q.get 1 1 = 0 ∧ d.fon Reg.QPE_CC_EN_EN = true ∧ q.get 0x60 4 ≠ 0 then
        let t := q.get 0x70 8 + n * 8000 * 256 / q.get 0x60 4
        let q := (q.put 0x70 8 t).put 0x6C 4 (q.get 0x6C 4 + n)
        (d.upQpe (fun x => { x with qps := x.qps.set f.who q })).wheelEnter f.who t
      else d
    | none => d
  let rate := d.subRate f.sub
  if rate = 0 then d
  else
    let t := d.txs.subTime.get 0 f.sub + n * 8000 * 256 / rate
    (d.upTxs (fun x => { x with subTime := x.subTime.set f.sub t })).wheelEnter (subWho f.sub) t

/-- Take a frame out of the staged ones and move the tags of its class on (R361). -/
def Dev.unstage (d : Dev) (f : TxFrame) : Dev :=
  let k := 8 * f.sub + f.cls
  let v := d.txs.start.get 0 k
  let fin := v + (frameLen f * 256 + d.subWeight f.sub - 1) / max 1 (d.subWeight f.sub)
  let rest := match takeFirst (fun g => decide (g = f)) d.txs.ready with | some (_, r) => r | none => d.txs.ready
  let more := rest.any (fun g => decide (g.sub = f.sub) && decide (g.cls = f.cls))
  let d := d.hwmNote f.sub
  d.upTxs (fun t =>
    { t with ready := rest, vtime := t.vtime.set (8 * f.port + f.cls) (v % 2 ^ 48), finish := t.finish.set k (fin % 2 ^ 48),
             start := if more then t.start.set k (tagMax v fin % 2 ^ 48) else t.start.del k,
             order := t.order.filter (fun w => decide (w ≠ f.who)), waited := t.waited.filter (fun w => decide (w ≠ 8 * f.port + f.cls)) })

/-- Count the classes whose head frame waits for its gate, each frame once (R366). -/
def Dev.noteGateWaits (d : Dev) (p : Nat) : Dev :=
  ((d.txReady p).filter (fun f => !d.gateFits p f && !d.txs.waited.contains (8 * p + f.cls))).foldl (fun d f =>
    (d.finc (Reg.TXS_GATEp_WAIT_COUNT p)).upTxs (fun t => { t with waited := t.waited ++ [8 * p + f.cls] })) d

/-- Put a frame on the wire: protected under the port's SA, or dropped when protection makes it too long (R376, R378). -/
def Dev.txWire (d : Dev) (f : TxFrame) : Dev :=
  let p := f.port
  let sent (d : Dev) (sec : Option (Nat × Nat)) : Dev :=
    let d := (d.emit (.frame p sec f)).finc (Reg.ETH_PORTp_TX_FRAMES_COUNT p)
    match f.tag with | some t => d.pushTxts p t | none => d
  if d.fon (Reg.ETH_PORTp_CTL_MACSEC p) then
    match d.txSa p with
    | none => d
    | some (n, a) =>
      if d.fget (Reg.ETH_PORTp_CTL_MTU p) < frameLen f + macsecExtra a then d.finc (Reg.ETH_PORTp_TX_OVERSIZE_COUNT p)
      else
        let pn := saFld a 0x10 8
        let d := (d.upEth (fun e => { e with sas := e.sas.set n (bvSet a 128 64 (pn + 1)) })).cadBlocks 0 (gcmBlocks (frameLen f - 16))
        sent d (some (saFld a 1 1, pn))
  else sent d none

/-- FRAME_TRANSMIT: the port picks and sends its next eligible frame. -/
def execFrameTransmit (p : Fin 32) (s : State) : Host.Outcome State Fault Refusal :=
  onDev s (fun d =>
    if !d.live || decide (d.portState p ≠ 3) then d
    else
      let d := d.noteGateWaits p
      match d.txPick p with
      | none => d
      | some (f, d) =>
        let n := frameLen f + 20 + d.secExtra p
        let d := ((d.unstage f).txWire f).cbsSent p f.cls n
        let d := ((d.pace f).finc Reg.QPE_TX_PKTS_COUNT).activate f.who
        match f.fin with
        | some (qid, idx) => d.wqFinish qid idx .ok 0 0
        | none => d)

/-! ## Ports -/

/-- The HEADROOM that R355's formula gives a port rate in Mb/s. -/
def headroomDefault (rate : Nat) : Nat := (rate * 2900 / 8 + 20000 * 1000 + 255999) / 256000

/-- A port stops being UP (R343). -/
def Dev.portStop (d : Dev) (p st : Nat) : Dev :=
  let d := (d.setPortState p st).fset (Reg.ETH_PORTp_STATUS_PAUSED p) 0
  d.upTxs (fun t => { t with cbs := (List.range 8).foldl (fun c k => c.del (8 * p + k)) t.cbs })

/-- GROUP_MODE_WRITE: the lane groups take their modes, and the ports of groups that are not off train.  The field is RWL:
a write after commit changes nothing (R10, R343). -/
def execGroupModeWrite (val : W32) (s : State) : Host.Outcome State Fault Refusal :=
  onDev s (fun d =>
    if !d.alive || d.committed then d
    else
      let old := d.grpMode
      let d := d.regSet Reg.ETH_GRP_MODE (BitVec.ofNat 64 (fld val.toNat 0 16))
      (List.range 32).foldl (fun d p =>
        if old (p / 8) = d.grpMode (p / 8) then d
        else if d.portExists p then
          let d := d.portStop p (if d.portBarred p then 1 else 2)
          (List.range 8).foldl (fun d c => d.fset (Reg.ETH_PORTp_BUFc_HEADROOM p c) (headroomDefault (d.portRate p))) d
        else d.portStop p 0) d)

/-- PORT_TRAINING_DONE: link training of a port ends and the port is UP. -/
def execPortTrainingDone (p : Fin 32) (s : State) : Host.Outcome State Fault Refusal :=
  onDev s (fun d =>
    if d.running && d.portExists p && decide (d.portState p = 1 ∨ d.portState p = 2) && !d.portBarred p then d.setPortState p 3
    else d)

/-- PORT_DOWN: a port leaves UP. -/
def execPortDown (p : Fin 32) (s : State) : Host.Outcome State Fault Refusal :=
  onDev s (fun d => if decide (d.portState p = 3) && d.alive then d.portStop p 1 else d)

/-! ## Gates (R365, R367) -/

/-- Show the entry and gates in force now. -/
def Dev.showGates (d : Dev) (p : Nat) : Dev :=
  let g := d.gatesAt p d.ptp
  (d.fset (Reg.TXS_GATEp_STATUS_ENTRY p) g.1).fset (Reg.TXS_GATEp_STATUS_GATES p) g.2.1

/-- GATE_ENTRY: an entry's interval ends and the next entry's gates take effect. -/
def execGateEntry (p : Fin 32) (s : State) : Host.Outcome State Fault Refusal :=
  onDev s (fun d => if d.live then d.showGates p else d)

/-- GATE_GO: a write of TXS_GATEp_CTL with GO checks the list it names and makes its switch wait, or sets SWITCH_ERR. -/
def execGateGo (p : Fin 32) (list en : Bool) (s : State) : Host.Outcome State Fault Refusal :=
  onDev s (fun d =>
    if !d.alive then d
    else
      let d := (d.fset (Reg.TXS_GATEp_CTL_LIST p) (b2n list)).fset (Reg.TXS_GATEp_CTL_EN p) (b2n en)
      if d.gateListOk p (b2n list) then
        ((d.upTxs (fun t => { t with pend := t.pend.set p ⟨b2n list, d.fget (Reg.TXS_GATEp_BASE_NS p)⟩ })).fset (Reg.TXS_GATEp_CTL_PENDING p) 1).fset
          (Reg.TXS_GATEp_CTL_GO p) 1
      else (d.fset (Reg.TXS_GATEp_CTL_SWITCH_ERR p) 1).fset (Reg.TXS_GATEp_CTL_GO p) 0)

/-- GATE_SWITCH: the waiting list takes effect. -/
def execGateSwitch (p : Fin 32) (s : State) : Host.Outcome State Fault Refusal :=
  onDev s (fun d =>
    match d.txs.pend.find p with
    | none => d
    | some x =>
      let d := d.upTxs (fun t => { t with pend := t.pend.del p, base := t.base.set p x.base })
      let d := d.fset (Reg.TXS_GATEp_STATUS_ACTIVE_LIST p) x.list
      ((d.fset (Reg.TXS_GATEp_CTL_PENDING p) 0).fset (Reg.TXS_GATEp_CTL_GO p) 0).showGates p)

/-! ## Rules and SAs (R350, R377) -/

/-- The number in `n` DATA registers of ETH, the first lowest. -/
def Dev.ethWords (d : Dev) (reg : Nat → Nat) (n : Nat) : Nat := (List.range n).foldr (fun i acc => (d.regGet (reg i)).toNat % 2 ^ 32 + 2 ^ 32 * acc) 0

/-- Put a number into DATA registers. -/
def Dev.ethPut (d : Dev) (reg : Nat → Nat) (n x : Nat) : Dev :=
  (List.range n).foldl (fun d i => d.regSet (reg i) (BitVec.ofNat 64 (fld x (32 * i) 32))) d

/-- RULE_WRITE: a Strainer rule is replaced in one update. -/
def execRuleWrite (s : State) : Host.Outcome State Fault Refusal :=
  onDev s (fun d =>
    if d.alive then
      let x : BitVec 512 := BitVec.ofNat 512 (d.ethWords Reg.ETH_STR_DATAi 16)
      let i := d.fget Reg.ETH_STR_INDEX_RULE
      d.upEth (fun e => { e with rules := if x = 0 then e.rules.del i else e.rules.set i x })
    else d)

/-- RULE_READ: a rule is copied into the DATA registers. -/
def execRuleRead (s : State) : Host.Outcome State Fault Refusal :=
  onDev s (fun d => if d.alive then d.ethPut Reg.ETH_STR_DATAi 16 (d.eth.rules.get 0 (d.fget Reg.ETH_STR_INDEX_RULE)).toNat else d)

/-- SA_WRITE: an SA entry is replaced in one update. -/
def execSaWrite (s : State) : Host.Outcome State Fault Refusal :=
  onDev s (fun d =>
    if d.alive then
      let x : BitVec 256 := BitVec.ofNat 256 (d.ethWords Reg.ETH_SA_DATAi 8)
      let i := d.fget Reg.ETH_SA_INDEX_SA
      d.upEth (fun e => { e with sas := if x = 0 then e.sas.del i else e.sas.set i x })
    else d)

/-- SA_READ: an SA entry is copied into the DATA registers. -/
def execSaRead (s : State) : Host.Outcome State Fault Refusal :=
  onDev s (fun d => if d.alive then d.ethPut Reg.ETH_SA_DATAi 8 (d.eth.sas.get 0 (d.fget Reg.ETH_SA_INDEX_SA)).toNat else d)

/-- PTP_ADJ: the signed value is added to the PTP clock once (R373). -/
def execPtpAdj (step : W64) (s : State) : Host.Outcome State Fault Refusal :=
  onDev s (fun d => if d.alive then d.regSet Reg.ETH_PTP_NS (d.regGet Reg.ETH_PTP_NS + step) else d)

/-- WHEEL_SLOT: a slot of the fine or coarse level becomes current (R368). -/
def execWheelSlot (coarse : Bool) (slot : BitVec 12) (s : State) : Host.Outcome State Fault Refusal :=
  onDev s (fun d =>
    if !d.live then d
    else
      let here (w : WheelEnt) : Bool := decide (w.coarse = coarse) && decide (w.slot = slot.toNat)
      let due := d.txs.wheel.filter here
      let d := d.upTxs (fun t => { t with wheel := t.wheel.filter (fun w => !here w) })
      due.foldl (fun d w => ((if coarse then d.wheelEnter w.who w.time else d)).activate w.who) d)

/-! ## Observation (R371, R372, R375) -/

/-- The bytes of a sample record. -/
def Dev.sampleRecord (d : Dev) : List Byte :=
  let n := d.subscribers
  let hdr := leBytes 8 d.podTime ++ leBytes 4 d.txs.samples ++ leBytes 2 n ++ leBytes 50 0
  let body := (List.range n).flatMap (fun s => leBytes 4 (min 0xFFFFFFFF (d.subDelay s)) ++ leBytes 4 (min 0xFFFFFFFF (d.subDepth s)))
  hdr ++ body ++ leBytes ((64 - (64 + 8 * n) % 64) % 64) 0

/-- A record has gone to the ring: the count of records written follows it; one that could not be written is dropped. -/
def sampleEnd (root w : Nat) : Dev × Bool → Dev
  | (d, false) => d.finc Reg.TXS_SAMPLE_DROP_COUNT
  | (d, true) =>
    ((d.upTxs (fun t => { t with written := w + 1 })).rootWrite root (d.fget Reg.TXS_SAMPLE_HEAD_ADDR_ADDR) (leBytes 8 (w + 1)) true).1

/-- TXS_SAMPLE: every 10 µs a record of every subscriber is written to the ring. -/
def execTxsSample (s : State) : Host.Outcome State Fault Refusal :=
  onDev s (fun d =>
    let n := d.subscribers
    let d := if d.live then (d.txs.ready.map (·.sub)).eraseDups.foldl (fun d s => d.hwmNote s) d else d
    if !d.live || !d.committed || !d.fon Reg.TXS_SAMPLE_CTL_EN || decide (4096 < n) then d
    else
      let lg := d.fget Reg.TXS_SAMPLE_CTL_RING_LOG2
      let w := d.txs.written
      let size := (64 + 8 * n + 63) / 64 * 64
      let root := d.fget Reg.TXS_SAMPLE_CTL_ROOT
      let rec_ := d.sampleRecord
      let d := d.upTxs (fun t => { t with samples := (t.samples + 1) % 2 ^ 32 })
      if !d.pf0Root root || ringFull w (d.fget Reg.TXS_SAMPLE_TAIL_TAIL) lg then d.finc Reg.TXS_SAMPLE_DROP_COUNT
      else
        sampleEnd root w (d.rootWrite root (d.fget Reg.TXS_SAMPLE_BASE_ADDR + size * (w % 2 ^ lg)) rec_ false))

/-- HWM_READ: the marks of a subscriber are returned and cleared. -/
def execHwmRead (s : State) : Host.Outcome State Fault Refusal :=
  onDev s (fun d =>
    if d.alive then
      let i := d.fget Reg.TXS_HWM_INDEX_SUBSCRIBER
      let d := d.hwmNote i
      let m := d.txs.hwm.get (0, 0) i
      (d.upTxs (fun t => { t with hwm := t.hwm.del i })).emit (.regRead 0 Reg.TXS_HWM_DATA 8 (BitVec.ofNat 64 (m.1 + m.2 * 2 ^ 32)))
    else d)

/-- The oldest transmit timestamp of a port as its register shows it. -/
def Dev.txtsWord (d : Dev) (p : Nat) : W64 :=
  match d.eth.txts.get [] p with
  | (tag, ns) :: _ => BitVec.ofNat 64 (ns % 2 ^ 48 + tag % 2 ^ 15 * 2 ^ 48 + 2 ^ 63)
  | [] => 0

/-- TXTS_READ: the oldest transmit timestamp of a port is returned and removed. -/
def execTxtsRead (p : Fin 32) (s : State) : Host.Outcome State Fault Refusal :=
  onDev s (fun d =>
    if d.alive then
      let v := d.txtsWord p
      (d.upEth (fun e => { e with txts := e.txts.set p (e.txts.get [] p).tail })).emit (.regRead 0 (Reg.ETH_PORTp_TXTS p) 8 v)
    else d)

end Sys2Proof.Machine
end

