-- ==== Sys2Proof/Machine/QpResp.lean ====
section
/-! DEFINITION. The responder of a queue pair: how arriving requests are placed and answered (R394 to R409). -/
namespace Sys2Proof.Machine
open Sys2Proof

/-! ## Reading packets -/

/-- What the headers of an arriving packet say. -/
structure ReqPkt where
  psn : Nat
  op : Nat
  /-- SEND or WRITE packets: which, and the packet's place in its message. -/
  write : Bool
  first : Bool
  last : Bool
  /-- Offsets of the immediate, if there is one, and of the payload. -/
  imm : Option Nat
  data : Nat
  /-- RETH. -/
  addr : Nat
  key : Nat
  len : Nat
  /-- UPH. -/
  uFirst : Nat
  flagged : Bool
  num : Nat
  deriving DecidableEq, Repr

/-- Where the headers behind the BTH and UPH of a QP start. -/
def Qp.hdrAt (q : Qp) : Nat := if q.unord then 20 else 12

/-- Read a packet of an RC QP. -/
def parseReq (q : Qp) (b : List Byte) : ReqPkt :=
  let op := pktOp b
  let o := q.hdrAt
  let write := decide (6 ≤ op ∧ op ≤ 11)
  let k := if write then op - 6 else op
  let first := decide (k = 0 ∨ k = 4 ∨ k = 5)
  let hasReth := write && (first || q.unord)
  let oi := o + (if hasReth then 16 else 0)
  let hasImm := decide (op ≤ 11 ∧ (k = 3 ∨ k = 5))
  { psn := pktPsn b, op := op, write := write, first := first, last := decide (2 ≤ k ∧ k ≤ 5),
    imm := if hasImm then some (beAt b oi 4) else none, data := oi + (if hasImm then 4 else 0),
    addr := beAt b o 8, key := beAt b (o + 8) 4, len := beAt b (o + 12) 4,
    uFirst := beAt b 12 3, flagged := q.unord && (beAt b 15 1).testBit 0, num := beAt b 16 3 }

/-- The payload of a packet that starts at an offset.  A packet over Onaud fills its last cell: its length is `known` or, when
nothing gives it, a free value (log entry 4). -/
def Dev.pktData (d : Dev) (q : Qp) (x : RxPkt) (o : Nat) (known : Option Nat) : List Byte :=
  let raw := x.bytes.drop o
  if x.rank.isSome then
    match known with
    | some n => raw.take n
    | none => raw.take (min q.mtu (raw.length - (Config.freeValue 6 d.fresh).toNat))
  else raw.take (raw.length - beAt x.bytes 1 1 / 16 % 4)

/-- The length that a SEND or WRITE packet's payload must have, where its message tells it. -/
def Qp.knownLen (q : Qp) (r : ReqPkt) : Option Nat :=
  if !r.last then some q.mtu
  else if q.unord then (if r.write then some (q.streamLen r.len - psnSub r.psn r.uFirst * q.mtu) else none)
  else if r.first then (if r.write then some (q.streamLen r.len) else none)
  else match q.cur with
    | some c => if c.write then some (q.streamLen c.len - psnSub r.psn c.first * q.mtu) else none
    | none => none

/-- The row of the table that takes a packet of a QPN: 0 SEND, WRITE and what no other row takes, 1 READ request, 2 atomic,
3 Acknowledge, 4 sequence-error NAK, 5 RNR NAK, 6 error NAK, 7 READ response, 8 Atomic Acknowledge, 9 UD, 10 CNP, 11 RTT_REQ,
12 RTT_RSP. -/
def Dev.pktRow (d : Dev) (n : Nat) (x : RxPkt) : Nat :=
  let op := pktOp x.bytes
  let q := d.qp n
  let synd := beAt x.bytes (match q with | some q => q.hdrAt | none => 12) 1
  if x.raw then 9
  else if op = 0x81 then 10 else if op = 0xC0 then 11 else if op = 0xC1 then 12
  else if (match q with | some q => q.isUd | none => decide (op = 0x64 ∨ op = 0x65)) = true then 9
  else if op = 0x0C then 1
  else if op = 0x13 ∨ op = 0x14 then 2
  else if op = 0x11 then (if synd < 0x20 then 3 else if synd < 0x40 then 5 else if synd = 0x60 then 4 else 6)
  else if 0x0D ≤ op ∧ op ≤ 0x10 then 7
  else if op = 0x12 then 8
  else 0

/-! ## Congestion marks (R414) -/

/-- Note ECN CE on an RC data packet, and answer it with a CNP unless one went out lately. -/
def Dev.ecnNote (d : Dev) (n : Nat) (q : Qp) (x : RxPkt) : Dev :=
  if !x.ce || q.isUd || q.onaud || decide (0x10 < pktOp x.bytes) then d
  else
    let d := d.finc Reg.QPE_ECN_RX_COUNT
    let soon := match q.cnpAt with
      | some t => decide (d.clk - t < 1000 * d.fget Reg.QPE_CC_CNP_INTERVAL_US)
      | none => false
    if soon then d
    else
      let b := q.pkt 0x81 q.dest 0 false (uph 0 false false 0) [] (List.replicate 16 0)
      let d := (d.updQp n (fun q => { q with cnpAt := some d.clk })).finc Reg.QPE_CNP_TX_COUNT
      d.qpSend n q q.path (some (d.fget Reg.QPE_CC_CNP_CLASS, d.fget Reg.QPE_CC_CNP_DSCP)) b false none none

/-- Take the oldest packet of a QPN when it belongs to a row and `ok` of it; a responder's packets are served in RTR and
RTS, a requester's in RTS (R388, R452). -/
def Dev.withRx (d : Dev) (n row : Nat) (responder : Bool) (ok : RxPkt → Bool) (act : Dev → Qp → RxPkt → Dev) : Dev :=
  if !d.live then d
  else
    match d.takeRx n (fun x => decide (d.pktRow n x = row) && ok x) with
    | none => d
    | some (x, d) =>
      let d := if x.rank.isSome then d.bump else d
      match d.qp n with
      | none => d.finc Reg.QPE_NO_QP_COUNT
      | some q =>
        if responder then
          if d.fnState q.fn = 3 ∨ d.fnState q.fn = 4 then d.finc (Reg.VFM_FNf_FROZEN_DROP_COUNT q.fn)
          else if q.state = 2 ∨ q.state = 3 then act (d.ecnNote n q x) q x
          else d.finc Reg.QPE_NO_QP_COUNT
        else if q.state = 3 then act (d.ecnNote n q x) q x
        else d

/-! ## RECV entries -/

/-- A RECV entry obeys R392. -/
def recvOk (x : BitVec 512) : Bool := decide (descOpcode x = 0x40) && decide (bvFld x 256 256 = 0)

/-- Complete malformed RECV entries at the front of a queue; `n` bounds them. -/
def Dev.recvSkip (d : Dev) (rq : Nat) : Nat → Dev
  | 0 => d
  | n + 1 =>
    match (d.wqFind rq).bind Wq.front with
    | none => d
    | some e => if recvOk e.desc then d else ((d.wqStart rq).wqMalformed rq e.idx).recvSkip rq n

/-- The RECV entry of a QP is posted but not fetched yet. -/
def Dev.recvWaits (d : Dev) (q : Qp) : Bool :=
  match (d.recvSkip q.rqQid 64).wqFind q.rqQid with
  | some w => decide (w.state = .active) && w.front.isNone && decide (w.next ≠ w.tail)
  | none => false

/-- Take the next RECV entry of a QP for a message. -/
def Dev.recvTake (d : Dev) (n first src : Nat) : Option (Dev × Nat) :=
  match d.qp n with
  | none => none
  | some q =>
    let d := d.recvSkip q.rqQid 64
    match (d.wqFind q.rqQid).bind Wq.front with
    | some e =>
      let d := d.wqStart q.rqQid
      some (d.updQp n (fun q =>
        { q with recvs := q.recvs ++ [⟨e.idx, e.desc, q.recvNo, first, 0, none, none, none, src⟩], recvNo := (q.recvNo + 1) % 2 ^ 24 }), e.idx)
    | none => none

/-- Give the newest RECV entry back: its message turned out to be a trigger (R394). -/
def Dev.recvBack (d : Dev) (n idx : Nat) : Dev :=
  match d.qp n with
  | none => d
  | some q =>
    let d := d.setQp n { q with recvs := q.recvs.filter (fun r => decide (r.idx ≠ idx)), recvNo := (2 ^ 24 - 1 + q.recvNo) % 2 ^ 24 }
    d.wqUpd q.rqQid (fun w =>
      match w.started.find? (fun e => decide (e.idx = idx)) with
      | some e => { w with started := w.started.filter (fun e => decide (e.idx ≠ idx)), fetched := e :: w.fetched, next := idx }
      | none => w)

/-- Change a RECV entry in use. -/
def Qp.updRecv (q : Qp) (idx : Nat) (f : RecvUse → RecvUse) : Qp := { q with recvs := q.recvs.map (fun r => if r.idx = idx then f r else r) }

/-! ## Landing -/

/-- The NAK that a status of the responder gives (R401). -/
def nakSynd : Status → Nat
  | .malformed | .lengthError => 0x61
  | .accessError | .keyRevoked | .hostLost => 0x62
  | _ => 0x63

/-- Refuse a request: a NAK, and ERROR with a status (R401). -/
def Dev.respFail (d : Dev) (n psn synd : Nat) (st : Status) (recv : Option Nat) : Dev :=
  (d.sendAeth n psn synd).qpError n st psn synd noOwner (fun i => decide (recv = some i))

/-- Ask for patience: an RNR NAK (R402). -/
def Dev.respRnr (d : Dev) (n psn : Nat) : Dev :=
  match d.qp n with
  | some q => (d.sendAeth n psn (0x20 + q.get 0x0F 1)).finc Reg.QPE_RNR_NAK_TX_COUNT
  | none => d

/-- The checks of a request's packet but for translation: key, function, rights in the region and in FLAGS, bounds (R426,
R427). -/
def Dev.reqCheck (d : Dev) (q : Qp) (key : Nat) (u : KeyUser) (bit addr n : Nat) : Option UnitFail :=
  if n = 0 then none
  else
    let rights : Option UnitFail := some ⟨.accessError, addr, 0, some (.rights, 0, 0xFFFF, 0), false⟩
    match d.checkKey key u addr n with
    | .bad st c l rt e =>
      if c = .keyZero ∨ c = .keyStale ∨ c = .identity then some ⟨st, addr, 0, some (c, l, rt, e), false⟩
      else if !q.flag bit then rights
      else if st = .translationFault then none
      else some ⟨st, addr, 0, some (c, l, rt, e), false⟩
    | _ => if q.flag bit then none else rights

/-- An arriving WRITE at work under its RKEY. -/
def Qp.remoteWrite (q : Qp) : KeyUser := ⟨rRemoteWrite, true, some q.fn, none, false⟩

/-- Land plaintext of a WRITE. -/
def Dev.landWrite (d : Dev) (q : Qp) (key addr : Nat) (flagged : Bool) (bs : List Byte) : Dev × Option UnitFail :=
  match d.reqCheck q key q.remoteWrite 4 addr bs.length with
  | some f => (d, some f)
  | none => d.keyWrite q.remoteWrite key addr bs flagged

/-- Land plaintext of a SEND at an offset of its RECV entry. -/
def Dev.landRecv (d : Dev) (q : Qp) (desc : BitVec 512) (off : Nat) (bs : List Byte) : Dev × Option UnitFail :=
  if dFld desc 0x1C 4 < off + bs.length then (d, some ⟨.lengthError, 0, 0, none, false⟩)
  else d.keyWrite q.localWrite (dFld desc 0x18 4) (dFld desc 0x10 8 + off) bs false

/-- What opening segments leaves: how much has landed, the next segment number and the stream not opened yet; and the
failure that ended it, with its NAK. -/
structure Opened where
  dev : Dev
  off : Nat
  seg : Nat
  stream : List Byte
  fail : Option (Status × Nat × Option UnitFail)
  deriving DecidableEq, Repr

/-- Open the complete segments at the front of a gathered stream and land each (R409, R410, R483, R484); `n` bounds
them. -/
def openSegs (slot : KeySlot) (req resp : Nat) (rd : Bool) (first len : Nat) (land : Dev → Nat → List Byte → Dev × Option UnitFail) :
    Nat → Opened → Opened
  | 0, o => o
  | n + 1, o =>
    let size := min 65536 (len - o.off) + 16
    if len ≤ o.off ∨ o.stream.length < size then o
    else if 2 ^ 32 ≤ o.seg then { o with fail := some (.malformed, 0x61, none) }
    else if !slot.loaded then { o with dev := o.dev.keyEmptyNote .keyRevoked, fail := some (.keyRevoked, 0x63, none) }
    else
      let d := o.dev.cadBlocks 1 (gcmBlocks (size - 16))
      match gcmOpen (keyK1 slot.key) (segIv req resp rd o.seg) (segAad first (decide (len ≤ 65536 + o.off)) rd len o.off) (o.stream.take size) with
      | none => { o with dev := (d.finc Reg.QPE_AUTH_FAIL_COUNT).finc Reg.CAD_AUTH_FAIL_COUNT, fail := some (.authFail, 0x63, none) }
      | some plain =>
        let r := land d o.off plain
        match r.2 with
        | some f => { o with dev := r.1, fail := some (f.st, nakSynd f.st, some f) }
        | none => openSegs slot req resp rd first len land n ⟨r.1, o.off + plain.length, o.seg + 1, o.stream.drop size, none⟩

/-- The plaintext length of a payload stream. -/
def plainLen (n : Nat) : Nat := n - 16 * ((65551 + n) / 65552)

/-! ## Serving in PSN order (R397, R406, R408, R409) -/

/-- Put what is left of a WRITE into RESP_CUR. -/
def Qp.showCur (q : Qp) : Qp :=
  match q.cur with
  | some c => if c.write then ((q.put 0xB0 8 ((c.addr + c.off) % 2 ^ 64)).put 0xB8 4 c.key).put 0xBC 4 (c.len - c.off) else q
  | none => q.put 0xB0 16 0

/-- A request has been taken at RQ_EPSN: `k` PSNs pass; a message's end counts in the MSN. -/
def Qp.passed (q : Qp) (k : Nat) (last : Bool) : Qp :=
  let q := (q.put 0x1C 3 (psnAdd q.epsn k)).put 0x98 3 (if last then psnAdd q.msn 1 else q.msn)
  { q with nakSent := false }

/-- Acknowledge at the end of a message or after ACK_FREQ packets. -/
def Dev.ackPolicy (d : Dev) (n : Nat) (last : Bool) : Dev :=
  match d.qp n with
  | none => d
  | some q =>
    let d := d.setQp n { q with unacked := q.unacked + 1 }
    if last ∨ max 1 (d.fget Reg.QPE_ACK_CTL_ACK_FREQ) ≤ q.unacked + 1 then d.ackNow n else d

/-- The landing of a message in progress. -/
def Dev.landCur (q : Qp) (c : RespMsg) (d : Dev) (off : Nat) (bs : List Byte) : Dev × Option UnitFail :=
  if c.write then d.landWrite q c.key (c.addr + off) false bs
  else match c.recv.bind (fun i => q.recvs.find? (fun r => decide (r.idx = i))) with
    | some r => d.landRecv q r.desc off bs
    | none => (d, none)

/-- The key under which a message in progress lands. -/
def Qp.curKey (q : Qp) (c : RespMsg) : Nat :=
  if c.write then c.key
  else match c.recv.bind (fun i => q.recvs.find? (fun r => decide (r.idx = i))) with | some r => dFld r.desc 0x18 4 | none => 0

/-- Land what a packet brings of the message in progress `c`: `last` gives a protected SEND its length. -/
def Dev.landPacket (d : Dev) (n : Nat) (q : Qp) (c : RespMsg) (last : Bool) (payload : List Byte) : Opened :=
  if q.prot then
    let stream := c.stream ++ payload
    let len := if c.write then c.len else plainLen stream.length
    if !c.write && !last then ⟨d, c.off, q.get 0xA8 8, stream, none⟩
    else openSegs (d.slot (q.get 0x42 2)) q.dest n false c.first len (fun d o b => Dev.landCur q c d o b) 32768 ⟨d, c.off, q.get 0xA8 8, stream, none⟩
  else
    let r := Dev.landCur q c d c.off payload
    ⟨r.1, c.off + payload.length, 0, [], r.2.map (fun f => (f.st, nakSynd f.st, some f))⟩

/-- The end of a message: its RECV entry is ready, or its counter is to rise (R392, R394). -/
def Dev.endMessage (d : Dev) (n : Nat) (r : ReqPkt) (recv : Option Nat) (bytes : Nat) : Dev :=
  match d.qp n with
  | none => d
  | some q =>
    match r.imm, q.trig with
    | some v, true =>
      let d := d.setQp n { q with trigs := q.trigs ++ [v % 4] }
      match recv with | some i => d.recvBack n i | none => d
    | _, _ =>
      match recv with
      | some i => d.setQp n (q.updRecv i (fun x => { x with bytes := bytes, imm := r.imm, done := some .ok }))
      | none => d

/-- Serve a SEND or WRITE packet whose PSN is RQ_EPSN. -/
def Dev.serveReq (d : Dev) (n : Nat) (x : RxPkt) : Dev :=
  match d.qp n with
  | none => d
  | some q =>
    let r := parseReq q x.bytes
    let fits := if r.first then q.cur.isNone else match q.cur with | some c => decide (c.write = r.write) | none => false
    if 11 < r.op ∨ !fits then d.respFail n r.psn 0x61 .malformed none
    else
      let need := (!r.write && r.first && !(r.imm.isSome && q.trig)) || (r.write && r.imm.isSome && !q.trig)
      let got : Option (Dev × Option Nat) := if need then (d.recvTake n r.psn 0).map (fun p => (p.1, some p.2)) else some (d, none)
      match got with
      | none => d.respRnr n r.psn
      | some (d, idx) =>
        match d.qp n with
        | none => d
        | some q =>
          let fresh : RespMsg := ⟨r.write, r.psn, r.addr, r.key, r.len, if r.write then none else idx, 0, []⟩
          let c := if r.first then fresh else q.cur.getD fresh
          let recv := if r.write then idx else c.recv
          let payload := d.pktData q x r.data (q.knownLen r)
          let o := d.landPacket n q c r.last payload
          let short := r.last && c.write && o.fail.isNone && decide (o.off ≠ c.len)
          match o.fail with
          | some (st, synd, f) =>
            let d := match f with | some f => o.dev.unitFault (d.qpUnit n q (q.curKey c)) f true false | none => o.dev
            d.respFail n r.psn synd st recv
          | none =>
            if short || (c.write && decide (c.len < o.off)) then o.dev.respFail n r.psn 0x61 .malformed recv
            else
              let d := o.dev.updQp n (fun q =>
                let q := { q with cur := if r.last then none else some { c with off := o.off, stream := o.stream } }.passed 1 r.last
                (if q.prot then q.put 0xA8 8 o.seg else q).showCur)
              let d := if r.last then d.endMessage n r recv o.off else d
              d.ackPolicy n r.last

/-! ## Unordered placement (R403 to R405) -/

/-- RQ_EPSN advances over landed PSNs, `n` at most; messages that it passes complete. -/
def Qp.advance (q : Qp) : Nat → Qp
  | 0 => q
  | n + 1 =>
    if q.bitmap.contains q.epsn then
      let p := q.epsn
      let ends := q.ends.filter (fun (e : Nat × Option Nat) => decide (e.1 = p))
      let q := { q with
        bitmap := q.bitmap.filter (fun x => decide (x ≠ p)), ends := q.ends.filter (fun e => decide (e.1 ≠ p)),
        trigs := q.trigs ++ ends.filterMap (fun (e : Nat × Option Nat) => e.2),
        recvs := q.recvs.map (fun (r : RecvUse) => if r.last = some p ∧ r.done = none then { r with done := some .ok } else r) }
      (q.passed 1 (!ends.isEmpty)).advance n
    else q

/-- The RECV entry that a receive message number selects; entries before it are taken on the way. -/
def Dev.recvNumber (d : Dev) (n num first : Nat) : Nat → Option (Dev × Nat)
  | 0 => none
  | k + 1 =>
    match d.qp n with
    | none => none
    | some q =>
      match q.recvs.find? (fun r => decide (r.num = num)) with
      | some r => some (d, r.idx)
      | none =>
        match d.recvTake n first 0 with
        | some (d, _) => d.recvNumber n num first k
        | none => none

/-- Place a SEND or WRITE packet of an unordered QP that is in the window and new. -/
def Dev.placeUnord (d : Dev) (n : Nat) (x : RxPkt) : Dev :=
  match d.qp n with
  | none => d
  | some q =>
    let r := parseReq q x.bytes
    if 11 < r.op then d.respFail n r.psn 0x61 .malformed none
    else
      let trigger := r.imm.isSome && q.trig
      let need := (!r.write && !(trigger && decide (r.op = 5))) || (r.write && r.imm.isSome && !q.trig)
      let got : Option (Dev × Option Nat) := if need then (d.recvNumber n r.num r.uFirst 2049).map (fun p => (p.1, some p.2)) else some (d, none)
      match got with
      | none => d.respRnr n r.psn
      | some (d, idx) =>
        match d.qp n with
        | none => d
        | some q =>
          let payload := d.pktData q x r.data (q.knownLen r)
          let off := psnSub r.psn r.uFirst * q.mtu
          let use := idx.bind (fun i => q.recvs.find? (fun u => decide (u.idx = i)))
          let land : Dev × Option UnitFail :=
            if r.write then d.landWrite q r.key r.addr r.flagged payload
            else match use with | some u => d.landRecv q u.desc off payload | none => (d, none)
          let key := if r.write then r.key else match use with | some u => dFld u.desc 0x18 4 | none => 0
          match land with
          | (d, some f) => (d.unitFault (d.qpUnit n q key) f true false).respFail n r.psn (nakSynd f.st) f.st idx
          | (d, none) =>
            let bytes := if r.write then r.len else off + payload.length
            let before := q.epsn
            let d := d.updQp n (fun q =>
              let q := if r.last then { q with ends := q.ends ++ [(r.psn, if trigger then r.imm.map (· % 4) else none)] } else q
              let q := match idx with
                | some i => if r.last ∧ !trigger then q.updRecv i (fun u => { u with bytes := bytes, imm := r.imm, last := some r.psn }) else q
                | none => q
              { q with bitmap := r.psn :: q.bitmap }.advance 2048)
            let d := if trigger ∧ r.last then (match idx with | some i => d.recvBack n i | none => d) else d
            let moved := match d.qp n with | some q => decide (q.epsn ≠ before) | none => false
            if moved then d.ackPolicy n r.last else d

/-- Serve the packets that waited for their turn (protected, unordered); `k` bounds them. -/
def Dev.serveAhead (d : Dev) (n : Nat) : Nat → Dev
  | 0 => d
  | k + 1 =>
    match d.qp n with
    | none => d
    | some q =>
      match q.ahead.find? (fun a => decide (a.1 = q.epsn)) with
      | some a =>
        let d := d.setQp n { q with ahead := q.ahead.filter (fun b => decide (b.1 ≠ a.1)) }
        (d.serveReq n ⟨n, false, if q.onaud then some (q.get 0x3C 1) else none, 0, 0, 0, false, false, [], a.2, none, 0⟩).serveAhead n k
      | none => d

/-! ## Where a PSN stands (R396, R397, R399, R404) -/

/-- How the responder takes a PSN. -/
inductive PsnClass where
  | serve | duplicate | ahead | beyond
  deriving DecidableEq, Repr

/-- Classify an arriving PSN. -/
def Qp.classify (q : Qp) (p : Nat) : PsnClass :=
  let k := psnSub p q.epsn
  if 2 ^ 23 ≤ k then .duplicate
  else if q.unord then
    (if 2048 ≤ k then .beyond
     else if q.bitmap.contains p || q.ahead.any (fun a => decide (a.1 = p)) then .duplicate else .serve)
  else if k = 0 then .serve else .ahead

/-- An ahead packet of an ordered QP: the first after each expected one is NAKed, all are dropped (R397). -/
def Dev.respAhead (d : Dev) (n : Nat) : Dev :=
  match d.qp n with
  | none => d
  | some q =>
    if q.nakSent then d
    else ((d.sendAeth n q.epsn 0x60).finc Reg.QPE_OOS_NAK_TX_COUNT).updQp n (fun q => { q with nakSent := true })

/-- Serve a new SEND or WRITE packet, in the QP's mode. -/
def Dev.serveMode (d : Dev) (n : Nat) (q : Qp) (x : RxPkt) : Dev :=
  if !q.unord then d.serveReq n x
  else if !q.prot then d.placeUnord n x
  else if pktPsn x.bytes = q.epsn then (d.serveReq n x).serveAhead n 2048
  else d.setQp n { q with ahead := q.ahead ++ [(pktPsn x.bytes, x.bytes)] }

/-- READs and atomics whose answers still wait for their port: RESP_RD_ATOMIC limits them (R401). -/
def Dev.answersWaiting (d : Dev) (n : Nat) : Nat :=
  (d.txs.ready.filter (fun f => decide (f.who = n) && [0x0F, 0x10, 0x12].contains (pktOp f.bytes))).length

/-- A READ or atomic has been served: its PSNs pass and everything before is acknowledged with its answer. -/
def Qp.served (q : Qp) (psn k : Nat) : Qp :=
  let q := { q with unacked := 0 }
  if q.unord then
    { q with bitmap := (List.range k).map (fun i => psnAdd psn i) ++ q.bitmap, ends := q.ends ++ [(psnAdd psn (k - 1), none)] }.advance (k + 2048)
  else q.passed k true

end Sys2Proof.Machine
end

