-- ==== Sys2Proof/Machine/QueuePairs.lean ====
section
/-! DEFINITION. The commands and events of QPE (chapter 11). -/
namespace Sys2Proof.Machine
open Sys2Proof

/-! ## Commands (R387 to R389, R421) -/

/-- A QPE command. -/
def qpeCmd (s : State) (f : Dev → Dev) : Host.Outcome State Fault Refusal :=
  onDev s (fun d => d.command Reg.QPE_CMD_STATUS_BUSY Reg.QPE_CMD_STATUS_CMD_ERR f)

/-- The outcome of a QPE command. -/
def Dev.qpeStatus (d : Dev) (st : Status) : Dev := d.fset Reg.QPE_CMD_STATUS_STATUS st.code

/-- The context staged in QPE_CMD_DATA. -/
def Dev.stagedQp (d : Dev) : BitVec 2048 := BitVec.ofNat 2048 (d.dataWords Reg.QPE_CMD_DATAi 64)

/-- The path fields, bytes 0x10 to 0x5F, are in range; `q` holds the identity fields too. -/
def Dev.qpPathOk (d : Dev) (q : Qp) : Bool :=
  decide (q.get 0x13 1 = 0) && (!q.isUd || decide (q.dest = 0)) && decide (q.get 0x1B 1 = 0) && decide (q.get 0x1F 1 = 0) &&
  decide (q.get 0x38 1 < 64) && (if q.onaud then decide (q.get 0x3C 1 < d.podSize) else decide (q.get 0x3C 1 < 32)) &&
  decide (1 ≤ q.get 0x3D 1) && decide (q.get 0x3D 1 ≤ 64) && (q.unord || decide (q.get 0x3D 1 = 1)) &&
  decide (1 ≤ q.get 0x3E 1) && decide (q.get 0x3E 1 ≤ 16) && decide (1 ≤ q.get 0x3F 1) && decide (q.get 0x3F 1 ≤ 16) &&
  decide (1 ≤ q.get 0x40 2) && decide (q.get 0x40 2 ≤ 256) && (q.prot || decide (q.get 0x42 2 = 0)) && decide (q.get 0x44 12 = 0)

/-- The retry and timer fields are in range. -/
def Qp.retryOk (q : Qp) : Bool :=
  decide (q.get 7 1 / 8 % 2 = 0) && decide (q.get 7 1 < 128) && decide (1 ≤ q.get 0x0E 1) && decide (q.get 0x0E 1 ≤ 20)

/-- A queue may be bound to a QP: 0xFFFF for none, else of the class, bound to the QPN and of the same function. -/
def Dev.bindOk (d : Dev) (n fn cls qid : Nat) : Bool :=
  decide (qid = 0xFFFF) ||
  match d.wqFind qid with
  | some w => decide (wqClass w.ctx = cls) && decide (wqBind w.ctx = n) && decide (wqFn w.ctx = fn)
  | none => false

/-- The identity fields, bytes 0x00 to 0x0F, obey R386 and R387. -/
def Dev.qpIdentOk (d : Dev) (n : Nat) (q : Qp) : Bool :=
  decide (q.get 1 1 ≤ 1) && decide (q.get 2 2 < 512) && d.isFn q.fn && decide (1 ≤ q.get 6 1) && decide (q.get 6 1 ≤ 5) && q.retryOk &&
  decide (q.get 0x0C 2 < 16384) && decide (q.get 0x0F 1 ≤ 31) && d.bindOk n q.fn 0 q.sqQid && d.bindOk n q.fn 1 q.rqQid &&
  !(q.isUd && (q.unord || q.prot || q.flag 6)) && !(!q.isUd && q.raw) && !(q.prot && q.flag 6)

/-- The policy allows a QP's key slot (R471). -/
def Dev.qpSlotOk (d : Dev) (q : Qp) : Bool :=
  !q.prot || match d.fnPart q.fn with | some p => d.slotAllows (q.get 0x42 2) 4 p | none => false

/-- The refusal of CREATE_QP, MALFORMED before ACCESS_ERROR. -/
def Dev.createQpCheck (d : Dev) (n : Nat) (q : Qp) : Status :=
  if !d.qpIdentOk n q || !d.qpPathOk q then .malformed
  else if d.qpnFn n ≠ some q.fn ∨ (d.qp n).isSome ∨ d.qpSlotOk q = false then .accessError
  else if (q.flag 6 ∧ 65536 ≤ (d.qpe.qps.vals.filter (fun x => x.flag 6)).length) ∨
      (q.unord ∧ 16384 ≤ (d.qpe.qps.vals.filter Qp.unord).length) then .accessError
  else .ok

/-- CREATE_QP: the QP goes from RESET to INIT with the D fields staged; the places of its atomic cache and bitmap are free
values. -/
def execCreateQp (qpn : BitVec 24) (s : State) : Host.Outcome State Fault Refusal :=
  qpeCmd s (fun d =>
    let q := Qp.fresh (BitVec.ofNat 2048 (d.stagedQp.toNat % 2 ^ 768))
    match d.createQpCheck qpn.toNat q with
    | .ok =>
      let q := (q.put 0 1 1).put 0x9C 4 (Config.freeValue 32 d.fresh).toNat
      ((d.bump).setQp qpn.toNat q).qpeStatus .ok
    | st => d.qpeStatus st)

/-- MODIFY_RTR: INIT to RTR with bytes 0x10 to 0x5F (R387, R482). -/
def execModifyRtr (qpn : BitVec 24) (s : State) : Host.Outcome State Fault Refusal :=
  qpeCmd s (fun d =>
    match d.qp qpn.toNat with
    | none => d.qpeStatus .accessError
    | some q =>
      if q.state ≠ 1 then d.qpeStatus .accessError
      else
        let q := { q with ctx := bvSet q.ctx (8 * 0x10) (8 * 0x50) (bvFld d.stagedQp (8 * 0x10) (8 * 0x50)) }
        if !d.qpPathOk q || (q.prot && decide (q.dest = qpn.toNat)) then d.qpeStatus .malformed
        else if !d.qpSlotOk q then d.qpeStatus .accessError
        else (d.setQp qpn.toNat (q.put 0 1 2)).qpeStatus .ok)

/-- MODIFY_RTS: RTR to RTS with SQ_PSN, RETRY and TIMEOUT; the retries are full and the rate starts at the port's (R398,
R415). -/
def execModifyRts (qpn : BitVec 24) (s : State) : Host.Outcome State Fault Refusal :=
  qpeCmd s (fun d =>
    match d.qp qpn.toNat with
    | none => d.qpeStatus .accessError
    | some q =>
      if q.state ≠ 2 then d.qpeStatus .accessError
      else
        let g := d.stagedQp
        let q := { q with ctx := bvSet (bvSet (bvSet q.ctx 56 8 (bvFld g 56 8)) 112 8 (bvFld g 112 8)) 192 32 (bvFld g 192 32) }
        if !q.retryOk || decide (q.get 0x1B 1 ≠ 0) then d.qpeStatus .malformed
        else
          let q := (q.put 0x90 4 q.sqPsn).fullRetries
          let r := if !q.isUd && !q.onaud && d.fon Reg.QPE_CC_EN_EN then d.portRate (q.get 0x3C 1) else 0
          let q := ((q.put 0x60 4 r).put 0x64 4 r).put 0x68 2 1024
          (d.setQp qpn.toNat (q.put 0 1 3)).qpeStatus .ok)

/-- TO_ERROR: any state between RESET and ERROR but FROZEN goes to ERROR, with FLUSHED. -/
def execToError (qpn : BitVec 24) (s : State) : Host.Outcome State Fault Refusal :=
  qpeCmd s (fun d =>
    match d.qp qpn.toNat with
    | none => d.qpeStatus .accessError
    | some q =>
      if q.state = 5 then d.qpeStatus .accessError
      else (d.qpError qpn.toNat .flushed 0 0 noOwner (fun _ => false)).qpeStatus .ok)

/-- The flushes of a bound queue have been published. -/
def Dev.flushOver (d : Dev) (qid : Nat) : Bool :=
  match d.wqFind qid with
  | none => true
  | some w => w.started.isEmpty && w.finished.isEmpty && decide (w.next = w.tail) && (!w.unpub || w.quiet || decide (w.state ≠ .active))

/-- QP_DRAINED: the last flush of a QP in ERROR has been published. -/
def execQpDrained (qpn : BitVec 20) (s : State) : Host.Outcome State Fault Refusal :=
  onDev s (fun d =>
    match d.qp qpn.toNat with
    | none => d
    | some q =>
      if q.state = 4 ∧ q.drained = false ∧ d.flushOver q.sqQid = true ∧ d.flushOver q.rqQid = true then
        (d.setQp qpn.toNat { q with drained := true }).post q.fn (.other 0x21) 0 qpn.toNat
      else d)

/-- DESTROY_QP: a QP in ERROR whose flushing has ended returns to RESET; TRIG_CNT stays. -/
def execDestroyQp (qpn : BitVec 24) (s : State) : Host.Outcome State Fault Refusal :=
  qpeCmd s (fun d =>
    match d.qp qpn.toNat with
    | none => d.qpeStatus .accessError
    | some q =>
      if q.state = 4 ∧ q.drained then (d.upQpe (fun x => { x with qps := x.qps.del qpn.toNat })).qpeStatus .ok
      else d.qpeStatus .accessError)

/-- QUERY_QP: returns the context; TRIG_CNT alone in RESET. -/
def execQueryQp (qpn : BitVec 24) (s : State) : Host.Outcome State Fault Refusal :=
  qpeCmd s (fun d =>
    if 2 ^ 20 ≤ qpn.toNat then d.qpeStatus .accessError
    else (d.putWords Reg.QPE_CMD_DATAi 64 (d.qpView qpn.toNat).toNat).qpeStatus .ok)

/-- CREATE_AH: writes address handle `index` from the staged 64 bytes. -/
def execCreateAh (index : BitVec 24) (s : State) : Host.Outcome State Fault Refusal :=
  qpeCmd s (fun d =>
    let a := BitVec.ofNat 512 (d.dataWords Reg.QPE_CMD_DATAi 16)
    if bvFld a (8 * 0x18) 8 ≥ 64 ∨ bvFld a (8 * 0x1D) 8 ≠ 0 ∨ bvFld a (8 * 0x30) 128 ≠ 0 ∨ d.isFn (bvFld a (8 * 0x1E) 16) = false then
      d.qpeStatus .malformed
    else if 65536 ≤ index.toNat then d.qpeStatus .malformed
    else (d.upQpe (fun x => { x with ahs := x.ahs.set index.toNat a })).qpeStatus .ok)

/-- DESTROY_AH: removes an address handle. -/
def execDestroyAh (index : BitVec 24) (s : State) : Host.Outcome State Fault Refusal :=
  qpeCmd s (fun d => (d.upQpe (fun x => { x with ahs := x.ahs.del index.toNat })).qpeStatus .ok)

/-- Write the contexts of QPs back to the QP-context area (R30, R163). -/
def Dev.writeContexts (d : Dev) (ns : List Nat) : Dev :=
  ns.foldl (fun d n => d.rawStoreN (0x10000000000 + 256 * n) (leBytes 256 (d.qpView n).toNat)) d

/-- CTX_CACHE_FLUSH: every cached context goes back to HBM3E. -/
def execCtxCacheFlush (s : State) : Host.Outcome State Fault Refusal :=
  onDev s (fun d => if d.live then d.writeContexts d.qpe.qps.keys else d)

/-! ## Work requests -/

/-- The front entry is of an opcode and waits for no trigger. -/
def frontIs (op qid : Nat) (d : Dev) (x : BitVec 512) : Bool := decide (descOpcode x = op) && !d.waitsTrigger qid x

/-- QP_SEND; `rd` is what a source in EXTERNAL memory holds. -/
def execQpSend (qid : BitVec 16) (rd : HostRead) (s : State) : Host.Outcome State Fault Refusal :=
  onDev s (fun d => d.qpeTurn qid.toNat rd (frontIs 1 qid.toNat))
/-- QP_SEND_IMM. -/
def execQpSendImm (qid : BitVec 16) (rd : HostRead) (s : State) : Host.Outcome State Fault Refusal :=
  onDev s (fun d => d.qpeTurn qid.toNat rd (frontIs 2 qid.toNat))
/-- QP_WRITE. -/
def execQpWrite (qid : BitVec 16) (rd : HostRead) (s : State) : Host.Outcome State Fault Refusal :=
  onDev s (fun d => d.qpeTurn qid.toNat rd (frontIs 3 qid.toNat))
/-- QP_WRITE_IMM. -/
def execQpWriteImm (qid : BitVec 16) (rd : HostRead) (s : State) : Host.Outcome State Fault Refusal :=
  onDev s (fun d => d.qpeTurn qid.toNat rd (frontIs 4 qid.toNat))
/-- QP_READ. -/
def execQpRead (qid : BitVec 16) (s : State) : Host.Outcome State Fault Refusal :=
  onDev s (fun d => d.qpeTurn qid.toNat .lost (frontIs 5 qid.toNat))
/-- CMP_SWAP. -/
def execCmpSwap (qid : BitVec 16) (s : State) : Host.Outcome State Fault Refusal :=
  onDev s (fun d => d.qpeTurn qid.toNat .lost (frontIs 6 qid.toNat))
/-- FETCH_ADD. -/
def execFetchAdd (qid : BitVec 16) (s : State) : Host.Outcome State Fault Refusal :=
  onDev s (fun d => d.qpeTurn qid.toNat .lost (frontIs 7 qid.toNat))

/-- TRIGGERED_START: the head entry's trigger counter meets its threshold (R393). -/
def execTriggeredStart (qid : BitVec 16) (rd : HostRead) (s : State) : Host.Outcome State Fault Refusal :=
  onDev s (fun d => d.qpeTurn qid.toNat rd (fun d x => d.waitsTrigger qid.toNat x))

/-- QP_RECV: the oldest RECV entry that a message has taken completes once the message has ended. -/
def execQpRecv (qpn : BitVec 20) (s : State) : Host.Outcome State Fault Refusal :=
  onDev s (fun d =>
    match d.qp qpn.toNat with
    | none => d
    | some q =>
      match q.recvs.find? (fun r => r.done.isSome) with
      | some r =>
        (d.setQp qpn.toNat { q with recvs := q.recvs.filter (fun x => decide (x.idx ≠ r.idx)) }).wqFinish q.rqQid r.idx
          (r.done.getD .ok) r.bytes r.word
      | none => d)

/-! ## Arrivals at the responder -/

/-- REQUEST_PACKET: a SEND or WRITE packet, or one of an opcode that RC does not take (R384, R397, R399, R401, R404). -/
def execRequestPacket (qpn : BitVec 20) (s : State) : Host.Outcome State Fault Refusal :=
  let n := qpn.toNat
  onDev s (fun d =>
    d.withRx n 0 true (fun _ => match d.qp n with | some q => !d.recvWaits q | none => true) (fun d q x =>
      match q.classify (pktPsn x.bytes) with
      | .serve => d.serveMode n q x
      | .duplicate => (d.finc Reg.QPE_DUP_PKTS_COUNT).ackNow n
      | .ahead => d.respAhead n
      | .beyond => d.finc Reg.QPE_UNORD_DROP_COUNT))

/-- TRIGGER_INCREMENT: the counter of the oldest trigger message that has passed rises (R394). -/
def execTriggerIncrement (qpn : BitVec 20) (s : State) : Host.Outcome State Fault Refusal :=
  onDev s (fun d =>
    match d.qp qpn.toNat with
    | none => d
    | some q =>
      match q.trigs with
      | k :: r =>
        (d.setQp qpn.toNat { q with trigs := r }).upQpe (fun x =>
          { x with trig := x.trig.set (4 * qpn.toNat + k) (BitVec.ofNat 32 (d.trigCount qpn.toNat k + 1)) })
      | [] => d)

/-- The packets that answer a READ with a payload stream: `have_` of `total` (R383). -/
def Qp.respPkts (q : Qp) (psn total have_ : Nat) (stream : List Byte) : List (List Byte) :=
  (List.range have_).map (fun i =>
    let op := if total = 1 then 0x10 else if i = 0 then 0x0D else if i + 1 = total then 0x0F else 0x0E
    q.pkt op q.dest (psnAdd psn i) false (uph psn false false 0) (if op = 0x0E then [] else aeth 0x1F q.msn) ((stream.drop (i * q.mtu)).take q.mtu))

/-- Execute a READ request whose RETH is `r`, a duplicate or not (R399, R408). -/
def Dev.serveRead (d : Dev) (n : Nat) (q : Qp) (r : ReqPkt) (dup : Bool) (rd : HostRead) : Dev :=
  let u : KeyUser := ⟨rRemoteRead, false, some q.fn, none, false⟩
  let seg := if dup then (q.reads.find? (fun x => decide (x.1 = r.psn))).map (·.2) else some (q.get 0xA8 8)
  if q.get 0x3F 1 ≤ d.answersWaiting n then d.respFail n r.psn 0x61 .malformed none
  else if q.prot ∧ seg = none then d.respFail n r.psn 0x61 .malformed none
  else
    match d.reqCheck q r.key u 5 r.addr r.len with
    | some f => (d.unitFault (d.qpUnit n q r.key) f false false).respFail n r.psn (nakSynd f.st) f.st none
    | none =>
      let x := d.keyRead u r.key r.addr r.len rd
      let slot := d.slot (q.get 0x42 2)
      let whole := x.2.2.isNone
      let segs := if whole then segCount r.len else x.2.1.length / 65536
      let stream := if q.prot then (if slot.loaded then sealSegs (keyK1 slot.key) q.dest n true r.psn r.len (seg.getD 0) x.2.1 segs else []) else x.2.1
      let d := if q.prot && slot.loaded then x.1.cadBlocks 1 (segBlocks (min r.len (65536 * segs))) else x.1
      let total := q.psns r.len
      let sealed := whole && (!q.prot || slot.loaded || decide (r.len = 0))
      let q := if sealed && !dup then (q.put 0xA8 8 (q.get 0xA8 8 + (if q.prot then segs else 0))) else q
      let q := if sealed && !dup then { q with reads := (q.reads.cons (r.psn, seg.getD 0)).take 32 } else q
      let q := if sealed then (if dup then { q with unacked := 0 } else q.served r.psn total) else q
      let pk := q.respPkts r.psn total (if sealed then total else stream.length / q.mtu) stream
      let d := pk.foldl (fun d b => d.rcSend n b true none) (d.setQp n q)
      if sealed then d
      else
        match x.2.2 with
        | some f => (d.unitFault (d.qpUnit n q r.key) f false false).respFail n (psnAdd r.psn pk.length) (nakSynd f.st) f.st none
        | none => (d.keyEmptyNote .keyRevoked).respFail n r.psn 0x63 .keyRevoked none

/-- READ_REQUEST; `rd` is what the memory named holds, when it is EXTERNAL. -/
def execReadRequest (qpn : BitVec 20) (rd : HostRead) (s : State) : Host.Outcome State Fault Refusal :=
  let n := qpn.toNat
  onDev s (fun d =>
    d.withRx n 1 true (fun _ => true) (fun d q x =>
      let r := parseReq q x.bytes
      match q.classify r.psn with
      | .serve =>
        if q.unord && q.prot && decide (r.psn ≠ q.epsn) then d.upEth (fun e => { e with inbox := e.inbox ++ [x] })
        else d.serveRead n q r false rd
      | .duplicate => (d.finc Reg.QPE_DUP_PKTS_COUNT).serveRead n q r true rd
      | .ahead => d.respAhead n
      | .beyond => d.finc Reg.QPE_UNORD_DROP_COUNT))

/-- Answer an atomic with its original value. -/
def Dev.sendAtomicAck (d : Dev) (n psn : Nat) (v : W64) : Dev :=
  match d.qp n with
  | some q => d.rcSend n (q.pkt 0x12 q.dest psn false (uph psn false false 0) (aeth 0x1F q.msn ++ beBytes 8 v.toNat) []) true none
  | none => d

/-- The value an atomic leaves. -/
def atomicResult (cas : Bool) (old swapAdd cmp : Nat) : Nat := if cas then (if old = cmp then swapAdd else old) else (old + swapAdd) % 2 ^ 64

/-- Execute an atomic (R400): on device memory here, on other memory by a PCIe AtomicOp whose answer is `rd`. -/
def Dev.serveAtomic (d : Dev) (n : Nat) (q : Qp) (r : ReqPkt) (x : RxPkt) (routed : Bool) (rd : HostRead) : Dev :=
  let o := q.hdrAt
  let swapAdd := beAt x.bytes (o + 12) 8
  let cmp := beAt x.bytes (o + 20) 8
  let cas := decide (r.op = 0x13)
  let u : KeyUser := ⟨rRemoteAtomic, true, some q.fn, none, false⟩
  let refuse (d : Dev) (f : UnitFail) : Dev := (d.unitFault (d.qpUnit n q r.key) f true true).respFail n r.psn (nakSynd f.st) f.st none
  let finish (d : Dev) (old : Nat) : Dev :=
    let q := { q with atomics := ((r.psn, BitVec.ofNat 64 old) :: q.atomics).take 32 }.served r.psn 1
    (d.setQp n q).sendAtomicAck n r.psn (BitVec.ofNat 64 old)
  if q.prot ∨ r.addr % 8 ≠ 0 ∨ q.get 0x3F 1 ≤ d.answersWaiting n then d.respFail n r.psn 0x61 .malformed none
  else
    match d.reqCheck q r.key u 6 r.addr 8 with
    | some f => refuse d f
    | none =>
      match d.checkKey r.key u r.addr 8 with
      | .bad st c l rt e => refuse d ⟨st, r.addr, 0, some (c, l, rt, e), false⟩
      | .dev p =>
        match d.memStatus false p 8, d.memStatus true p 8 with
        | .ok, .ok =>
          let old := leNat (d.memBytes p 8)
          finish ((d.noteAccess false p 8).memWrite p (leBytes 8 (atomicResult cas old swapAdd cmp))) old
        | .ok, st => refuse d ⟨st, p, 0, none, true⟩
        | st, _ => refuse d ⟨st, p, 0, none, true⟩
      | .bus link a =>
        if !routed then d.respFail n r.psn 0x61 .malformed none
        else if !d.linkUp link then refuse d ⟨.hostLost, r.addr, 0, none, false⟩
        else
          let d := d.emit (.hostAtomic link a cas cmp swapAdd)
          match rd with
          | .ok bs => finish d (leNat (sliceOf bs 0 8))
          | .lost => refuse d ⟨.hostLost, r.addr, 0, none, false⟩
          | .poisoned => refuse d ⟨.uncorrectable, r.addr, 0, none, false⟩

/-- An atomic request of an RC queue pair by where its PSN lies (R399, R400). -/
def rxAtomic (n : Nat) (routed : Bool) (rd : HostRead) (d : Dev) (q : Qp) (x : RxPkt) : Dev :=
  let r := parseReq q x.bytes
  match q.classify r.psn with
  | .serve => d.serveAtomic n q r x routed rd
  | .duplicate =>
    let d := d.finc Reg.QPE_DUP_PKTS_COUNT
    match q.atomics.find? (fun a => decide (a.1 = r.psn)) with
    | some a => d.sendAtomicAck n r.psn a.2
    | none => (d.finc Reg.QPE_ATOMIC_MISS_COUNT).respFail n r.psn 0x61 .malformed none
  | .ahead => d.respAhead n
  | .beyond => d.finc Reg.QPE_UNORD_DROP_COUNT

/-- ATOMIC_REQUEST: `routed` says whether the link behind the memory routes AtomicOps, and `rd` is the AtomicOp's answer. -/
def execAtomicRequest (qpn : BitVec 20) (routed : Bool) (rd : HostRead) (s : State) : Host.Outcome State Fault Refusal :=
  onDev s (fun d => d.withRx qpn.toNat 2 true (fun _ => true) (rxAtomic qpn.toNat routed rd))

/-! ## Arrivals at the requester -/

/-- ACKNOWLEDGE. -/
def execAcknowledge (qpn : BitVec 20) (s : State) : Host.Outcome State Fault Refusal :=
  onDev s (fun d => d.withRx qpn.toNat 3 false (fun _ => true) (fun d _ x => d.qpAck qpn.toNat (pktPsn x.bytes)))

/-- SEQUENCE_ERROR_NAK: go back to the PSN it names. -/
def execSequenceErrorNak (qpn : BitVec 20) (s : State) : Host.Outcome State Fault Refusal :=
  onDev s (fun d => d.withRx qpn.toNat 4 false (fun _ => true) (fun d q x =>
    if psnSub (pktPsn x.bytes) q.una < q.open_ then d.qpRetry qpn.toNat (pktPsn x.bytes) else d))

/-- RNR_NAK: wait, unless no RNR retry is left (R402). -/
def execRnrNak (qpn : BitVec 20) (s : State) : Host.Outcome State Fault Refusal :=
  let n := qpn.toNat
  onDev s (fun d => d.withRx n 5 false (fun _ => true) (fun d q x =>
    let p := pktPsn x.bytes
    let d := d.finc Reg.QPE_RNR_NAK_RX_COUNT
    if q.open_ ≤ psnSub p q.una then d
    else
      let left := q.get 0x97 1 / 16 % 8
      let free := decide (q.get 7 1 / 16 % 8 = 7)
      if !free && decide (left = 0) then
        d.qpError n .rnrExhausted p (beAt x.bytes q.hdrAt 1) (match q.msgAt p with | some o => isOwner o | none => noOwner) (fun _ => false)
      else d.setQp n ({ q with rnrWait := some p }.put 0x97 1 (if free then q.get 0x97 1 else q.get 0x97 1 - 16))))

/-- ERROR_NAK: the named entry ends with REMOTE_ERROR, and the QP enters ERROR (R401). -/
def execErrorNak (qpn : BitVec 20) (s : State) : Host.Outcome State Fault Refusal :=
  onDev s (fun d => d.withRx qpn.toNat 6 false (fun _ => true) (fun d q x =>
    let p := pktPsn x.bytes
    if q.open_ ≤ psnSub p q.una then d
    else d.qpError qpn.toNat .remoteError p (beAt x.bytes q.hdrAt 1) (match q.msgAt p with | some o => isOwner o | none => noOwner) (fun _ => false)))

/-- The READ or atomic of a QP that an answer with a PSN belongs to: the oldest one's next PSN, or any when unordered. -/
def Qp.answerFor (q : Qp) (read : Bool) (p : Nat) : Option QpMsg :=
  let open_ := q.out.filter (fun m => decide (m.kind = .read ∨ m.kind = .atomic))
  let fits (m : QpMsg) : Bool :=
    decide (m.kind = if read then .read else .atomic) && decide (psnSub p m.first ≤ psnSub m.last m.first) && !m.got.contains p
  if q.unord && !q.prot then open_.find? fits
  else match open_ with
    | m :: _ => if fits m && decide (m.missing = p) then some m else none
    | [] => none

/-- Replace an outgoing message, or take it out. -/
def Qp.putMsg (q : Qp) (o : MsgOwner) (m : Option QpMsg) : Qp :=
  { q with out := q.out.filterMap (fun (x : QpMsg) => if x.owner = o then m else some x) }.counts

/-- A requester's unit fails as an answer lands: the entry ends with its status (R437). -/
def Dev.answerFail (d : Dev) (n : Nat) (q : Qp) (m : QpMsg) (p : Nat) (st : Status) (f : Option UnitFail) (atomic : Bool) : Dev :=
  let d := match f with | some f => d.unitFault (d.qpUnit n q m.lkey) f true atomic | none => d
  d.qpError n st p 0 (isOwner m.owner) (fun _ => false)

/-- An answer of a message has landed up to its state `m`. -/
def Dev.answerDone (d : Dev) (n : Nat) (q : Qp) (m : QpMsg) (p : Nat) : Dev :=
  if m.missing = psnAdd m.last 1 then
    (((d.setQp n (q.putMsg m.owner none)).msgDone m.owner .ok)).qpAck n p
  else (d.setQp n (q.putMsg m.owner (some m))).qpAck n p

/-- READ_RESPONSE: its data lands at LADDR (R395, R404, R409). -/
def execReadResponse (qpn : BitVec 20) (s : State) : Host.Outcome State Fault Refusal :=
  let n := qpn.toNat
  onDev s (fun d => d.withRx n 7 false (fun _ => true) (fun d q x =>
    let p := pktPsn x.bytes
    match q.answerFor true p with
    | none => d
    | some m =>
      let i := psnSub p m.first
      let size := min q.mtu (q.streamLen m.len - i * q.mtu)
      let payload := d.pktData q x (q.hdrAt + (if pktOp x.bytes = 0x0E then 0 else 4)) (some size)
      if payload.length ≠ size then d
      else if q.prot then
        let start := i * q.mtu - m.stream.length
        let o := openSegs (d.slot (q.get 0x42 2)) n q.dest true m.first m.len (fun d off bs => d.keyWrite q.localWrite m.lkey (m.laddr + off) bs false)
          32768 ⟨d, start / 65552 * 65536, m.seg + start / 65552, m.stream ++ payload, none⟩
        match o.fail with
        | some (st, _, f) => o.dev.answerFail n q m p st f false
        | none => o.dev.answerDone n q { m with got := p :: m.got, stream := o.stream } p
      else
        match d.keyWrite q.localWrite m.lkey (m.laddr + i * q.mtu) payload false with
        | (d, some f) => d.answerFail n q m p f.st (some f) false
        | (d, none) => d.answerDone n q { m with got := p :: m.got } p))

/-- The original value of an atomic comes back. -/
def rxAtomicAck (n : Nat) (d : Dev) (q : Qp) (x : RxPkt) : Dev :=
  match q.answerFor false (pktPsn x.bytes) with
  | none => d
  | some m =>
    match d.keyWrite q.localWrite m.lkey m.laddr (leBytes 8 (beAt x.bytes (q.hdrAt + 4) 8)) false with
    | (d, some f) => d.answerFail n q m (pktPsn x.bytes) f.st (some f) true
    | (d, none) => d.answerDone n q { m with got := [pktPsn x.bytes] } (pktPsn x.bytes)

/-- ATOMIC_ACKNOWLEDGE: the original value lands at LADDR. -/
def execAtomicAcknowledge (qpn : BitVec 20) (s : State) : Host.Outcome State Fault Refusal :=
  onDev s (fun d => d.withRx qpn.toNat 8 false (fun _ => true) (rxAtomicAck qpn.toNat))

/-! ## UD -/

/-- Land the pieces of a UD receive, each at an offset of the entry. -/
def Dev.landUd (d : Dev) (q : Qp) (desc : BitVec 512) : List (Nat × List Byte) → Dev × Option UnitFail
  | [] => (d, none)
  | (o, bs) :: r =>
    match d.keyWrite q.localWrite (dFld desc 0x18 4) (dFld desc 0x10 8 + o) bs false with
    | (d, some f) => (d, some f)
    | (d, none) => d.landUd q desc r

/-- UD_PACKET: a UD SEND or a steered frame is placed in a RECV entry, or dropped (R384, R392, R402, R375). -/
def execUdPacket (qpn : BitVec 20) (s : State) : Host.Outcome State Fault Refusal :=
  let n := qpn.toNat
  onDev s (fun d =>
    d.withRx n 9 true (fun _ => match d.qp n with | some q => !d.recvWaits q | none => true) (fun d q x =>
      let op := pktOp x.bytes
      if x.raw && !(q.isUd && q.raw) then d.finc Reg.QPE_NO_QP_COUNT
      else if !x.raw && (q.raw || !(decide (op = 0x64 ∨ op = 0x65)) || decide (beAt x.bytes 12 4 ≠ q.get 0x14 4)) then d.finc Reg.QPE_UD_DROP_COUNT
      else
        let imm := !x.raw && decide (op = 0x65)
        let payload := if x.raw then x.bytes else d.pktData q x (if imm then 24 else 20) none
        let head := if x.raw then 0 else 40
        let v6 := decide (beAt x.ip 0 1 ≠ 0)
        let stamp := match x.stamp with | some t => leBytes 8 t | none => []
        let total := head + payload.length + stamp.length
        match d.recvTake n (pktPsn x.bytes) (if x.raw then 0 else beAt x.bytes 17 3) with
        | none => d.finc Reg.QPE_UD_DROP_COUNT
        | some (d, i) =>
          match (d.qp n).bind (fun q => q.recvs.find? (fun r => decide (r.idx = i))) with
          | none => d
          | some r =>
            let fin (d : Dev) (st : Status) (b : Nat) : Dev :=
              d.updQp n (fun q => q.updRecv i (fun u => { u with bytes := b, imm := if imm then some (beAt x.bytes 20 4) else none, done := some st }))
            if dFld r.desc 0x1C 4 < total then fin d .lengthError 0
            else
              let ip := if head = 0 ∨ x.ip = [] then [] else if v6 then [(0, x.ip)] else [(20, x.ip.drop 20)]
              match d.landUd q r.desc (ip ++ [(head, payload), (head + payload.length, stamp)]) with
              | (d, some f) => fin (d.unitFault (d.qpUnit n q (dFld r.desc 0x18 4)) f true false) f.st 0
              | (d, none) => fin d .ok total))

/-! ## Congestion (R414 to R417) -/

/-- The QP reacts to congestion: RC on the Ethernet path, with reaction on. -/
def Dev.ccOn (d : Dev) (q : Qp) : Bool := !q.isUd && !q.onaud && decide (q.state = 3) && d.fon Reg.QPE_CC_EN_EN

/-- A rate in whole Mb/s between R_MIN and the port rate. -/
def Dev.clampRate (d : Dev) (q : Qp) (r : Nat) : Nat := max (d.fget Reg.QPE_CC_RMIN_R_MIN) (min (d.portRate (q.get 0x3C 1)) r)

/-- G_SHIFT, clamped. -/
def Dev.gShift (d : Dev) : Nat := max 1 (min 10 (d.fget Reg.QPE_CC_INC_G_SHIFT))

/-- ALPHA after one decay. -/
def Dev.alphaDown (d : Dev) (a : Nat) : Nat := a - a / 2 ^ d.gShift

/-- The increase of R415. -/
def Dev.ccIncrease (d : Dev) (q : Qp) : Qp :=
  let f := d.fget Reg.QPE_CC_INC_F
  let t := q.get 0x6A 1
  let b := q.get 0x6B 1
  let rt :=
    if max t b < f then q.rt
    else if min t b < f then d.clampRate q (q.rt + d.fget Reg.QPE_CC_RAI_R_AI)
    else d.clampRate q (q.rt + d.fget Reg.QPE_CC_RHAI_R_HAI * (min t b - f + 1))
  (q.put 0x64 4 rt).put 0x60 4 (d.clampRate q ((rt + q.rc) / 2))

/-- CNP: the rate falls, at most once in K_DEC_US (R415). -/
def execCnp (qpn : BitVec 20) (s : State) : Host.Outcome State Fault Refusal :=
  let n := qpn.toNat
  onDev s (fun d =>
    if !d.live then d
    else
      match d.takeRx n (fun x => decide (d.pktRow n x = 10)) with
      | none => d
      | some (_, d) =>
        match d.qp n with
        | none => d.finc Reg.QPE_NO_QP_COUNT
        | some q =>
          if q.state ≠ 3 then d.finc Reg.QPE_NO_QP_COUNT
          else
            let soon := match q.decAt with | some t => decide (d.clk - t < 1000 * d.fget Reg.QPE_CC_TIMERS_K_DEC_US) | none => false
            if !d.ccOn q || soon then d
            else
              let a := q.get 0x68 2
              let q' := (q.put 0x64 4 q.rc).put 0x60 4 (d.clampRate q (q.rc * (2048 - a) / 2048))
              let q' := (q'.put 0x68 2 (d.alphaDown a + 1024 / 2 ^ d.gShift)).put 0x6A 6 0
              (d.setQp n { q' with decAt := some d.clk }).finc Reg.QPE_CNP_RX_COUNT)

/-- ALPHA_DECAY. -/
def execAlphaDecay (qpn : BitVec 20) (s : State) : Host.Outcome State Fault Refusal :=
  onDev s (fun d => match d.qp qpn.toNat with
    | some q => if d.live && d.ccOn q then d.setQp qpn.toNat (q.put 0x68 2 (d.alphaDown (q.get 0x68 2))) else d
    | none => d)

/-- TIMER_INCREASE. -/
def execTimerIncrease (qpn : BitVec 20) (s : State) : Host.Outcome State Fault Refusal :=
  onDev s (fun d => match d.qp qpn.toNat with
    | some q => if d.live && d.ccOn q then d.setQp qpn.toNat (d.ccIncrease (q.put 0x6A 1 (min 255 (q.get 0x6A 1 + 1)))) else d
    | none => d)

/-- BYTE_INCREASE: B_COUNT has reached B_INC. -/
def execByteIncrease (qpn : BitVec 20) (s : State) : Host.Outcome State Fault Refusal :=
  onDev s (fun d => match d.qp qpn.toNat with
    | some q =>
      if d.live && d.ccOn q && decide (d.fget Reg.QPE_CC_BINC_B_INC ≤ q.get 0x6C 4) then
        d.setQp qpn.toNat (d.ccIncrease ((q.put 0x6B 1 (min 255 (q.get 0x6B 1 + 1))).put 0x6C 4 0))
      else d
    | none => d)

/-- RTT_PROBE: an RTT_REQ goes out (R416). -/
def execRttProbe (qpn : BitVec 20) (s : State) : Host.Outcome State Fault Refusal :=
  onDev s (fun d => match d.qp qpn.toNat with
    | some q =>
      if d.live && decide (q.state = 3) && q.flag 7 && !q.isUd then
        d.rcSend qpn.toNat (q.pkt 0xC0 q.dest 0 false (uph 0 false false 0) [] (beBytes 8 d.ptp ++ List.replicate 24 0)) false none
      else d
    | none => d)

/-- RTT_REQ: answered with the arrival and send times. -/
def execRttReq (qpn : BitVec 20) (s : State) : Host.Outcome State Fault Refusal :=
  let n := qpn.toNat
  onDev s (fun d => d.withRx n 11 true (fun _ => true) (fun d q x =>
    if q.isUd then d
    else
      let t1 := beAt x.bytes q.hdrAt 8
      d.rcSend n (q.pkt 0xC1 q.dest 0 false (uph 0 false false 0) [] (beBytes 8 t1 ++ beBytes 8 x.time ++ beBytes 8 d.ptp ++ List.replicate 8 0)) false none))

/-- RTT_RSP: a round trip, which may cut the rate once an interval. -/
def execRttRsp (qpn : BitVec 20) (s : State) : Host.Outcome State Fault Refusal :=
  let n := qpn.toNat
  onDev s (fun d => d.withRx n 12 false (fun _ => true) (fun d q x =>
    if q.isUd then d
    else
      let t (k : Nat) : Nat := beAt x.bytes (q.hdrAt + 8 * k) 8
      let rtt := (x.time - t 0) - (t 2 - t 1)
      let high := 1000 * d.fget Reg.QPE_RTT_CTL_RTT_HIGH_US
      let q := q.put 0x78 4 (min 0xFFFFFFFF rtt)
      let soon := match q.rttAt with
        | some u => decide (d.clk - u < 1000 * max 10 (d.fget Reg.QPE_RTT_CTL_INTERVAL_US))
        | none => false
      if !d.ccOn q || decide (rtt ≤ high) || soon then d.setQp n q
      else
        let cut := d.fget Reg.QPE_CC_BETA_BETA * (rtt - high)
        let rc := q.rc * (1024 * rtt - cut) / (1024 * rtt)
        d.setQp n { (q.put 0x64 4 q.rc).put 0x60 4 (d.clampRate q rc) with rttAt := some d.clk }))

/-! ## Timers -/

/-- ACK_TIMEOUT: the acknowledgement timer expires (R398); an RNR wait governs (R418). -/
def execAckTimeout (qpn : BitVec 20) (s : State) : Host.Outcome State Fault Refusal :=
  onDev s (fun d => match d.qp qpn.toNat with
    | some q =>
      if d.live && decide (q.state = 3) && !q.isUd && decide (q.open_ ≠ 0) && q.rnrWait.isNone then
        (d.finc Reg.QPE_TIMEOUTS_COUNT).qpRetry qpn.toNat q.una
      else d
    | none => d)

/-- RNR_WAIT_EXPIRY: the requester goes back to the PSN that the RNR NAK named. -/
def execRnrWaitExpiry (qpn : BitVec 20) (s : State) : Host.Outcome State Fault Refusal :=
  onDev s (fun d => match d.qp qpn.toNat with
    | some q =>
      match q.rnrWait with
      | some p => if d.live then (d.setQp qpn.toNat { q with rnrWait := none }).qpResend qpn.toNat p else d
      | none => d
    | none => d)

/-- ACK_DELAY: landed packets wait for their Acknowledge no longer (R397). -/
def execAckDelay (qpn : BitVec 20) (s : State) : Host.Outcome State Fault Refusal :=
  onDev s (fun d => match d.qp qpn.toNat with
    | some q => if d.live && decide (q.unacked ≠ 0) && decide (q.state = 2 ∨ q.state = 3) then d.ackNow qpn.toNat else d
    | none => d)

/-- UNORDERED_GAP: RQ_EPSN has stayed behind a landed packet (R404). -/
def execUnorderedGap (qpn : BitVec 20) (s : State) : Host.Outcome State Fault Refusal :=
  onDev s (fun d => match d.qp qpn.toNat with
    | some q =>
      if d.live && q.unord && decide (q.state = 2 ∨ q.state = 3) && (!q.bitmap.isEmpty || !q.ahead.isEmpty) then d.respAhead qpn.toNat else d
    | none => d)

end Sys2Proof.Machine
end

