-- ==== Sys2Proof/Machine/VfmOps.lean ====
section
/-! DEFINITION. Functions: their drain, and the state image of a VF (chapter 13). -/
namespace Sys2Proof.Machine
open Sys2Proof

/-- A function with the registers of R463: every one but PF0. -/
def Dev.vfmFn (d : Dev) (f : Nat) : Bool := d.isFn f && decide (f ≠ 0)
/-- A VF. -/
def isVf (f : Nat) : Bool := decide (1 ≤ f) && decide (f ≤ 255)
/-- Give a function a state. -/
def Dev.fnSet (d : Dev) (f st : Nat) : Dev := d.fset (Reg.VFM_FNf_STATE_STATE f) st
/-- The outcome of a VFM command. -/
def Dev.vfmStatus (d : Dev) (st : Status) : Dev := d.fset Reg.VFM_CMD_STATUS_STATUS st.code
/-- FN_CMD_DONE (R451). -/
def Dev.fnCmdDone (d : Dev) (f op : Nat) (st : Status) (bytes : Nat) : Dev :=
  d.post 0 (.other 0x33) st.code (f + op * 2 ^ 16 + bytes * 2 ^ 32)
/-- A VFM command. -/
def vfmCmd (s : State) (f : Dev → Dev) : Host.Outcome State Fault Refusal :=
  onDev s (fun d => d.command Reg.VFM_CMD_STATUS_BUSY Reg.VFM_CMD_STATUS_CMD_ERR f)

/-- The queues of a function. -/
def Dev.fnQueues (d : Dev) (f : Nat) : List (Nat × Wq) := d.wq.queues.ents.filter (fun p => decide (wqFn p.2.ctx = f))
/-- The queue pairs of a function. -/
def Dev.fnQps (d : Dev) (f : Nat) : List (Nat × Qp) := d.qpe.qps.ents.filter (fun p => decide (p.2.fn = f))
/-- The regions of a function in a state. -/
def Dev.fnRegions (d : Dev) (f st : Nat) : List (Nat × BitVec 256) :=
  d.dtu.mr.ents.filter (fun p => decide (mrState p.2 = st) && decide (mrFunction p.2 = f))
/-- The roots of a function. -/
def Dev.fnRoots (d : Dev) (f : Nat) : List (Nat × DtuRoot) := d.dtu.roots.ents.filter (fun p => decide (p.2.fn = f))

/-! ## Mailboxes (R449, R450) -/

/-- The mailbox of a function is open. -/
def Dev.mboxOpen (d : Dev) (f : Nat) : Bool := let s := d.fnState f; decide (s = 1 ∨ s = 3 ∨ s = 4)
/-- Close a mailbox: both buffers and their bits are cleared. -/
def Dev.mboxClear (d : Dev) (f : Nat) : Dev :=
  let d := (d.fset (Reg.VFM_FNf_MBOX_CTL_FROM_FULL f) 0).fset (Reg.VFM_FNf_MBOX_CTL_TO_BUSY f) 0
  let d := d.fclr (Reg.VFM_MBOX_PENDi_PEND (f / 32)) (2 ^ (f % 32))
  d.upVf (fun v => { v with toFn := v.toFn.del f, fromFn := v.fromFn.del f })

/-! ## The drain (R454, R455) -/

/-- Move every QP of a function to ERROR. -/
def Dev.errorQps (d : Dev) (f : Nat) : Dev :=
  (d.fnQps f).foldl (fun d p => d.qpError p.1 .flushed p.2.sqPsn 0 noOwner (fun _ => false)) d

/-- End every dispatch, collective and Caddy context of a function's queues (R454, step 4). -/
def Dev.endContexts (d : Dev) (f : Nat) (st : Status) : Dev :=
  let d := ((d.xdu.ctxs.ents.filter (fun p => decide (p.2.fn = f))).map (·.1)).foldl (fun d k => d.xduEnd k st) d
  (d.smvFailWhere (fun c => decide (c.fn = f)) st Coll.self).streamsEnd (fun c => decide (c.fn = f)) st

/-- Steps 2 to 5 of the drain point of a function (R454). -/
def Dev.drainPoint (d : Dev) (f : Nat) : Dev :=
  let d := d.upWq (fun w => { w with queues := w.queues.mapVal (fun _ q => if wqFn q.ctx = f then { q with quiet := true } else q) })
  let d := (d.errorQps f).endContexts f .flushed
  d.upDtu (fun x =>
    { x with mr := x.mr.mapVal (fun _ e => if mrState e = 1 ∧ mrFunction e = f then bvSet e 0 8 2 else e) })

/-- What a function held is reset, when its drain is complete (R454). -/
def Dev.drainEnd (d : Dev) (f : Nat) : Dev :=
  let d := (d.fnRegions f 2).foldl (fun d p => if d.dtu.revoking.contains p.1 then d.revokeEnd p.1 else d) d
  let d := d.upDtu (fun x =>
    { x with
      mr := x.mr.mapVal (fun _ e => if mrState e = 2 ∧ mrFunction e = f then BitVec.ofNat 256 (256 * mrGen e) else e),
      staleRoots := x.staleRoots.filter (fun w => (x.roots.find w.root).all (fun r => decide (r.fn ≠ f))),
      roots := x.roots.keep (fun _ r => decide (r.fn ≠ f)) })
  let d := d.upWq (fun w => { w with queues := w.queues.keep (fun _ q => decide (wqFn q.ctx ≠ f)) })
  let d := d.upQpe (fun x => { x with qps := x.qps.keep (fun _ q => decide (q.fn ≠ f)) })
  d.upEv (fun e =>
    { e with eqs := e.eqs.del f, pend := e.pend.del f, overflowed := e.overflowed.filter (fun g => decide (g ≠ f)) })

/-- The drain point of a function: DISABLE (`flr` false) or FLR takes effect (R454). -/
def Dev.startDrain (d : Dev) (f : Nat) (flr : Bool) : Dev :=
  let d := (d.mboxClear f).fnSet f 2
  let d := d.upVf (fun v => { v with flr := if flr then f :: v.flr else v.flr })
  let d := d.drainPoint f
  (d.fset (Reg.VFM_FNf_DRAIN_US_US f) 0).fset (Reg.VFM_FNf_STATE_DRAIN_STUCK f) 0

/-- The drain of a function is complete: what it held is reset, and FN_STATE is posted (R454). -/
def Dev.finishDrain (d : Dev) (f : Nat) : Dev :=
  let toSt := if d.vf.flr.contains f then 1 else 0
  let d := (d.drainEnd f).upVf (fun v => { v with flr := v.flr.filter (fun g => decide (g ≠ f)) })
  let d := ((d.fset (Reg.VFM_FNf_DRAIN_US_US f) 0).fset (Reg.VFM_FNf_STATE_DRAIN_STUCK f) 0).fnSet f toSt
  d.post 0 (.other 0x32) 0 (f + 2 * 2 ^ 16 + toSt * 2 ^ 20)

/-! ## Freezing (R457) -/

/-- Nothing of a function remains outstanding: no entry that has started, no context, no message, and no acknowledgement
or response owed. -/
def Dev.fnQuiet (d : Dev) (f : Nat) : Bool :=
  (d.fnQueues f).all (fun p => decide (p.2.started = []) && decide (p.2.finished = []) && !p.2.unpub) &&
  d.xdu.ctxs.vals.all (fun c => decide (c.fn ≠ f)) && d.smv.colls.vals.all (fun c => decide (c.fn ≠ f)) &&
  d.cad.streams.vals.all (fun c => decide (c.fn ≠ f)) &&
  (d.fnQps f).all (fun p =>
    decide (p.2.out = []) && decide (p.2.recvs = []) && decide (p.2.ends = []) && decide (p.2.ahead = []) && decide (p.2.unacked = 0) &&
    p.2.cur.all (fun m => m.write && decide (m.stream = [])) && !d.txs.ready.any (fun t => decide (t.who = p.1)))

/-! ## The state image (R459 to R461) -/

/-- Where QP_FIRST and QP_COUNT of a function stand: the first QPN and how many (R446). -/
def Dev.fnQpRange (d : Dev) (f : Nat) : Nat × Nat :=
  ((d.sec secQueueShapes).u32 (shapeAt f + 4), (d.sec secQueueShapes).u32 (shapeAt f + 8))

/-- The QPN that queue records bound to a SEND and a RECV queue tell; none when neither queue has a record. -/
def boundQpn (recs : List (Nat × Nat)) (sq rq : Nat) : Option Nat :=
  match recs.find? (fun r => decide (r.1 = sq)), recs.find? (fun r => decide (r.1 = rq)) with
  | some r, _ => some r.2
  | none, some r => some r.2
  | none, none => none

/-- The record of a queue pair: its context with the state it held on entering FREEZING, its reorder bitmap and its atomic
results.  No field of R460 gives the QPN: that of a queue pair whose queues do not tell it lies at 0xCC (log entry 44). -/
def Dev.qpRecord (d : Dev) (f n : Nat) (q : Qp) : List Byte :=
  let ctx := bvSet (d.qpView n) 0 8 q.frozen
  let told := boundQpn ((d.fnQueues f).map (fun p => (p.1, wqBind p.2.ctx))) q.sqQid q.rqQid
  let ctx := if told = some n then ctx else bvSet ctx (8 * 0xCC) 32 (n + 1)
  leBytes 256 ctx.toNat ++ leBytes 256 (if q.unord then maskOf (q.bitmap.map (· % 2048)).eraseDups else 0) ++
    (if q.flag 6 then
      (q.atomics.flatMap (fun (a : Nat × W64) => leBytes 8 (a.1 + 2 ^ 32) ++ leBytes 8 a.2.toNat) ++ List.replicate 512 0).take 512
    else List.replicate 512 0)

/-- The record of a queue: QUERY_WQ's 64 bytes with its QID. -/
def queueRecord (p : Nat × Wq) : List Byte := leBytes 64 (setFld (wqQuery p.2) (8 * 0x2E) 16 p.1)

/-- The record of a region. -/
def regionRecord (p : Nat × BitVec 256) : List Byte := leBytes 32 p.2.toNat ++ leBytes 32 p.1

/-- The record of a root. -/
def rootRecord (p : Nat × DtuRoot) : List Byte := leBytes 16 (p.1 + p.2.link * 2 ^ 16)

/-- The record of a function's event queue and pending store. -/
def Dev.eqRecord (d : Dev) (f : Nat) : List Byte :=
  (match d.ev.eqs.find f with
    | some q =>
      leBytes 8 q.base ++ leBytes 2 q.vector ++ leBytes 1 (1 + 2 * b2n q.arm + 4 * b2n q.failed) ++ leBytes 1 0 ++ leBytes 4 q.written ++
        leBytes 4 q.consumed ++ leBytes 2 q.root ++ leBytes 2 0
    | none => leBytes 24 0) ++
  leBytes 8 (d.pendMask f) ++ leBytes 32 0 ++
  (List.range 64).flatMap (fun ty =>
    match (d.pendStore f).find ty with
    | some e => leBytes 4 e.count ++ leBytes 1 e.status ++ leBytes 3 0 ++ leBytes 16 e.body.toNat
    | none => leBytes 24 0)

/-- Everything after the header of a VF's state image. -/
def Dev.vfBody (d : Dev) (f : Nat) : List Byte :=
  let roots := (d.fnRoots f).flatMap rootRecord
  (d.fnQps f).flatMap (fun p => d.qpRecord f p.1 p.2) ++ (d.fnQueues f).flatMap queueRecord ++ (d.fnRegions f 1).flatMap regionRecord ++
    roots ++ List.replicate (roundUp roots.length 64 - roots.length) 0 ++ d.eqRecord f

/-- The bytes of a VF's state image: the size of R460. -/
def Dev.vfSize (d : Dev) (f : Nat) : Nat :=
  64 + 1024 * (d.fnQps f).length + 64 * (d.fnQueues f).length + 64 * (d.fnRegions f 1).length + roundUp (16 * (d.fnRoots f).length) 64 + 1600

/-- A VF's state image. -/
def Dev.vfImage (d : Dev) (f : Nat) : List Byte :=
  let body := d.vfBody f
  leBytes 4 0x49534656 ++ leBytes 2 1 ++ leBytes 2 f ++ leBytes 1 ((d.fnPart f).getD 0) ++ leBytes 1 d.rank ++
    leBytes 1 (d.fnRoots f).length ++ leBytes 1 (d.fnGroups f).2 ++ leBytes 4 (d.fnQps f).length ++ leBytes 2 (d.fnQueues f).length ++
    leBytes 2 (d.fnGroups f).1 ++ leBytes 4 (d.fnRegions f 1).length ++ leBytes 4 (d.vfSize f) ++ leBytes 4 (d.fnQpRange f).1 ++
    leBytes 32 (sha256 body).toNat ++ body

/-- Where the sections of an image lie: queue pairs, queues, regions, roots, event queue. -/
structure ImgMap where
  qps : Nat
  queues : Nat
  regions : Nat
  roots : Nat
  eq : Nat
  deriving DecidableEq, Repr

/-- The places of an image's sections. -/
def imgMap (b : Blob) : ImgMap :=
  let q := 64 + 1024 * b.u32 0x0C
  let r := q + 64 * b.u16 0x10
  let t := r + 64 * b.u32 0x14
  ⟨64, q, r, t, t + roundUp (16 * b.u8 0x0A) 64⟩

/-- The context of the QP record i of an image. -/
def imgQp (b : Blob) (i : Nat) : BitVec 2048 := BitVec.ofNat 2048 (leNat (b.bytes ((imgMap b).qps + 1024 * i) 256))

/-- The queue records of an image: QID and context. -/
def imgQueues (b : Blob) : List (Nat × BitVec 512) :=
  (List.range (b.u16 0x10)).map (fun i =>
    let c := BitVec.ofNat 512 (leNat (b.bytes ((imgMap b).queues + 64 * i) 64))
    (bvFld c (8 * 0x2E) 16, bvSet c (8 * 0x2E) 16 0))

/-- The queue pairs of an image: QPN and record number.  One whose QPN nothing tells comes after the one before it. -/
def imgQpns (b : Blob) : List (Nat × Nat) :=
  let told := (imgQueues b).map (fun p => (p.1, wqBind p.2))
  ((List.range (b.u32 0x0C)).foldl (fun (r : List (Nat × Nat) × Nat) i =>
    let c := imgQp b i
    let n := if bvFld c (8 * 0xCC) 32 ≠ 0 then bvFld c (8 * 0xCC) 32 - 1 else (boundQpn told (bvFld c 64 16) (bvFld c 80 16)).getD r.2
    (r.1 ++ [(n, i)], n + 1)) ([], b.u32 0x1C)).1

/-- The region records of an image: index and entry. -/
def imgRegions (b : Blob) : List (Nat × BitVec 256) :=
  (List.range (b.u32 0x14)).map (fun i =>
    (b.u32 ((imgMap b).regions + 64 * i + 0x20), BitVec.ofNat 256 (leNat (b.bytes ((imgMap b).regions + 64 * i) 32))))

/-- Entry i of the root map of RESTORE (R461). -/
def Dev.rootMapEntry (d : Dev) (i : Nat) : Nat := fld (d.fget (Reg.VFM_CMD_DATAi_DATA (i / 2))) (16 * (i % 2)) 16

/-- A source root of an image through the root map. -/
def Dev.mapRoot (d : Dev) (b : Blob) (r : Nat) : Nat :=
  match (List.range (b.u8 0x0A)).find? (fun i => decide (b.u16 ((imgMap b).roots + 16 * i) = r)) with
  | some i => d.rootMapEntry i % 1024
  | none => 0

/-- A source QID of an image on function f of this device; 0xFFFF names no queue. -/
def Dev.mapQid (d : Dev) (b : Blob) (f q : Nat) : Nat :=
  if q = 0xFFFF then q else (65536 + q + 64 * (d.fnGroups f).1 - 64 * b.u16 0x12 % 65536) % 65536

/-- The first check of RESTORE that an image fails, in the order of R461. -/
def Dev.restoreCheck (d : Dev) (b : Blob) (f : Nat) : Status :=
  let qps := imgQpns b
  let range := d.fnQpRange f
  let total := b.u32 0x18
  let part := (d.fnPart f).getD 32
  if b.u32 0 ≠ 0x49534656 ∨ b.u16 4 ≠ 1 ∨ d.fget Reg.VFM_IMG_LEN_LEN < total ∨
      b.bytes 0x20 32 ≠ leBytes 32 (sha256 (b.bytes 64 (total - 64))).toNat then .malformed
  else if range.1 ≠ b.u32 0x1C ∨ ¬ qps.all (fun p => decide (range.1 ≤ p.1 ∧ p.1 < range.1 + range.2)) = true then .accessError
  else if (d.fnGroups f).2 ≠ b.u8 0x0B then .accessError
  else if ¬ (qps.all (fun p => (d.qp p.1).isNone) && (imgRegions b).all (fun p => decide (mrState (d.mrEntry p.1) = 0)) &&
      (imgQueues b).all (fun p => (d.wqFind (d.mapQid b f p.1)).isNone)) = true then .accessError
  else if ¬ (List.range (b.u8 0x0A)).all (fun i => decide ((d.dtu.roots.find (d.rootMapEntry i)).map (·.fn) = some f)) = true then .accessError
  else if ¬ qps.all (fun p => !(Qp.fresh (imgQp b p.2)).prot || d.slotAllows (bvFld (imgQp b p.2) (8 * 0x42) 16) 4 part) = true then .accessError
  else if ¬ qps.all (fun p => !(Qp.fresh (imgQp b p.2)).onaud || decide (bvFld (imgQp b p.2) (8 * 0x3C) 8 < d.podSize)) = true then .accessError
  else .ok

/-- A queue pair as an image's record i restores it on function f. -/
def Dev.restoreQp (d : Dev) (b : Blob) (f i : Nat) : Qp :=
  let at_ := (imgMap b).qps + 1024 * i
  let c := bvSet (imgQp b i) (8 * 0xCC) 32 0
  let q := Qp.fresh (bvSet (bvSet (bvSet c 32 16 f) 64 16 (d.mapQid b f (bvFld c 64 16))) 80 16 (d.mapQid b f (bvFld c 80 16)))
  let cur : Option RespMsg :=
    if bvFld c (8 * 0xBC) 32 = 0 then none
    else some ⟨true, q.epsn, bvFld c (8 * 0xB0) 64, bvFld c (8 * 0xB8) 32, bvFld c (8 * 0xBC) 32, none, 0, []⟩
  let bits := leNat (b.bytes (at_ + 0x100) 256)
  let atomics := (List.range 32).filterMap (fun k =>
    let w := b.u64 (at_ + 0x200 + 16 * k)
    if w < 2 ^ 32 then none else some (w % 2 ^ 24, BitVec.ofNat 64 (b.u64 (at_ + 0x208 + 16 * k))))
  let q := { q with
    cur := cur, atomics := atomics,
    bitmap := ((List.range 2048).map (fun k => psnAdd q.epsn k)).filter (fun p => bits.testBit (p % 2048)) }
  q.put 0xB0 16 0

/-- A queue as an image's record restores it on function f; entries at and past HEAD start again. -/
def Dev.restoreQueue (d : Dev) (b : Blob) (f : Nat) (c : BitVec 512) : Wq :=
  let ctx := bvSet (bvSet (bvSet c 256 256 0) (8 * 0x10) 16 f) (8 * 0x1A) 16 (d.mapRoot b (bvFld c (8 * 0x1A) 10))
  let st := match bvFld c (8 * 0x2C) 8 with
    | 1 => QState.active
    | 2 => .draining
    | 3 => .error
    | 4 => .lost
    | 5 => .halted
    | _ => .reset
  { ctx := ctx, state := st, tail := bvFld c 256 32, head := bvFld c 288 32, fails := bvFld c 320 32, next := bvFld c 288 32, fetched := [],
    started := [], finished := [], complete := [], tries := 0, unpub := false, news := false, arm := false, quiet := false, events := [] }

/-- The event queue and pending store of an image go to function f. -/
def Dev.restoreEvents (d : Dev) (b : Blob) (f : Nat) : Dev :=
  let o := (imgMap b).eq
  let fl := b.u8 (o + 0x0A)
  let q : EventQ :=
    ⟨b.u64 o, b.u16 (o + 8), d.mapRoot b (b.u16 (o + 0x14)), b.u32 (o + 0x0C), b.u32 (o + 0x10), fl.testBit 1, fl.testBit 2, false⟩
  let store : List (Nat × PendEvent) := (List.range 64).filterMap (fun ty =>
    if (b.u64 (o + 0x18)).testBit ty then
      let a := o + 0x40 + 24 * ty
      some (ty, ⟨b.u32 a, b.u8 (a + 4), BitVec.ofNat 128 (leNat (b.bytes (a + 8) 16))⟩)
    else none)
  d.upEv (fun e =>
    { e with
      eqs := if fl.testBit 0 then e.eqs.set f q else e.eqs.del f, pend := e.pend.set f ⟨store⟩,
      overflowed := e.overflowed.filter (fun g => decide (g ≠ f)) })

/-- Write the state that an image holds into VF f (R461). -/
def Dev.restoreInto (d : Dev) (b : Blob) (f : Nat) : Dev :=
  let part := (d.fnPart f).getD 0
  let m := d
  let d := (imgRegions b).foldl (fun d p =>
    let e := bvSet (bvSet p.2 32 16 f) (8 * 0x18) 8 part
    let e := if mrKind e = 0 then bvSet e 48 16 (m.mapRoot b (mrRoot e)) else e
    d.upDtu (fun x => { x with mr := x.mr.set p.1 e })) d
  let d := (imgQueues b).foldl (fun d p => d.wqSet (m.mapQid b f p.1) (m.restoreQueue b f p.2)) d
  let d := (imgQpns b).foldl (fun d p =>
    let c := imgQp b p.2
    let d := d.setQp p.1 (m.restoreQp b f p.2)
    (List.range 4).foldl (fun d k =>
      d.upQpe (fun x => { x with trig := x.trig.set (4 * p.1 + k) (BitVec.ofNat 32 (bvFld c (8 * (0x80 + 4 * k)) 32)) })) d) d
  let d := (d.restoreEvents b f).mboxClear f
  (d.fnSet f 1).postPending f 4100

end Sys2Proof.Machine
end

