-- ==== Sys2Proof/Machine/ImgCheck.lean ====
section
/-! DEFINITION. The checks of an image: its size, header, directory and scope (R54 to R58, R64), and at commit the contents
of its tables (REASON 0x0B).  The content checks are those that the owning chapters list, with the splits and shares of
TIER_BUDGETS held to their ranges (log entry 11). -/
namespace Sys2Proof.Machine
open Sys2Proof

/-! ## Header and directory (R56, R57) -/

/-- SECTION_COUNT. -/
def imgCount (b : Blob) : Nat := b.u16 0x1A
/-- TYPE of directory entry i. -/
def dirType (b : Blob) (i : Nat) : Nat := b.u16 (0x100 + 64 * i)
/-- OFFSET. -/
def dirOffset (b : Blob) (i : Nat) : Nat := b.u64 (0x100 + 64 * i + 0x08)
/-- LENGTH. -/
def dirLength (b : Blob) (i : Nat) : Nat := b.u64 (0x100 + 64 * i + 0x10)
/-- DIGEST. -/
def dirDigest (b : Blob) (i : Nat) : BitVec 256 := BitVec.ofNat 256 (b.le (0x100 + 64 * i + 0x20) 32)
/-- SCOPE is 1: a partition-scoped image. -/
def imgScoped (b : Blob) : Bool := decide (b.u8 0x13 = 1)
/-- PARTITION. -/
def imgPart (b : Blob) : Nat := b.u8 0x14
/-- FLAGS.VARIANT. -/
def imgVariant (b : Blob) : Bool := (b.u8 0x15).testBit 0
/-- SECURITY_VERSION. -/
def imgSecurity (b : Blob) : Nat := b.u16 0x18
/-- TOTAL_SIZE. -/
def imgTotal (b : Blob) : Nat := b.u64 0x08
/-- The signed header. -/
def imgHeader (b : Blob) : List Byte := b.bytes 0 4096
/-- The section of directory entry i. -/
def imgSection (b : Blob) (i : Nat) : Blob := b.sub (dirOffset b i) (dirLength b i)
/-- The types of the sections, in directory order. -/
def imgTypes (b : Blob) : List Nat := listOf (imgCount b) (dirType b)

/-- The smallest and largest image, and the trailer (R54). -/
def imgSizeOk (n : Nat) : Bool := decide (16048 ≤ n) && decide (n ≤ 536870912)

/-- MAGIC, FORMAT, HEADER_SIZE, the reserved fields and the ranges of R56 hold (REASON 0x02). -/
def imgFormatOk (b : Blob) : Bool :=
  decide (b.u32 0 = 0x4E525256) && decide (b.u16 4 = 1) && decide (b.u16 6 = 4096) && decide (b.u8 0x13 ≤ 1) &&
  decide (b.u8 0x15 < 2) && b.zeroAt 0x16 2 && decide (imgSecurity b ≤ 64) && b.zeroAt 0x1C 4 && b.zeroAt 0x2D 3 && b.zeroAt 0x38 200 &&
  (imgScoped b || (decide (imgPart b = 0) && b.zeroAt 0x28 5))

/-- PART and STEPPING (REASON 0x03). -/
def imgPartOk (b : Blob) : Bool := decide (b.u16 0x10 = 0x6400) && decide (b.u8 0x12 = 0xB0)

/-- A type code of R58. -/
def knownType (t : Nat) : Bool := (decide (1 ≤ t) && decide (t ≤ 0x10)) || decide (0x8000 ≤ t)

/-- Where the section of entry i must lie: past every earlier one, and with zeros between (R55). -/
def dirEnd (b : Blob) (i : Nat) : Nat := if i = 0 then 4096 else dirOffset b (i - 1) + dirLength b (i - 1)

/-- Directory entry i obeys R55, R57 and R58. -/
def dirEntryOk (b : Blob) (i : Nat) : Bool :=
  b.zeroAt (0x100 + 64 * i + 2) 6 && b.zeroAt (0x100 + 64 * i + 0x18) 8 && knownType (dirType b i) &&
  !((imgTypes b).take i).contains (dirType b i) &&
  decide (dirOffset b i % 4096 = 0) && decide (64 ≤ dirLength b i) && decide (dirLength b i ≤ 268435456) && decide (dirLength b i % 64 = 0) &&
  (if i = 0 then decide (dirOffset b i = 4096) else decide (dirEnd b i ≤ dirOffset b i)) &&
  decide (7856 + dirOffset b i + dirLength b i ≤ b.len) && b.zeroAt (dirEnd b i) (dirOffset b i - dirEnd b i)

/-- Where the trailer starts. -/
def imgTrailer (b : Blob) : Nat := roundUp (dirEnd b (imgCount b)) 4096

/-- The sections that a whole image must carry (R58). -/
def imgComplete (b : Blob) : Bool :=
  imgScoped b ||
  ([secPartitionMap, secClusterRoles, secTilePrograms, secNocSchedule, secQueueShapes, secTierBudgets, secKeySlotPolicy].all
      (fun t => (imgTypes b).contains t) &&
    (!(imgTypes b).contains secOnaudSchedule || (imgTypes b).contains secRouteSets))

/-- The first fault of the directory: none, or the entry at fault, 0xFF for the header or trailer (REASON 0x04). -/
def imgDirFault (b : Blob) : Option Nat :=
  if ¬ (1 ≤ imgCount b ∧ imgCount b ≤ 60) then some 0xFF
  else match (List.range (imgCount b)).find? (fun i => !dirEntryOk b i) with
  | some i => some i
  | none =>
    if b.zeroAt (0x100 + 64 * imgCount b) (3840 - 64 * imgCount b) && imgComplete b &&
        decide (imgTotal b = 7856 + imgTrailer b) && b.zeroAt (dirEnd b (imgCount b)) (imgTrailer b - dirEnd b (imgCount b)) then none
    else some 0xFF

/-- A section type that a partition-scoped image may carry (R58). -/
def scopedType (t : Nat) : Bool :=
  [secClusterRoles, secTilePrograms, secNocSchedule, secTierBudgets, secPinnedExperts, secExpertPlacement].contains t || decide (0x8000 ≤ t)

/-- The first scope violation: the entry at fault, 0xFF for the header (REASON 0x05). -/
def Dev.imgScopeFault (d : Dev) (b : Blob) : Option Nat :=
  if imgScoped b = false then (if d.committed then some 0xFF else none)
  else if d.committed = false ∨ 32 ≤ imgPart b ∨ d.partValid (imgPart b) = false then some 0xFF
  else (List.range (imgCount b)).find? (fun i => !scopedType (dirType b i))

/-- The first section whose digest differs (REASON 0x06). -/
def imgDigestFault (b : Blob) : Option Nat :=
  (List.range (imgCount b)).find? (fun i => decide (sha256Blob b (dirOffset b i) (dirLength b i) ≠ dirDigest b i))

/-- Checks 1 to 4 of R64 on a copy of `len` bytes: the REASON and ERR_SECTION of the first that fails. -/
def Dev.imgLoadFault (d : Dev) (len : Nat) (b : Blob) : Option (Nat × Nat) :=
  if imgSizeOk len = false ∨ len ≠ imgTotal b then some (1, 0xFF)
  else if !imgFormatOk b then some (2, 0xFF)
  else if !imgPartOk b then some (3, 0xFF)
  else match imgDirFault b with
  | some i => some (4, i)
  | none =>
    match d.imgScopeFault b with
    | some i => some (5, i)
    | none =>
      match imgDigestFault b with
      | some i => some (6, i)
      | none => none

/-! ## Partitions and functions (R443 to R447) -/

/-- The partition map: no cluster in two partitions, and R444. -/
def Dev.partMapOk (c : Dev) : Bool :=
  let b := c.sec secPartitionMap
  let fn (f : Nat) := b.u8 (64 + 512 + f)
  (List.range 32).all (fun p => c.partValid p || decide (b.u32 (64 + 16 * p) = 0)) &&
  (List.range 32).all (fun k => decide (((List.range 32).filter (fun p => (b.u32 (64 + 16 * p)).testBit k)).length ≤ 1)) &&
  decide (fn 0 ≠ 0xFF) && decide (fn 256 = 0xFF) &&
  (List.range 264).all (fun f => decide (fn f = 0xFF) || (decide (fn f < 32) && c.partValid (fn f)))

/-- Two of the listed ranges (first and length) meet. -/
def rangesMeet (l : List (Nat × Nat)) : Bool :=
  match l with
  | [] => false
  | x :: r => r.any (fun y => decide (x.2 ≠ 0 ∧ y.2 ≠ 0 ∧ x.1 < y.1 + y.2 ∧ y.1 < x.1 + x.2)) || rangesMeet r

/-- The queue shapes (R447). -/
def Dev.shapesOk (c : Dev) : Bool :=
  let b := c.sec secQueueShapes
  let groups := listOf 264 (fun f => (b.u16 (shapeAt f), b.u16 (shapeAt f + 2)))
  let qps := listOf 264 (fun f => (b.u32 (shapeAt f + 4), b.u32 (shapeAt f + 8)))
  let classes (f : Nat) := (List.range 5).foldl (fun n k => n + b.u16 (shapeAt f + 0x0C + 2 * k)) 0
  !rangesMeet groups && !rangesMeet qps &&
  groups.all (fun x => decide (x.2 = 0 ∨ x.1 + x.2 ≤ 1024)) && qps.all (fun x => decide (x.2 = 0 ∨ x.1 + x.2 ≤ 1048576)) &&
  (List.range 264).all (fun f =>
    ((c.sec secPartitionMap).u8 (64 + 512 + f) != 0xFF || (decide (b.u16 (shapeAt f + 2) = 0) && decide (b.u32 (shapeAt f + 8) = 0))) &&
    decide (classes f ≤ 64 * b.u16 (shapeAt f + 2)))

/-! ## Clusters, programs and the NoC (R59, R159, R519, R605) -/

/-- Bit c of a mask of clusters. -/
def inMask (m c : Nat) : Bool := m.testBit c

/-- The roles of the clusters of a mask: codes 0 to 3, and only OFF for a cluster that is fenced or has no spare left
(R59, R519). -/
def Dev.rolesOk (c : Dev) (mask : Nat) : Bool :=
  (List.range 32).all (fun k => !inMask mask k ||
    (decide (c.role k ≤ 3) &&
      (decide (c.role k = 0) || (!c.fbit Reg.RAS_FENCED_CLU_CLUSTERS k && !c.fon (Reg.RAS_CLU_SLOTSc_NO_SPARE k)))))

/-- An engine endpoint that an image grants: the XDU's or the Samovar slice's of a die (R603; log entry 12). -/
def grantedEndpoint (n : Nat) : Bool := (decide (0x40 ≤ n) && decide (n ≤ 0x43)) || (decide (0x48 ≤ n) && decide (n ≤ 0x4B))

/-- The mailboxes that send channels of VALID tiles name, as 8 × tile + mailbox. -/
def Dev.namedMailboxes (c : Dev) : List Nat :=
  ((List.range 512).filter c.tileValid).flatMap (fun t =>
    ((listOf 16 (c.channel t)).filter (fun w => w.testBit 15 && !w.testBit 14)).map (fun w => 8 * fld w 0 9 + fld w 11 3))

/-- No number is listed twice. -/
def noRepeat : List Nat → Bool
  | [] => true
  | x :: r => !r.contains x && noRepeat r

/-- The tile programs of the clusters of a mask (R159). -/
def Dev.programsOk (c : Dev) (mask : Nat) : Bool :=
  ((List.range 512).filter (fun t => c.tileValid t && inMask mask (clusterOf t))).all (fun t =>
    decide (1 ≤ c.codeLen t) && decide (c.codeLen t ≤ 8192) &&
    decide ((c.sec secTilePrograms).u32 (tileEntry t + 4) < c.codeLen t) && !c.clusterOff (clusterOf t) &&
    (listOf 16 (c.channel t)).all (fun w => !w.testBit 15 ||
      (if w.testBit 14 then grantedEndpoint (fld w 0 8) else decide (c.tilePart (fld w 0 9) = c.tilePart t)))) &&
  noRepeat c.namedMailboxes

/-- A LINK value names a link (R603). -/
def nocLinkOk (v : Nat) : Bool :=
  let l := fld v 2 3
  decide (v < 512) &&
  match fld v 5 4 with
  | 0 => decide (l % 4 < 3)
  | 1 => decide (0 < l % 4)
  | 2 => decide (4 ≤ l)
  | 3 => decide (l < 4)
  | 4 => decide (l = 0)
  | 5 => decide (l = 0)
  | 6 => decide (l = 0)
  | 7 => true
  | 8 => decide (l = 0)
  | 9 => true
  | _ => false

/-- The clusters whose routers a mesh or cluster link joins; none for another link. -/
def nocLinkClusters (v : Nat) : Option (Nat × Nat) :=
  let l := fld v 2 3
  let c := 8 * fld v 0 2 + l
  match fld v 5 4 with
  | 0 => some (c, c + 1)
  | 1 => some (c, c - 1)
  | 2 => some (c, c - 4)
  | 3 => some (c, c + 4)
  | 7 => some (c, c)
  | 9 => some (c, c)
  | _ => none

/-- The slot entries of a NOC_SCHEDULE's link record: START, LENGTH and OWNER. -/
def nocEntries (b : Blob) (i : Nat) : List (Nat × Nat × Nat) :=
  let base := 64 + 16 * b.u32 4
  listOf (b.u32 (64 + 16 * i + 8)) (fun k =>
    let o := base + 16 * (b.u32 (64 + 16 * i + 4) + k)
    (b.u32 o, b.u32 (o + 4), b.u16 (o + 8)))

/-- Entries ascend, do not overlap and stay in the frame; `from_` is the end of the one before. -/
def nocOrder (frame : Nat) : Nat → List (Nat × Nat × Nat) → Bool
  | _, [] => true
  | from_, x :: r => decide (from_ ≤ x.1) && decide (1 ≤ x.2.1) && decide (x.1 + x.2.1 ≤ frame) && nocOrder frame (x.1 + x.2.1) r

/-- A NOC_SCHEDULE section `b` (R605); `own` is the partition of a partition-scoped image. -/
def Dev.nocOk (c : Dev) (b : Blob) (own : Option Nat) : Bool :=
  let frame := b.u32 0
  let n := b.u32 4
  let total := (b.len - 64 - 16 * n) / 16
  let owner (w : Nat) : Bool :=
    if w.testBit 15 then grantedEndpoint (fld w 0 8) && own.isNone
    else c.tileValid (fld w 0 9) && !c.clusterOff (clusterOf (fld w 0 9)) && (match own with | some p => decide (c.tilePart (fld w 0 9) = some p) | none => true)
  decide (256 ≤ frame) && decide (frame ≤ 65536) && decide (frame % 64 = 0) && decide (n ≤ 160) &&
  (match own with | some _ => decide (frame = (c.sec secNocSchedule).u32 0) | none => true) &&
  noRepeat (listOf n (fun i => b.u16 (64 + 16 * i))) &&
  (List.range n).all (fun i =>
    let v := b.u16 (64 + 16 * i)
    let es := nocEntries b i
    nocLinkOk v && decide (b.u32 (64 + 16 * i + 4) + b.u32 (64 + 16 * i + 8) ≤ total) && nocOrder frame 0 es &&
    decide (es.foldl (fun s x => s + x.2.1) 0 < frame) && es.all (fun x => owner x.2.2) &&
    (match own with
     | none => true
     | some p =>
       match nocLinkClusters v with
       | some (x, y) => decide (c.clusterPart x = some p) && decide (c.clusterPart y = some p)
       | none => false))

/-! ## Onaud and Samovar (R240, R246, R271) -/

/-- The members of a group that the device belongs to, its streams, and the members they lead to. -/
def Dev.groupStreams (c : Dev) (g : Nat) : List (Nat × Nat) :=
  let r := c.grp g
  let ms := c.grpMembers g
  let me := ms.idxOf ((c.sec secPodTopology).u8 2)
  if ms = [] then []
  else (r.ring, ms.getD ((me + 1) % ms.length) 0) ::
    (if r.pair = 0 then [] else listOf ms.length (fun m => (r.pair + m, ms.getD m 0)))

/-- The Onaud schedule (R238, R240). -/
def Dev.onaudOk (c : Dev) : Bool :=
  let streams := (List.range 256).flatMap c.groupStreams
  (List.range 64).all (fun n =>
    decide ((c.sec secOnaudSchedule).u16 (64 + 8 * n) ≤ 64) && decide (1 ≤ (c.sec secOnaudSchedule).u16 (64 + 8 * n + 2)) &&
    decide ((c.sec secOnaudSchedule).u16 (64 + 8 * n + 2) ≤ 160)) &&
  (List.range 4).all (fun s => (List.range 64).all (fun n => (List.range 1024).all (fun k =>
    let e := c.slotEntry s n k
    let cls := fld e 14 2
    let st := fld e 0 14
    (decide (4 ≤ k) || decide (cls = 2)) && (decide (k ≠ 1023) || decide (cls = 3)) &&
    (decide (cls ≠ 0) ||
      (c.mapUsed n && (decide (st = 0x3FFF) ||
        streams.any (fun x => decide (x.1 = st) && decide (c.nextHop s x.2 = some (c.mapRank n)))))))))

/-- Two ranks differ in exactly one coordinate: which. -/
def oneAxis (topo : Blob) (x y : Nat) : Option Nat :=
  match (List.range 3).filter (fun i => decide (coordOf topo x i ≠ coordOf topo y i)) with
  | [i] => some i
  | _ => none

/-- The pod topology (R246). -/
def topologyOk (t : Blob) : Bool :=
  let n := t.u8 1
  let me := t.u8 2
  decide (t.u8 4 * t.u8 5 * t.u8 6 = n) && decide (me < n) && (decide (t.u8 3 = 0xFF) || decide (t.u8 3 < n)) &&
  (List.range 64).all (fun k =>
    !(t.u8 (0x40 + 4 * k + 3)).testBit 0 || (decide (t.u8 (0x40 + 4 * k) < n) && decide (oneAxis t me (t.u8 (0x40 + 4 * k)) = some (t.u8 (0x40 + 4 * k + 2))))) &&
  (List.range n).all (fun r =>
    (oneAxis t me r).isNone || (List.range 64).any (fun k => (t.u8 (0x40 + 4 * k + 3)).testBit 0 && decide (t.u8 (0x40 + 4 * k) = r)))

/-- The collective groups (R271); the streams' links are checked with the schedule. -/
def Dev.groupsOk (c : Dev) : Bool :=
  let t := c.sec secPodTopology
  (List.range 256).all (fun g =>
    let r := c.grp g
    let axes := (List.range 3).filter (fun i => r.span.testBit i)
    let n := axes.foldl (fun x i => x * (r.hi.getD i 0 + 1 - r.lo.getD i 0)) 1
    !r.valid ||
      (axes.all (fun i => decide (r.lo.getD i 0 ≤ r.hi.getD i 0) && decide (r.hi.getD i 0 < t.u8 (4 + i))) && decide (r.span < 8) && decide (2 ≤ n) &&
        decide (10 ≤ r.timeout) && decide (r.timeout ≤ 10000000) && decide (r.slice < 4) &&
        decide (fld (c.partClusters r.part) (8 * r.slice) 8 ≠ 0) && decide (1 ≤ r.ring) && decide (r.ring ≤ 16382) &&
        (decide (r.pair = 0) || decide (r.pair + n - 1 ≤ 16382)))) &&
  noRepeat ((List.range 256).flatMap (fun g => (c.groupStreams g).map (·.1)))

/-! ## Ethernet (R340, R353, R356, R360, R367) -/

/-- A policer's fields are in range; k is even for the data class. -/
def policerOk (b : Blob) (k : Nat) : Bool :=
  let o := policerAt k
  let m := b.u8 o
  decide (if k % 2 = 0 then m ≤ 2 else m = 0 ∨ m = 3) &&
  (decide (m = 0) ||
    (decide (b.u8 (o + 1) < 4) && decide (b.u8 (o + 2) < 64) && decide (b.u8 (o + 3) < 64) &&
      decide (1 ≤ b.u32 (o + 4)) && decide (b.u32 (o + 4) ≤ 1600000) &&
      (if m = 2 then decide (b.u32 (o + 4) ≤ b.u32 (o + 8)) else decide (b.u32 (o + 8) = 0)) &&
      decide (9216 ≤ b.u32 (o + 0x0C)) && (decide (m ≠ 3) || decide (b.u32 (o + 0x10) = 0))))

/-- The policer tables (R356). -/
def policersOk (b : Blob) : Bool := (List.range (2 * 296)).all (policerOk b)

/-- The scheduler shapes (R360). -/
def Dev.schedulerOk (c : Dev) : Bool :=
  decide (1 ≤ c.subscribers) && decide (c.subscribers ≤ 16384) &&
  (List.range 32).all (fun p => !c.portExists p ||
    ((List.range 8).all (fun k =>
      (c.spMask p).testBit k || (decide (1 ≤ c.wrr p k))) &&
    (List.range 8).all (fun k => !c.cbsOn p k || (decide (1 ≤ c.hiCredit p k) && decide (c.hiCredit p k ≤ 1048576))) &&
    decide (((List.range 8).filter (c.cbsOn p)).foldl (fun n k => n + c.idleSlope p k) 0 ≤ c.portRate p))) &&
  (List.range c.subscribers).all (fun s =>
    decide (c.subFn s < 264) && c.portExists (c.subPort s) && decide (c.subClass s < 8) && decide (1 ≤ c.subWeight s) &&
    decide (c.subWeight s ≤ 4095) && decide (c.subRate s ≤ c.portRate (c.subPort s)))

/-- The gate tables (R364), and list A of every existing port against R367. -/
def Dev.gateTablesOk (c : Dev) : Bool :=
  (List.range 32).all (fun p => (List.range 2).all (fun l =>
    let g := c.gateList p l
    decide (g.2.length = 0) ||
      (decide (g.2.length ≤ 256) && decide (1000 ≤ g.1) && decide (g.1 ≤ 1000000000) &&
        g.2.all (fun e => decide (1 ≤ e.1) && decide (e.1 ≤ 1000000000))))) &&
  (List.range 32).all (fun p => !c.portExists p || c.gateListOk p 0)

/-- Registers that a whole-image commit fixes: lane-group modes, headroom, the CXL region and Caddy's shares (R302, R340,
R353, R467). -/
def Dev.fixedRegsOk (c : Dev) : Bool :=
  (List.range 4).all (fun g => decide (c.grpMode g ≤ 6) || decide (c.grpMode g = 15)) &&
  (List.range 32).all (fun p => !c.portExists p || decide (((List.range 8).filter (c.lossless p)).length ≤ 4)) &&
  decide (4096 + c.reserved ≤ c.fget Reg.ETH_BUF_SPLIT_INGRESS_CELLS) &&
  (!(c.pw.straps.cxl && c.fon Reg.HIF_CXL_REGION_EN) ||
    (match c.fnPart 0 with
     | none => false
     | some p =>
       match c.regionOf p (c.fget Reg.HIF_CXL_REGION_REGION) with
       | none => false
       | some r => decide (r.kind = 0) && decide (r.base % 0x10000000 = 0) && decide (r.len % 0x10000000 = 0) && decide (c.tierOf r.base = .hbm))) &&
  decide (c.fget Reg.CAD_SHARE_MIN_MACSEC + c.fget Reg.CAD_SHARE_MIN_QP + c.fget Reg.CAD_SHARE_MIN_TIER + c.fget Reg.CAD_SHARE_MIN_QUEUE ≤ 96) &&
  decide (2 * ((List.range 32).filter (fun p => c.portExists p && c.fon (Reg.ETH_PORTp_CTL_MACSEC p))).foldl (fun n p => n + c.portRate p) 0 ≤
    c.fget Reg.CAD_SHARE_MIN_MACSEC * 102400)

/-! ## Memory and experts (R161, R165, R171, R203) -/

/-- The view of HBM3E or LP5X, or the cluster memory, that holds a whole range: its base and populated length. -/
def viewsOf (hs ls : Nat) : List (Nat × Nat) :=
  let sh := hs * 1048576
  let sm := ls * 1048576
  (0x10000000000, 8 * sh) :: (0x20000000000, 4 * sm) ::
  listOf 4 (fun k => (0x18000000000 + k * 0x2000000000, 2 * (hbmStackBytes - sh))) ++
  listOf 4 (fun k => (0x30000000000 + k * 0x2000000000, lpDeviceBytes - sm)) ++
  listOf 32 (fun k => (clusterBase k, clusterBytes))

/-- A region lies in one view, clear of the reserved areas (R163, R165). -/
def regionPlaced (hs ls : Nat) (r : Region) : Bool :=
  (viewsOf hs ls).any (fun v => decide (v.1 ≤ r.base) && decide (r.base + r.len ≤ v.1 + v.2)) &&
  !(decide (0x10000000000 ≤ r.base) && decide (r.base < 0x10040000000)) && !(decide (0x20000000000 ≤ r.base) && decide (r.base < 0x20020000000))

/-- The cluster whose memory holds a region. -/
def regionCluster (r : Region) : Option Nat :=
  if clusterBase 0 ≤ r.base ∧ r.base < clusterBase 32 then some ((r.base - clusterBase 0) / 0x20000000) else none

/-- One region against the listed conditions of R165 and R171. -/
def Dev.regionOk (c : Dev) (r : Region) : Bool :=
  regionPlaced c.hbmSplit c.lpSplit r &&
  (match regionCluster r with
   | some k => decide (r.kind = 2) && decide (c.clusterPart k = some r.part)
   | none => true) &&
  (!r.encrypt || (decide (0x20000000000 ≤ r.base) && decide (r.kind ≠ 2) && c.slotAllows r.slot 2 r.part))

/-- The POOL bytes of a partition in cluster memory, in HBM3E and in all. -/
def poolBytes (rs : List Region) (p : Nat) : Nat × Nat × Nat :=
  (rs.filter (fun r => decide (r.part = p) && decide (r.kind = 2))).foldl (fun x r =>
    (x.1 + (if (regionCluster r).isSome then r.len else 0),
      x.2.1 + (if 0x10000000000 ≤ r.base ∧ r.base < 0x20000000000 then r.len else 0), x.2.2 + r.len)) (0, 0, 0)

/-- The budgets and shares of a partition record at an offset. -/
def budgetOk (b : Blob) (o : Nat) (pool : Nat × Nat × Nat) : Bool :=
  decide (b.u32 o * blockBytes ≤ pool.1) && decide (b.u32 (o + 4) * blockBytes ≤ pool.2.1) && decide (b.u32 (o + 8) * blockBytes ≤ pool.2.2) &&
  decide (b.u8 (o + 12) ≤ 25) && decide (b.u8 (o + 13) ≤ 25) && decide (b.u8 (o + 14) ≤ 25)

/-- Where a partition's record lies in a whole image's TIER_BUDGETS. -/
def budgetAt (p : Nat) : Nat := 64 + 64 * p

/-- The tier budgets of every partition (R161, R165, R171). -/
def Dev.budgetsOk (c : Dev) : Bool :=
  let b := c.sec secTierBudgets
  let rs := c.regions
  decide (128 ≤ c.hbmSplit) && decide (c.hbmSplit ≤ 34332) && decide (128 ≤ c.lpSplit) && decide (c.lpSplit ≤ 122070) &&
  decide (rs.length ≤ 4096) && rs.all c.regionOk && !rangesMeet (rs.map (fun r => (r.base, r.len))) &&
  noRepeat (rs.map (fun r => 256 * r.part + r.num)) &&
  (List.range 32).all (fun p => budgetOk b (budgetAt p) (poolBytes rs p))

/-- Every byte of a range lies in one of the listed ranges; `n` bounds the ranges used. -/
def coveredBy (l : List (Nat × Nat)) : Nat → Nat → Nat → Bool
  | 0, _, len => decide (len = 0)
  | n + 1, a, len =>
    if len = 0 then true
    else match l.find? (fun x => decide (x.1 ≤ a) && decide (a < x.1 + x.2)) with
    | none => false
    | some x => coveredBy l n (x.1 + x.2) (len - (x.1 + x.2 - a))

/-- The further conditions of R165 on partition p of a partition-scoped image. -/
def Dev.scopedBudgetsOk (c : Dev) (p : Nat) : Bool :=
  let w := c.img.whole.get noBlob secTierBudgets
  let b := c.sec secTierBudgets
  let old := ((regionsOf w).filter (fun r => decide (r.part = p))).map (fun r => (r.base, r.len))
  (c.regions.filter (fun r => decide (r.part = p))).all (fun r => coveredBy old (old.length + 1) r.base r.len) &&
  [0, 4, 8].all (fun o => decide (b.u32 (budgetAt p + o) ≤ w.u32 (budgetAt p + o))) &&
  [12, 13, 14].all (fun o => decide (b.u8 (budgetAt p + o) ≤ w.u8 (budgetAt p + o)))

/-- Entry i of an EXPERT_PLACEMENT section, as a number of 256 bits; a whole image's entries follow 32 records. -/
def eptImage (b : Blob) (i : Nat) : BitVec 256 := BitVec.ofNat 256 (b.le (2048 + 32 * i) 32)

/-- The device address of the first weight byte of an entry of partition p, when its blocks lie in a HOME region of the
partition and start at a block. -/
def Dev.weightsHome (c : Dev) (p : Nat) (e : BitVec 256) : Option Nat :=
  let w := eptWeights e
  if fld w 60 4 ≠ 3 then none
  else match c.regionOf p (fld w 48 8) with
  | none => none
  | some r =>
    if r.kind = 1 ∧ (r.base + fld w 0 48) % blockBytes = 0 ∧ fld w 0 48 + eptCount e * blockBytes ≤ r.len then some (r.base + fld w 0 48) else none

/-- The experts of partition p (R203); only those whose RANK is the device's own have their home here (log entry 13). -/
def Dev.expertsOk (c : Dev) (p : Nat) : Bool :=
  let b := c.sec secExpertPlacement
  let r := c.eptRec p
  let topo := c.sec secPodTopology
  let size := if topo.len = 0 then 1 else topo.u8 1
  let serving := maskOf ((List.range 32).filter (fun k => decide (c.clusterPart k = some p) && decide (c.role k = 2)))
  let named := c.namedMailboxes
  decide (r.layers = 0) ||
  (decide (r.base + r.layers * r.experts ≤ 65536) &&
    (List.range (r.layers * r.experts)).all (fun i =>
      let e := eptImage b (r.base + i)
      !eptValid e ||
        (decide (eptRank e < size) && decide (eptMask e &&& serving = eptMask e) && decide (eptCap e ≠ 0) &&
          (decide (eptRank e ≠ topo.u8 2) || (c.weightsHome p e).isSome) &&
          (bitsOf 32 (eptMask e)).all (fun k => !named.contains (8 * (16 * k + eptTile e) + eptMbox e)))))

/-- No send channel names a mailbox that an expert of partition p in force gives to the XDU (R159). -/
def Dev.coordsApart (c : Dev) (p : Nat) : Bool :=
  let r := c.eptRec p
  let named := c.namedMailboxes
  (List.range (r.layers * r.experts)).all (fun i =>
    let e := eptImage (c.sec secExpertPlacement) (r.base + i)
    !eptValid e || (bitsOf 32 (eptMask e)).all (fun k => !named.contains (8 * (16 * k + eptTile e) + eptMbox e)))

/-- Two partitions' entry ranges do not meet. -/
def Dev.eptRangesOk (c : Dev) : Bool :=
  !rangesMeet (listOf 32 (fun p => ((c.eptRec p).base, (c.eptRec p).layers * (c.eptRec p).experts)))

/-! ## Key slots (R470) -/

/-- The chain of PARENT links from a slot reaches the device import key within `n` links, over WRAP slots. -/
def Dev.parentChain (c : Dev) : Nat → Nat → Bool
  | 0, _ => false
  | n + 1, s =>
    let p := c.slotParent s
    decide (p = 0xFFFF) || (decide (p < 16384) && decide (c.slotMode p = 1) && c.parentChain n p)

/-- The key-slot policy. -/
def Dev.policyOk (c : Dev) : Bool :=
  (List.range 16384).all (fun s =>
    decide (c.slotMode s ≤ 5) && (decide (c.slotOwner s < 32) || decide (c.slotOwner s = 0xFF)) &&
    (decide (c.slotMode s ≠ 5) || decide (c.slotOwner s = 0xFF)) && (decide (c.slotMode s = 0) || c.parentChain 4 s))

/-! ## All of them -/

/-- A section is in force in the candidate. -/
def Dev.hasSec (c : Dev) (ty : Nat) : Bool := (c.img.secs.find ty).isSome

/-- The checks of a whole image's sections, by type code, and last those that no section owns. -/
def Dev.wholeChecks (c : Dev) : List (Nat × Bool) :=
  [(secPartitionMap, c.partMapOk),
   (secClusterRoles, c.rolesOk 0xFFFFFFFF),
   (secTilePrograms, c.programsOk 0xFFFFFFFF),
   (secNocSchedule, c.nocOk (c.sec secNocSchedule) none),
   (secOnaudSchedule, !c.hasSec secOnaudSchedule || c.onaudOk),
   (secPodTopology, !c.hasSec secPodTopology || topologyOk (c.sec secPodTopology)),
   (secCollectiveGroups, c.groupsOk),
   (secQueueShapes, c.shapesOk),
   (secSchedulerShapes, !c.hasSec secSchedulerShapes || c.schedulerOk),
   (secPolicerTables, !c.hasSec secPolicerTables || policersOk (c.sec secPolicerTables)),
   (secGateTables, c.gateTablesOk),
   (secTierBudgets, c.budgetsOk),
   (secExpertPlacement, c.eptRangesOk && (List.range 32).all c.expertsOk),
   (secKeySlotPolicy, c.policyOk),
   (0, c.fixedRegsOk)]

/-- The type of the first failing check; 0 where no section owns it. -/
def firstFail : List (Nat × Bool) → Option Nat
  | [] => none
  | (t, ok) :: r => if ok then firstFail r else some t

/-- ERR_SECTION of a section type: its directory index, 0xFF when the image does not carry it. -/
def errSection (b : Blob) (t : Nat) : Nat :=
  match (List.range (imgCount b)).find? (fun i => decide (dirType b i = t)) with
  | some i => i
  | none => 0xFF

end Sys2Proof.Machine
end

