-- ==== Sys2Proof/Machine/Placement.lean ====
section
/-! DEFINITION. Memory and placement (chapter 5): block commands, epochs, moves, cross-device switches, and the background
work of the memories. -/
namespace Sys2Proof.Machine
open Sys2Proof

/-! ## Block commands (R192) -/

/-- A block command. -/
def memCmd (s : State) (f : Dev → Dev) : Host.Outcome State Fault Refusal :=
  onDev s (fun d => d.command Reg.MEM_BLK_STATUS_BUSY Reg.MEM_BLK_STATUS_CMD_ERR f)

/-- The home blocks that a block command names. -/
def Dev.namedBlocks (d : Dev) (n : Nat) : List Nat := listOf n (fun k => d.fget Reg.MEM_BLK_ADDR_BLOCK + k)

/-- The partition of the HOME region that holds a block. -/
def Dev.homePart (d : Dev) (b : Nat) : Option Nat :=
  (d.regions.find? (fun r => decide (r.kind = 1) && decide (r.base ≤ b * blockBytes) && decide ((b + 1) * blockBytes ≤ r.base + r.len))).map
    (·.part)

/-- The entry of a block. -/
def Dev.entryOf (d : Dev) (b : Nat) : Option Nat := (d.blockAt (b * blockBytes)).map (·.1)

/-- A block command runs until BLOCK_CMD_DONE. -/
def Dev.blkCmdStart (d : Dev) (n : Nat) (st : Status) : Dev :=
  (d.fset Reg.MEM_BLK_STATUS_BUSY 1).upMem (fun m => { m with cmd := some ⟨d.fget Reg.MEM_BLK_ADDR_BLOCK, n, st⟩ })

/-- The lowest FREE entries. -/
def freeEntries (blk : Tab (BitVec 128)) (n : Nat) : List Nat :=
  ((List.range (blk.ents.length + n)).filter (fun i => decide (blkState (blk.get 0 i) = 0) && decide (i < 1048576))).take n

/-- REGISTER: every named block becomes SERVING at home as a KV page. -/
def execRegister (count : BitVec 16) (s : State) : Host.Outcome State Fault Refusal :=
  memCmd s (fun d =>
    let n := count.toNat
    let bs := d.namedBlocks n
    let fr := freeEntries d.mem.blk n
    if n = 0 then d.fset Reg.MEM_BLK_STATUS_CMD_ERR 1
    else if bs.any (fun b => (d.homePart b).isNone || (d.entryOf b).isSome) = true ∨ fr.length < n then d.blkCmdStart n .accessError
    else
      let d := (List.range n).foldl (fun d k =>
        let b := bs.getD k 0
        d.setBlk (fr.getD k 0)
          (bvSet (bvSet (bvSet (bvSet (0 : BitVec 128) 107 21 b) 77 3 1) 74 1 1) 68 5 ((d.homePart b).getD 0))) d
      d.blkCmdStart n .ok)

/-- Start to unregister one entry: a move under way is abandoned, a dirty copy goes home, a clean one is switched, and an
entry served at home is freed. -/
def Dev.unregister (d : Dev) (i : Nat) : Dev :=
  let d := match d.moveOf i with
    | some m => d.abandonMove m Reg.MEM_MIG_ABANDONp_COUNT
    | none => d
  let d := d.upMem (fun m => { m with moves := m.moves.filter (fun x => !x.blocks.contains i), unreg := m.unreg ++ [i] })
  let e := d.blk i
  if blkState e = 1 ∧ d.localCopy e = true ∧ blkDirty e = true then
    (d.blkSetState i 2).upMem (fun m =>
      { m with moves := m.moves ++ [⟨[i], none, d.rank, true, 0, true, false, 0, listOf 512 (fun k => 512 * i + k), [], false, [], true⟩] })
  else if blkState e = 1 ∧ blkAtCopy e = true then (d.blkSwitch i true 0).unregSettle i
  else d.unregSettle i

/-- UNREGISTER: the named entries are copied home where dirty, switched home and freed. -/
def execUnregister (count : BitVec 16) (s : State) : Host.Outcome State Fault Refusal :=
  memCmd s (fun d =>
    let n := count.toNat
    let bs := d.namedBlocks n
    if n = 0 then d.fset Reg.MEM_BLK_STATUS_CMD_ERR 1
    else if bs.any (fun b => (d.homePart b).isNone || (d.entryOf b).isNone) = true then d.blkCmdStart n .accessError
    else ((bs.filterMap d.entryOf).foldl (fun d i => d.unregister i) d).blkCmdStart n .ok)

/-- BLOCK_CMD_DONE: every block of the command is settled. -/
def execBlockCmdDone (s : State) : Host.Outcome State Fault Refusal :=
  onDev s (fun d =>
    match d.mem.cmd with
    | none => d
    | some c =>
      if d.mem.unreg ≠ [] then d
      else
        let d := (d.fset Reg.MEM_BLK_STATUS_BUSY 0).fset Reg.MEM_BLK_STATUS_STATUS c.status.code
        (d.upMem (fun m => { m with cmd := none })).post 0 .blockCmdDone c.status.code (c.first + c.count * 2 ^ 32))

/-! ## Epochs (R180, R181, R184, R189, R191) -/

/-- Placement is on for a partition. -/
def Dev.placeOn (d : Dev) (p : Nat) : Bool := d.fbit Reg.MEM_PLACE_EN_PART_EN p

/-- SCORE at an epoch end (R180). -/
def scoreNext (score count shift : Nat) : Nat := min 65535 (score - score >>> shift + count)

/-- Update an entry at an epoch end. -/
def Dev.epochEntry (d : Dev) (e : BitVec 128) : BitVec 128 :=
  if d.placeOn (blkPart e) then
    let s := scoreNext (blkScore e) (blkCount e) (d.fget (Reg.MEM_POLICYp_DECAY_SHIFT (blkPart e)))
    bvSet (bvSet (bvSet e 48 16 s) 32 16 0) 24 8 (min 255 (blkDwell e + 1))
  else e

/-- An entry qualifies for a move (R181). -/
def Dev.qualifies (d : Dev) (p : Nat) (e : BitVec 128) : Bool :=
  decide (blkPart e = p) && decide (blkState e = 1) && !blkPinned e && decide (d.fget (Reg.MEM_POLICYp_MIN_DWELL p) ≤ blkDwell e)

/-- Insert into a list sorted by a key. -/
def insertBy {α : Type} (le : α → α → Bool) (x : α) : List α → List α
  | [] => [x]
  | y :: r => if le x y then x :: y :: r else y :: insertBy le x r

/-- Sort a list; elements that compare equal keep their order. -/
def sortBy {α : Type} (le : α → α → Bool) (l : List α) : List α := l.foldr (insertBy le) []

/-- Ascending score, then ascending index. -/
def scoreUp (a b : Nat × BitVec 128) : Bool := decide (blkScore a.2 < blkScore b.2) || (decide (blkScore a.2 = blkScore b.2) && decide (a.1 ≤ b.1))

/-- Descending score, then ascending index. -/
def scoreDown (a b : Nat × BitVec 128) : Bool := decide (blkScore b.2 < blkScore a.2) || (decide (blkScore a.2 = blkScore b.2) && decide (a.1 ≤ b.1))

/-- A move not started. -/
def Move.plan (blocks : List Nat) (expert : Option Nat) (rank : Nat) (toHome : Bool) : Move :=
  ⟨blocks, expert, rank, toHome, 0, false, false, 0, [], [], false, [], false⟩

/-- The local demotions of a partition: those at or below DEMOTE, and the lowest-scoring ones while a tier is over its
budget (R181, R184). -/
def Dev.demotions (d : Dev) (p : Nat) : List (Nat × BitVec 128) :=
  let q := sortBy scoreUp (d.mem.blk.ents.filter (fun x => d.qualifies p x.2 && d.localCopy x.2))
  let ovr (t : Tier) : Nat := d.poolUse p t - d.tierBudget p t
  let low (x : Nat × BitVec 128) : Bool := decide (blkScore x.2 ≤ d.fget (Reg.MEM_THRESHp_DEMOTE p))
  let inTier (t : Tier) : List (Nat × BitVec 128) := q.filter (fun x => decide (d.tierOf (d.blkServing x.2) = t))
  let forced := ((inTier .cluster).take (ovr .cluster) ++ (inTier .hbm).take (ovr .hbm)).map (·.1)
  q.filter (fun x => low x || forced.contains x.1)

/-- The promotions of a partition. -/
def Dev.promotions (d : Dev) (p : Nat) : List (Nat × BitVec 128) :=
  sortBy scoreDown (d.mem.blk.ents.filter (fun x =>
    d.qualifies p x.2 && decide (d.fget (Reg.MEM_THRESHp_PROMOTE p) ≤ blkScore x.2) && (!blkAtCopy x.2 || d.localCopy x.2) &&
    decide (d.tierOf (d.blkServing x.2) ≠ .cluster)))

/-- The experts of this home that a peer serves and whose summed score is low: they go back home (R191). -/
def Dev.remoteDemotions (d : Dev) (p : Nat) : List Nat :=
  (d.xdu.ept.ents.filter (fun q =>
    decide (d.eptPart q.1 = some p) && eptValid q.2 && decide (d.xdu.home.get d.rank q.1 = d.rank) && decide (eptRank q.2 ≠ d.rank) &&
    (d.expertBlocks q.1).all (fun i => d.qualifies p (d.blk i)) &&
    decide ((d.expertBlocks q.1).foldl (fun n i => n + blkScore (d.blk i)) 0 ≤ d.fget (Reg.MEM_THRESHp_DEMOTE p) * eptCount q.2))).map (·.1)

/-- The expert of a block entry may be offered to a peer: its promotion has no room after the demotions decided, and none
of its blocks is PINNED (R189). -/
def Dev.offered (d : Dev) (p : Nat) (demoted : List Nat) (x : Nat × BitVec 128) : Bool :=
  let t := (d.tierOf (d.blkServing x.2)).up
  let freed := (demoted.filter (fun i => decide (d.tierOf (d.blkServing (d.blk i)) = t))).length
  decide (blkKind x.2 = 0) && d.xdev p && !blkAtCopy x.2 && decide (d.tierBudget p t < d.poolUse p t - freed + 1) &&
  (d.expertBlocks (blkExpert x.2)).all (fun i => !blkPinned (d.blk i) && decide (blkState (d.blk i) = 1))

/-- Decide the moves of a partition; `takers` names the rank that has accepted an offer of an expert (R189). -/
def Dev.decideMoves (d : Dev) (takers : List (Nat × Nat)) (p : Nat) : List Move :=
  if d.placeOn p then
    let dem := (d.demotions p).map (·.1)
    let pro := d.promotions p
    let take (x : Nat × BitVec 128) : Option (Nat × Nat) :=
      if d.offered p dem x then takers.find? (fun t => decide (t.1 = blkExpert x.2) && decide (t.2 ≠ d.rank)) else none
    let gone := (pro.filterMap take).map (·.1)
    let far := gone.eraseDups.filterMap (fun e => (takers.find? (fun t => decide (t.1 = e))).map (fun t => Move.plan (d.expertBlocks e) (some e) t.2 false))
    dem.map (fun i => Move.plan [i] none d.rank true) ++
      (d.remoteDemotions p).map (fun e => Move.plan (d.expertBlocks e) (some e) d.rank true) ++
      (pro.filter (fun x => !gone.contains (blkExpert x.2) || decide (blkKind x.2 = 1))).map (fun x => Move.plan [x.1] none d.rank false) ++ far
  else []

/-- PLACEMENT_EPOCH_END: scores update, moves not started are dropped, and moves are decided.  `takers` holds, for each
expert offered (by placement-table index), the peer that took the offer. -/
def execPlacementEpochEnd (takers : List (Nat × Nat)) (s : State) : Host.Outcome State Fault Refusal :=
  onDev s (fun d =>
    if !d.live || !d.committed || decide (d.fget Reg.PWR_STATE_STATE ≠ 0) then d
    else
      let d := d.finc Reg.MEM_EPOCH_COUNT_EPOCH
      let d := d.upMem (fun m => { m with blk := m.blk.mapVal (fun _ e => d.epochEntry e), moves := m.moves.filter (fun x => x.started) })
      let fresh := ((List.range 32).flatMap (fun p => d.decideMoves takers p)).filter
        (fun m => !d.mem.moves.any (fun x => x.blocks.any (fun i => m.blocks.contains i)))
      d.upMem (fun m => { m with moves := m.moves ++ fresh }))

/-! ## Moves (R181, R182, R184 to R188) -/

/-- A move of partition p may start now: its shares are not 0 and a promotion has room and a free pool block. -/
def Dev.moveReady (d : Dev) (p : Nat) (m : Move) : Bool :=
  let e := d.blk (m.blocks.headD 0)
  let from_ := d.tierOf (d.blkServing e)
  if m.expert.isSome then m.toHome || decide (d.tierShare p from_ ≠ 0)
  else if m.toHome then !blkDirty e || (decide (d.tierShare p from_ ≠ 0) && decide (d.tierShare p (d.tierOf (blkHome e * blockBytes)) ≠ 0))
  else
    decide (d.tierShare p from_ ≠ 0) && decide (d.tierShare p from_.up ≠ 0) && decide (d.poolUse p from_.up + 1 ≤ d.tierBudget p from_.up) &&
    (d.freePool p from_.up).isSome

/-- Every sub-unit of the blocks of a move. -/
def allSubs (blocks : List Nat) : List Nat := blocks.flatMap (fun i => listOf 512 (fun k => 512 * i + k))

/-- Start a move. -/
def Dev.startMove (d : Dev) (p : Nat) (m : Move) : Dev :=
  let i := m.blocks.headD 0
  let e := d.blk i
  let copying (d : Dev) : Dev := m.blocks.foldl (fun d j => d.blkSetState j 2) d
  match m.expert with
  | some x =>
    if m.toHome then (d.dropMove m).announceSwitch x d.rank
    else copying (d.setMove { m with started := true, todo := allSubs m.blocks })
  | none =>
    if m.toHome then
      if blkDirty e then copying (d.setMove { m with started := true, todo := allSubs m.blocks })
      else (d.dropMove m).blkSwitch i true 0
    else
      copying (d.setMove { m with started := true, todo := allSubs m.blocks,
                                  target := (d.freePool p (d.tierOf (d.blkServing e)).up).getD 0 })

/-- MOVE_START: the first decided move of partition p that may start starts, one at a time. -/
def execMoveStart (p : Fin 32) (s : State) : Host.Outcome State Fault Refusal :=
  onDev s (fun d =>
    let mine := d.mem.moves.filter (fun m => decide (d.movePart m = p.val))
    if !d.live || d.inStandby || mine.any (fun m => m.started && !m.unreg) then d
    else
      match mine.find? (fun m => !m.started && m.blocks.all (fun i => decide (blkState (d.blk i) = 1)) && d.moveReady p m) with
      | some m => d.startMove p m
      | none => d)

/-- The record of the first of `n` bytes at `a` that a copy cannot read; the copy is abandoned and no context ends (R188, R508). -/
def Dev.copyError (d : Dev) (a n : Nat) : Dev := d.badWordRecord a n 7 0 0xFF 0xFFFF 0

/-- COPY_PASS_DONE: a copy or recopy pass ends: another recopy, the final pass, or abandonment (R184, R188). -/
def execCopyPassDone (entry : BitVec 20) (s : State) : Host.Outcome State Fault Refusal :=
  onDev s (fun d =>
    match d.moveOf entry.toNat with
    | none => d
    | some m =>
      if m.held || m.announced then d
      else
        match d.subsBad m.todo with
        | some a => (d.copyError a 4096).abandonMove m Reg.MEM_MIG_ABANDONp_COUNT
        | none =>
          let d := d.copySubs m m.todo
          if m.dirty.length ≤ 16 then d.setMove { m with todo := m.dirty, dirty := [], held := true }
          else if 3 ≤ m.passes then d.abandonMove m Reg.MEM_MIG_ABANDONp_COUNT
          else d.setMove { m with todo := m.dirty, dirty := [], passes := m.passes + 1 })

/-- MOVE_SWITCH: the final recopy under held writes ends, and the entry switches in one update; a move to a peer names
the frame of its switch (R186, R190). -/
def execMoveSwitch (entry : BitVec 20) (s : State) : Host.Outcome State Fault Refusal :=
  onDev s (fun d =>
    match d.moveOf entry.toNat with
    | none => d
    | some m =>
      if !m.held then d
      else
        match d.subsBad m.todo with
        | some a => (d.copyError a 4096).abandonMove m Reg.MEM_MIG_ABANDONp_COUNT
        | none =>
          match m.expert with
          | some x =>
            let d := (d.setMove { m with held := false, announced := true, heldWrites := [] }).landHeld m.heldWrites
            d.announceSwitch x m.rank
          | none =>
            let i := m.blocks.headD 0
            let d := (d.copySubs m m.todo)
            if (if m.toHome then d.subKeyless (blkHome (d.blk i) * blockBytes)
                else (List.range 512).any (fun k => d.subBad (m.target + 4096 * k))) = true then
              (if m.toHome then d else d.copyError m.target blockBytes).abandonMove m Reg.MEM_MIG_ABANDONp_COUNT
            else
              let d := ((d.dropMove m).blkSwitch i m.toHome m.target).landHeld m.heldWrites
              if m.unreg then d.unregSettle i else d)

/-- LAST_READER_DONE: the old copy is freed and the entry is SERVING, or FREE when an UNREGISTER waits for it (R178,
R192). -/
def execLastReaderDone (entry : BitVec 20) (s : State) : Host.Outcome State Fault Refusal :=
  onDev s (fun d =>
    let i := entry.toNat
    if blkState (d.blk i) ≠ 3 then d
    else
      let d := (d.upMem (fun m => { m with oldCopy := m.oldCopy.del i })).blkSetState i 1
      if d.mem.unreg.contains i then d.blkFree i else d)

/-! ## Cross-device switches (R190) -/

/-- PLACE: the frame at which an expert's serving rank changes. -/
def execPlace (h : CtlHead) (part : Fin 32) (layer expert : BitVec 16) (rank : Fin 64) (frame : Nat) (s : State) :
    Host.Outcome State Fault Refusal :=
  onDev s (fun d =>
    d.ctlArrive h (.place part layer.toNat expert.toNat rank frame) (fun d =>
      d.noteSwitch ((d.eptRec part).index layer.toNat expert.toNat) rank frame))

/-- The home device's block entries follow a switch: a copy at a peer, or the home again; a local copy that is left is
RELEASING. -/
def Dev.switchBlocks (d : Dev) (i rank : Nat) : Dev :=
  let there := (Config.freeValue 21 d.fresh).toNat
  let d := (d.mem.moves.filter (fun m => decide (m.expert = some i) && m.announced)).foldl (fun d m => d.dropMove m) d
  ((d.expertBlocks i).foldl (fun d b =>
    let e := d.blk b
    if blkState e = 0 ∨ blkState e = 4 then d
    else
      let left := d.localCopy e
      let d := if left then d.upMem (fun m => { m with oldCopy := m.oldCopy.set b (blkCopy e * blockBytes) }) else d
      let e' := bvSet (bvSet e 24 8 0) 77 3 (if left then 3 else 1)
      let e' := if rank = d.rank then bvSet (bvSet (bvSet e' 76 1 0) 86 21 0) 80 6 0
        else bvSet (bvSet (bvSet e' 76 1 1) 86 21 there) 80 6 rank
      d.setBlk b e') d).bump

/-- PLACEMENT_FRAME_SWITCH: at the named frame boundary the table entry changes rank; the device acknowledges to the old
serving rank, and that rank waits for every acknowledgement. -/
def execPlacementFrameSwitch (index : BitVec 16) (s : State) : Host.Outcome State Fault Refusal :=
  onDev s (fun d =>
    let i := index.toNat
    match d.mem.switches.find? (fun w => decide (w.index = i)) with
    | none => d
    | some w =>
      let old := eptRank (d.eptEntry i)
      let p := (d.eptPart i).getD 0
      let d := (d.upMem (fun m => { m with switches := m.switches.filter (fun x => decide (x.index ≠ i)) })).setEptRank i w.rank
      let d := if d.xdu.home.get d.rank i = d.rank then (d.switchBlocks i w.rank).finc (Reg.MEM_MIG_DONEp_COUNT p) else d
      if old = w.rank then d
      else if old = d.rank then
        let others := (List.range d.podSize).filter (fun r => decide (r ≠ d.rank) && !d.rankLost r)
        d.upMem (fun m => { m with acks := m.acks.set i others })
      else
        (d.sendBurst ⟨1, old, engineUnit 0 0x40, p, d.roleEpoch p, [Config.freeValue 512 d.fresh]⟩).bump)

/-- SWITCH_ACKNOWLEDGEMENT: with the last one the old serving rank frees what it held for the expert (R190). -/
def execSwitchAcknowledgement (src : Fin 64) (index : BitVec 16) (s : State) : Host.Outcome State Fault Refusal :=
  onDev s (fun d =>
    let i := index.toNat
    match d.live, d.mem.acks.find i with
    | true, some rs =>
      let rest := rs.filter (fun r => decide (r ≠ src.val))
      if rest = [] then d.upMem (fun m => { m with acks := m.acks.del i, remoteHeld := m.remoteHeld.del i })
      else d.upMem (fun m => { m with acks := m.acks.set i rest })
    | _, _ => d)

/-! ## Background work (R169, R172 to R174) -/

/-- SCRUB_PASS: scrubbing reaches a word; one that cannot be corrected is recorded and ends no context. -/
def execScrubPass (addr : BitVec 42) (s : State) : Host.Outcome State Fault Refusal :=
  onDev s (fun d =>
    match d.live, d.site addr.toNat with
    | true, some x =>
      if x.tier ≠ .scratch ∧ d.siteBad x = true then d.wordRecord addr.toNat 4 0 0 0 0xFF 0xFFFF 0 else d
    | _, _ => d)

/-- Start to clear a cluster's memory and scratchpads (R174). -/
def Dev.clearCluster (d : Dev) (c : Nat) : Dev :=
  ((d.clearRam (clusterBase c) clusterBytes).clearRam (scratchBase (16 * c)) (16 * 0x200000)).forb Reg.MEM_CLEAR_BUSY_BUSY (1 <<< c)

/-- CLUSTER_CLEAR_DONE: the cluster's memory is clear, with correct ECC, and accesses that waited proceed. -/
def execClusterClearDone (c : Fin 32) (s : State) : Host.Outcome State Fault Refusal :=
  onDev s (fun d =>
    if d.fbit Reg.MEM_CLEAR_BUSY_BUSY c then
      let inC (u : Nat) : Bool :=
        (decide (clusterBase c ≤ u) && decide (u < clusterBase c + clusterBytes)) ||
        (decide (scratchBase (16 * c) ≤ u) && decide (u < scratchBase (16 * c) + 16 * 0x200000))
      (d.fclr Reg.MEM_CLEAR_BUSY_BUSY (1 <<< c.val)).upMem (fun m => { m with bad := m.bad.filter (fun u => !inC u) })
    else d)

/-- REFRESH: a timing-only event (R173). -/
def execRefresh (s : State) : Host.Outcome State Fault Refusal := onDev s (fun d => d)

/-- PERIODIC_RETRAINING: a timing-only event (R173). -/
def execPeriodicRetraining (s : State) : Host.Outcome State Fault Refusal := onDev s (fun d => d)

/-- The distance between two temperatures that sensors report, in 1/16 °C. -/
def tempGap (a b : Nat) : Nat := (sext 16 a - sext 16 b).natAbs

/-- FULL_RETRAINING: after a change of 10 °C since the last one; a timing-only event, which starts the next change. -/
def execFullRetraining (s : State) : Host.Outcome State Fault Refusal :=
  onDev s (fun d =>
    let t := d.fget Reg.PWR_TEMP_MAX_TEMP
    if 160 ≤ tempGap t d.mem.lastFullTemp then d.upMem (fun m => { m with lastFullTemp := t }) else d)

end Sys2Proof.Machine
end

