-- ==== Sys2Proof/Machine/TileDma.lean ====
section
/-! DEFINITION. Tile-DMA transfers as they land, and a tile's stop after an exception (R137, R141 to R144, R436). -/
namespace Sys2Proof.Machine
open Sys2Proof

/-- A unit of a tile-DMA transfer (R143): the row addresses at both ends, and the bytes of a row. -/
structure DmaUnit where
  src : List Nat
  dst : List Nat
  len : Nat
  deriving DecidableEq, Repr

/-- The tile DMA as a user of a key (R426). -/
def dmaUser (part : Nat) (write : Bool) : KeyUser := ⟨if write then rTileWrite else rTileRead, write, none, some part, false⟩

/-- The chunks of a type-1 transfer of `n` bytes: cut where an external end passes into another 4 KiB block, and at the
source where neither end is external; `k` bounds them. -/
def dmaChunks (cutSrc cutDst : Bool) : Nat → Nat → Nat → Nat → List DmaUnit
  | 0, _, _, _ => []
  | k + 1, s, t, n =>
    if n = 0 then []
    else
      let a := if cutSrc then min n (4096 - s % 4096) else n
      let m := if cutDst then min a (4096 - t % 4096) else a
      ⟨[s], [t], m⟩ :: dmaChunks cutSrc cutDst k (s + m) (t + m) (n - m)

/-- The units of a transfer; the row indices of type 3 are read from the tile's scratchpad. -/
def Dev.dmaUnits (d : Dev) (t : Nat) (x : BitVec 512) : List DmaUnit :=
  let s := descSrc x
  let e := descDst x
  let n := descLen x
  let rows := descRows x
  match descType x with
  | 1 =>
    let es := decide (spaceOf s = 4)
    let ed := decide (spaceOf e = 4)
    dmaChunks (es || !ed) ed (n / 2048 + 3) s e n
  | 2 =>
    [⟨(List.range rows).map (fun r => s + r * descSrcPitch x), (List.range rows).map (fun r => e + r * descDstPitch x), n⟩]
  | _ =>
    let at_ := scratchBase t + fld (descIndex x) 0 21
    (List.range rows).map (fun r => ⟨[s + leNat (d.memBytes (at_ + 4 * r) 4) * descSrcPitch x], [e + r * descDstPitch x], n⟩)

/-- A failure of a unit at device memory or at an address that may not be named. -/
def dmaFail (st : Status) (a : Nat) (mem : Bool) : UnitFail := ⟨st, a, 0, none, mem⟩

/-- Read rows inside Holanes. -/
def Dev.dmaReadIn (d : Dev) (t n : Nat) : List Nat → Dev × List Byte × Option UnitFail
  | [] => (d, [], none)
  | a :: r =>
    match d.dmaSpot t a n with
    | none => (d, [], some (dmaFail .accessError a false))
    | some p =>
      match d.memStatus false p n with
      | .ok =>
        let x := (d.noteAccess false p n).dmaReadIn t n r
        (x.1, d.memBytes p n ++ x.2.1, x.2.2)
      | st => (d, [], some (dmaFail st p true))

/-- Read the source rows of a unit; external bytes come from `rd` at `off`. -/
def Dev.dmaRead (d : Dev) (t part key : Nat) (rd : HostRead) (off n : Nat) (rows : List Nat) : Dev × List Byte × Option UnitFail :=
  if rows.any (fun a => decide (spaceOf a = 4)) then
    d.readUnits (dmaUser part false) key rd off (rows.flatMap (fun a => piecesOf (fld a 0 60) n))
  else d.dmaReadIn t n rows

/-- The first reason that the destination rows of a unit cannot be written. -/
def Dev.dmaBlocked (d : Dev) (t part key n : Nat) (rows : List Nat) : Option UnitFail :=
  if rows.any (fun a => decide (spaceOf a = 4)) then
    (rows.flatMap (fun a => piecesOf (fld a 0 60) n)).findSome? (fun p =>
      match d.checkKey key (dmaUser part true) p.1 p.2 with
      | .bad st c l rt e => some ⟨st, p.1, 0, some (c, l, rt, e), false⟩
      | .dev a => if d.memStatus true a p.2 = .ok then none else some (dmaFail (d.memStatus true a p.2) a true)
      | .bus link _ => if d.linkUp link then none else some (dmaFail .hostLost p.1 false))
  else
    rows.findSome? (fun a =>
      match d.dmaSpot t a n with
      | none => some (dmaFail .accessError a false)
      | some p => if d.memStatus true p n = .ok then none else some (dmaFail (d.memStatus true p n) p true))

/-- Write rows inside Holanes; a row over part of a bad ECC unit ends the transfer once it is written (R507). -/
def Dev.dmaWriteIn (d : Dev) (t n : Nat) (bs : List Byte) : List Nat → Dev × Option UnitFail
  | [] => (d, none)
  | a :: r =>
    match d.dmaSpot t a n with
    | none => (d, some (dmaFail .accessError a false))
    | some p =>
      let e := d.memWrite p (bs.take n)
      if d.writeSpoilt p n then (e, some (dmaFail .uncorrectable p true)) else e.dmaWriteIn t n (bs.drop n) r

/-- Move one unit: both ends are checked before a byte of it moves. Answers the failure and whether it is at the destination. -/
def Dev.dmaUnit (d : Dev) (t part : Nat) (x : BitVec 512) (rd : HostRead) (off : Nat) (u : DmaUnit) : Dev × Option (UnitFail × Bool) :=
  match d.dmaRead t part (descSrcKey x) rd off u.len u.src with
  | (_, _, some f) => (d, some ({ f with addr := if f.mem then f.addr else u.src.headD 0 }, false))
  | (e, bs, none) =>
    match e.dmaBlocked t part (descDstKey x) u.len u.dst with
    | some f => (d, some ({ f with addr := if f.mem then f.addr else u.dst.headD 0 }, true))
    | none =>
      let r :=
        if u.dst.any (fun a => decide (spaceOf a = 4)) then
          e.writeUnits (dmaUser part true) (descDstKey x) bs false 0 (u.dst.flatMap (fun a => piecesOf (fld a 0 60) u.len))
        else e.dmaWriteIn t u.len bs u.dst
      (r.1, r.2.map (fun f => (f, true)))

/-- Move the units of a transfer in order up to the first that fails; `off` bytes have landed. -/
def Dev.dmaMove (d : Dev) (t part : Nat) (x : BitVec 512) (rd : HostRead) : Nat → List DmaUnit → Dev × Option (UnitFail × Bool)
  | _, [] => (d, none)
  | off, u :: r =>
    match d.dmaUnit t part x rd off u with
    | (e, none) => e.dmaMove t part x rd (off + u.len * u.src.length) r
    | (e, some (f, w)) => (e, some ({ f with done := off }, w))

/-- End a tile-DMA context with a failure: its record, and the status that DMA.WAIT returns (R143, R144). -/
def Dev.dmaEnd (d : Dev) (t ctx part : Nat) (x : BitVec 512) (f : UnitFail) (write : Bool) : Dev :=
  let d := d.unitFault ⟨2, 8 * t + ctx, part, 0xFFFF, if write then descDstKey x else descSrcKey x⟩ f write false
  d.updTile t (fun y => { y with dma := y.dma.set ctx ⟨false, false, 0, f.st⟩ })

/-- The first 64 bytes of a transfer's destination: `rd` is what a read of host memory brings; what it does not bring is free
(log entry 4). -/
def Dev.dmaNotice (d : Dev) (t part : Nat) (x : BitVec 512) (rd : HostRead) : Dev × List Byte :=
  let a := descDst x
  let host : Dev × List Byte := match rd with
    | .ok bs => (let r := d.freeBytes 64; (r.1, (bs.take 64 ++ r.2.drop bs.length).take 64))
    | _ => d.freeBytes 64
  if spaceOf a = 4 then
    match d.checkKey (descDstKey x) (dmaUser part true) (fld a 0 60) 1 with
    | .dev p => (d, d.memBytes p 64)
    | _ => host
  else
    match d.dmaSpot t a 32 with
    | some p => (d, d.memBytes p 64)
    | none => host

/-- The NOTIFY message leaves when its channel has a credit, and the context is then IDLE (R141). -/
def Dev.dmaNotify (d : Dev) (t ctx part : Nat) (x : BitVec 512) (rd : HostRead) : Dev :=
  if (d.tile t).credits (descChannel x) = 0 then d
  else
    let r := d.dmaNotice t part x rd
    (r.1.sendMsg t (descChannel x) (BitVec.ofNat 512 (leNat r.2))).updTile t (fun y => { y with dma := y.dma.set ctx DmaCtx.idle })

/-- An end of a transfer lies in a cluster memory that is being cleared (R174). -/
def Dev.dmaWaits (d : Dev) (x : BitVec 512) : Bool :=
  let busy (a : Nat) : Bool := decide (spaceOf a = 1) && d.fbit Reg.MEM_CLEAR_BUSY_BUSY (fld a 32 5)
  busy (descSrc x) || busy (descDst x)

/-- TILE_DMA_DONE: a transfer lands its last byte or ends on a fault; then its NOTIFY message leaves, at once or when a credit
has come (R141 to R144).  `rd` is what the reads of host memory brought: the source rows one after another, or, for a NOTIFY that
waited, the destination. -/
def execTileDmaDone (t : Fin 512) (ctx : Fin 8) (rd : HostRead) (s : State) : Host.Outcome State Fault Refusal :=
  onDev s (fun d =>
    let c := (d.tile t).ctx ctx
    let part := (d.tilePart t).getD 32
    if !c.busy || !d.alive || d.dmaWaits c.desc then d
    else if c.notify then d.dmaNotify t ctx part c.desc rd
    else
      match (d.readEnd (.tileDma t ctx)).dmaMove t part c.desc rd 0 (d.dmaUnits t c.desc) with
      | (e, some (f, w)) => e.dmaEnd t ctx part c.desc f w
      | (e, none) =>
        if descNotify c.desc then
          let e := e.updTile t (fun y => { y with dma := y.dma.set ctx { c with notify := true } })
          e.dmaNotify t ctx part c.desc (if spaceOf (descSrc c.desc) = 4 then rd else .lost)
        else e.updTile t (fun y => { y with dma := y.dma.set ctx DmaCtx.idle }))

/-- WALK_DONE: a walk ends.  A handler wait before it is counted, and a tile-DMA context whose first unit does not translate ends
now; the streams of other contexts meet their translation as they use it (R436; log entry 45). -/
def execWalkDone (stream : WalkStream) (waited : Bool) (s : State) : Host.Outcome State Fault Refusal :=
  onDev s (fun d =>
    if !d.alive then d
    else
      let d := if waited then d.finc Reg.DTU_WALK_WAIT_COUNT else d
      match stream with
      | .other => d
      | .tileDma t ctx =>
        let c := (d.tile t).ctx ctx
        let part := (d.tilePart t).getD 32
        match (d.dmaUnits t c.desc).head? with
        | none => d
        | some u =>
          if !c.busy || c.notify then d
          else
            match d.dmaUnit t part c.desc (.ok []) 0 u with
            | (_, some (f, w)) => if f.st = .translationFault then d.dmaEnd t ctx part c.desc f w else d
            | (_, none) => d)

/-- A tile that has taken an exception is STOPPED: its event, and the contexts that wait on it (R137, R221). -/
def Dev.tileStop (d : Dev) (t : Nat) : Dev :=
  let cause := d.fget (Reg.CLU_TILE_CAUSEt_CAUSE (clusterOf t) (t % 16))
  let st : Status := if cause = 5 then .uncorrectable else .flushed
  let d := d.updTile t (fun x => { x with phase := .stopped })
  let d := d.post 0 .tileStopped 0 (t + cause * 2 ^ 16 + (d.tile t).pc * 2 ^ 32)
  let d := d.xduTileStopped t (decide (cause = 5))
  let mine := d.xdu.served.filter (fun x => decide (x.tile = t))
  (mine.foldl (fun d x => d.xduReturn x st) d).upXdu (fun x => { x with served := x.served.filter (fun y => decide (y.tile ≠ t)) })

/-- TILE_STOPPED: the started transfers of a tile that took an exception have finished (R137). -/
def execTileStopped (t : Fin 512) (s : State) : Host.Outcome State Fault Refusal :=
  onDev s (fun d => if (d.tile t).phase = .stopping ∧ (d.tile t).dmaIdle = true then d.tileStop t else d)

end Sys2Proof.Machine
end

