-- ==== Sys2Proof/Machine/Image.lean ====
section
/-! DEFINITION. Images: staging, verification, whole-image and partition-scoped commits, and SANITIZE (R54 to R81, R501). -/
namespace Sys2Proof.Machine
open Sys2Proof

/-! ## States and outcomes (R68 to R72) -/

/-- IMG_STATUS.STATE: 0 EMPTY, 1 LOADING, 2 VERIFYING, 3 VERIFIED, 4 COMMITTING, 5 REJECTED. -/
def Dev.imgState (d : Dev) : Nat := d.fget Reg.IMG_STATUS_STATE

/-- Set STATE. -/
def Dev.setImgState (d : Dev) (st : Nat) : Dev := d.fset Reg.IMG_STATUS_STATE st

/-- A LOAD or COMMIT has finished: STATUS, REASON, ERR_SECTION, DONE and IMAGE_DONE (R70). -/
def Dev.imgDone (d : Dev) (state : Nat) (st : Status) (reason sec : Nat) : Dev :=
  let d := (((d.setImgState state).fset Reg.IMG_STATUS_STATUS st.code).fset Reg.IMG_STATUS_REASON reason).fset Reg.IMG_STATUS_ERR_SECTION sec
  (d.fset Reg.IMG_STATUS_DONE 1).post 0 .imageDone st.code (reason + sec * 256)

/-- Reject the staged image. -/
def Dev.imgReject (d : Dev) (st : Status) (reason sec : Nat) : Dev :=
  (d.upImg (fun i => { i with staged := none, committing := none })).imgDone 5 st reason sec

/-- An image command: refused with CMD_ERR in STANDBY and in the states that R71 marks (R545). -/
def imgCmd (s : State) (ok : Nat → Bool) (f : Dev → Dev) : Host.Outcome State Fault Refusal :=
  onDev s (fun d =>
    if d.alive = false then d
    else if d.inStandby = true ∨ ok d.imgState = false then d.fset Reg.IMG_STATUS_CMD_ERR 1
    else f d)

/-- LOAD: the copy of the image at `IMG_STAGE_ADDR` starts (R63, R71). -/
def execLoad (s : State) : Host.Outcome State Fault Refusal :=
  imgCmd s (fun st => decide (st = 0 ∨ st = 5)) (fun d => d.setImgState 1)

/-- End staging: the copy is discarded. -/
def Dev.imgDrop (d : Dev) : Dev := (d.upImg (fun i => { i with staged := none })).setImgState 0

/-- ABORT: the staged image is discarded; EMPTY stays as it is and COMMITTING refuses (R71). -/
def execAbort (s : State) : Host.Outcome State Fault Refusal :=
  imgCmd s (fun st => decide (st ≠ 4)) (fun d => if d.imgState = 0 then d else d.imgDrop)

/-- Where bytes of the staging area lie: the place of the byte at an offset of the LP5X interleaved view (R62). -/
def stagePlace (o : Nat) : Nat := lpPlace (o / 256 % 4) (o / 1024 * 256 + o % 256)

/-- A lasting uncorrectable error lies in `n` bytes of the staging copy from offset `o` (REASON 0x0D). -/
def Dev.stageBad (d : Dev) (o n : Nat) : Bool :=
  d.mem.bad.any (fun u =>
    let m := (List.range 4).find? (fun m => decide (lpPlace m 0 ≤ u) && decide (u < lpPlace m 134217728))
    match m with
    | none => false
    | some m =>
      let a := u - lpPlace m 0
      let x := a / 256 * 1024 + m * 256 + a % 256
      decide (o < x + 8) && decide (x < o + n))

/-- The staging area under a copy of `n` bytes is written whole, so that its bad words are in service again (R507). -/
def Dev.stageHeal (d : Dev) (n : Nat) : Dev :=
  d.upMem (fun m => { m with bad := m.bad.filter (fun u =>
    !(List.range 4).any (fun k => decide (lpPlace k 0 ≤ u) && decide (u < lpPlace k 0 + n / 1024 * 256))) })

/-- IMAGE_COPY_DONE: the copy ends, and checks 1 to 4 of R64 run on it. -/
def execImageCopyDone (rd : HostBlob) (s : State) : Host.Outcome State Fault Refusal :=
  onDev s (fun d =>
    if d.live = false ∨ d.imgState ≠ 1 then d
    else match rd with
    | .lost => (d.readEnd .command).imgReject .hostLost 0 0xFF
    | .poisoned => (d.readEnd .command).imgReject .uncorrectable 0 0xFF
    | .ok b =>
      let d := d.readEnd .command
      let len := d.fget Reg.IMG_STAGE_LEN_LEN
      let b : Blob := b.sub 0 len
      match d.imgLoadFault len b with
      | some (r, i) => d.imgReject (if r = 6 then .authFail else .malformed) r i
      | none => ((d.stageHeal len).upImg (fun i => { i with staged := some ⟨b⟩ })).setImgState 2)

/-- IMAGE_VERIFY_DONE: checks 5 and 6 of R64 end. -/
def execImageVerifyDone (s : State) : Host.Outcome State Fault Refusal :=
  onDev s (fun d =>
    if d.live = false ∨ d.imgState ≠ 2 then d
    else match d.img.staged with
    | none => d
    | some x =>
      let b := x.bytes
      if d.stageBad 0 4096 = true ∨ d.stageBad (b.len - 7856) 7856 = true then d.imgReject .uncorrectable 0x0D 0xFF
      else if imagePkOk = false ∨ Config.slhVerify Config.imagePk (imgHeader b) (b.bytes (b.len - 7856) 7856) = false then
        d.imgReject .authFail 7 0xFF
      else if imgSecurity b < d.rollback then d.imgReject .authFail 8 0xFF
      else d.imgDone 3 .ok 0 0)

/-! ## The tables that a commit loads -/

/-- The candidate of a whole image: its sections, with COMMITTED set. -/
def Dev.wholeCandidate (d : Dev) (b : Blob) : Dev :=
  let secs : Tab Blob := (List.range (imgCount b)).foldl (fun t i =>
    if dirType b i < 0x8000 then t.set (dirType b i) (imgSection b i) else t) ⟨[]⟩
  (d.upImg (fun i => { i with secs := secs, whole := secs })).fset Reg.GLB_IMAGE_INFO_COMMITTED 1

/-- The clusters of a partition, as a mask. -/
def Dev.ownClusters (d : Dev) (p : Nat) : List Nat := bitsOf 32 (d.partClusters p)

/-- CLUSTER_ROLES with the bytes of the listed clusters taken from another section. -/
def mergeRoles (old new : Blob) (cs : List Nat) : Blob := cs.foldl (fun b c => b.patch new c 1) old

/-- TILE_PROGRAMS with the entries of the listed tiles taken from another section, whose code and register blocks are
appended. -/
def mergePrograms (old new : Blob) (ts : List Nat) : Blob :=
  let base := roundUp old.len 64
  let mem := old.mem.copyFrom new.mem 0 base new.len
  let mem := ts.foldl (fun (m : Mem) t =>
    let m := m.copyFrom new.mem (tileEntry t) (tileEntry t) 128
    (m.writeLE (tileEntry t + 0x08) 8 (new.u64 (tileEntry t + 0x08) + base)).writeLE (tileEntry t + 0x18) 8 (new.u64 (tileEntry t + 0x18) + base)) mem
  ⟨base + new.len, mem⟩

/-- TIER_BUDGETS with the record and entries of partition p taken from a partition-scoped image's section, which holds the
64-byte record and then the entries (R164). -/
def mergeBudgets (old new : Blob) (p : Nat) : Blob :=
  let kept := (listOf ((old.len - 2112) / 32) (fun i => 2112 + 32 * i)).filter (fun o => decide ((regionEntry old o).part ≠ p))
  let entries := kept.map (fun o => old.bytes o 32) ++ listOf ((new.len - 64) / 32) (fun i => new.bytes (64 + 32 * i) 32)
  let mem := (Mem.empty.writeN 0 (old.bytes 0 2112)).writeN (budgetAt p) (new.bytes 0 64)
  ⟨2112 + 32 * entries.length, mem.writeN 2112 entries.flatten⟩

/-- EXPERT_PLACEMENT with the record and entries of partition p taken from a partition-scoped image's section, which holds
the record and then the entries from ENTRY_BASE on (R203). -/
def mergeExperts (old new : Blob) (p : Nat) : Blob :=
  let r := eptRecAt new 0
  let n := r.layers * r.experts
  let was := eptRecAt old (64 * p)
  let mem := old.mem.clear (2048 + 32 * was.base) (32 * (was.layers * was.experts))
  let mem := mem.writeN (64 * p) (new.bytes 0 64)
  ⟨max old.len (2048 + 32 * (r.base + n)), mem.writeN (2048 + 32 * r.base) (new.bytes 64 (32 * n))⟩

/-- Where the sections that a partition-scoped image replaces for partition p, and no table of the whole device holds, are
kept: its NOC_SCHEDULE and PINNED_EXPERTS. -/
def scopedKey (p ty : Nat) : Nat := 0x10000 * (p + 1) + ty

/-- Put a section of a partition-scoped image of p into the tables. -/
def Dev.mergeSection (d : Dev) (p ty : Nat) (new : Blob) : Tab Blob :=
  let old := d.sec ty
  let secs := d.img.secs
  if ty = secClusterRoles then secs.set ty (mergeRoles old new (d.ownClusters p))
  else if ty = secTilePrograms then
    secs.set ty (mergePrograms old new ((d.ownClusters p).flatMap (fun c => listOf 16 (fun i => 16 * c + i))))
  else if ty = secTierBudgets then secs.set ty (mergeBudgets old new p)
  else if ty = secExpertPlacement then secs.set ty (mergeExperts old new p)
  else if ty = secNocSchedule ∨ ty = secPinnedExperts then secs.set (scopedKey p ty) new
  else secs

/-- The candidate of a partition-scoped image of p. -/
def Dev.scopedCandidate (d : Dev) (b : Blob) (p : Nat) : Dev :=
  (List.range (imgCount b)).foldl (fun c i => c.upImg (fun x => { x with secs := c.mergeSection p (dirType b i) (imgSection b i) })) d

/-- The checks of step 6 of R77 on the candidate `c`, section by section. -/
def Dev.scopedChecks (c : Dev) (b : Blob) (p : Nat) : List (Nat × Bool) :=
  let has (t : Nat) : Bool := (imgTypes b).contains t
  let raw (t : Nat) : Blob := match (List.range (imgCount b)).find? (fun i => decide (dirType b i = t)) with
    | some i => imgSection b i
    | none => noBlob
  let foreign := (List.range 512).any (fun t =>
    decide ((raw secTilePrograms).u8 (tileEntry t) = 1) && decide (c.tilePart t ≠ some p))
  [(secClusterRoles, !has secClusterRoles || c.rolesOk (c.partClusters p)),
   (secTilePrograms, !has secTilePrograms || (!foreign && c.programsOk (c.partClusters p) && (has secExpertPlacement || c.coordsApart p))),
   (secNocSchedule, !has secNocSchedule || c.nocOk (raw secNocSchedule) (some p)),
   (secTierBudgets, !has secTierBudgets || (c.budgetsOk && c.scopedBudgetsOk p)),
   (secExpertPlacement, !has secExpertPlacement || (c.eptRangesOk && c.expertsOk p))]

/-! ## Experts and blocks of a commit (R203) -/

/-- PINNED_EXPERTS in force for a partition; the spec gives the section no layout, so which experts it names is a free
value (log entry 4). -/
def Dev.expertPinned (d : Dev) (p i : Nat) : Bool :=
  let b := (d.img.secs.find (scopedKey p secPinnedExperts)).getD (d.sec secPinnedExperts)
  decide (b.len ≠ 0) && Config.pinned b p i

/-- Enter the experts of partition p: its placement-table entries, their homes, and the blocks of those whose home is
here. -/
def Dev.enterExperts (d : Dev) (p : Nat) : Dev :=
  let r := d.eptRec p
  let b := d.sec secExpertPlacement
  (List.range (r.layers * r.experts)).foldl (fun d k =>
    let i := r.base + k
    let e := eptImage b i
    if e = 0 then d
    else
      let d := d.upXdu (fun x => { x with ept := x.ept.set i e, home := x.home.set i (eptRank e) })
      match eptValid e && decide (eptRank e = d.rank), d.weightsHome p e with
      | true, some a =>
        (List.range (eptCount e)).foldl (fun d j =>
          d.setBlk (eptFirst e + j)
            (bvSet (bvSet (bvSet (bvSet (bvSet (0 : BitVec 128) 107 21 (a / blockBytes + j)) 77 3 1) 75 1 (b2n (d.expertPinned p i))) 68 5 p) 0 24 i)) d
      | _, _ => d) d

/-- Take the experts of partition p off the tables. -/
def Dev.leaveExperts (d : Dev) (p : Nat) : Dev :=
  let r := d.eptRec p
  let own (i : Nat) : Bool := decide (r.base ≤ i) && decide (i < r.base + r.layers * r.experts)
  (d.upXdu (fun x => { x with ept := x.ept.keep (fun i _ => !own i), home := x.home.keep (fun i _ => !own i),
                              hurt := x.hurt.filter (fun i => !own i) })).upMem (fun m =>
    { m with blk := m.blk.keep (fun _ e => !(decide (blkPart e = p) && decide (blkKind e = 0))),
             switches := m.switches.filter (fun s => !own s.index), acks := m.acks.keep (fun i _ => !own i) })

/-- Bring the local copy of a block entry home: a dirty one is copied; if a sub-unit cannot be read, the entry is LOST
(R188). -/
def Dev.bringHome (d : Dev) (i : Nat) : Dev :=
  let e := d.blk i
  if d.localCopy e = false ∨ blkState e = 0 ∨ blkState e = 4 then d
  else
    let src := blkCopy e * blockBytes
    let dst := blkHome e * blockBytes
    let home := bvSet (bvSet (bvSet (bvSet (bvSet (bvSet e 24 8 0) 77 3 1) 76 1 0) 86 21 0) 80 6 0) 73 1 0
    if blkDirty e = false then d.setBlk i home
    else
      let subs := List.range 512
      let bad := subs.any (fun k => d.subBad (src + 4096 * k) || d.subKeyless (dst + 4096 * k))
      let d := subs.foldl (fun d k => if d.subBad (src + 4096 * k) = true then d else d.copySub (src + 4096 * k) (dst + 4096 * k)) d
      if bad then
        ((d.setBlk i (bvSet home 77 3 4)).finc (Reg.MEM_LOSTp_COUNT (blkPart e))).post 0 .blockLost 0 (blkHome e)
      else d.setBlk i home

/-! ## Clusters and tiles -/

/-- At a commit that covers a cluster, its spare takes the lowest logical tile that waits (R157, R518, R519). -/
def Dev.substitute (d : Dev) (c : Nat) : Dev :=
  match lowBit 16 (d.fget (Reg.RAS_CLU_SLOTSc_WAITING c)) with
  | some t =>
    if d.fon (Reg.RAS_CLU_SLOTSc_SPARE_USED c) then d
    else (d.fset (Reg.RAS_CLU_SLOTSc_SPARE_USED c) 1).fclr (Reg.RAS_CLU_SLOTSc_WAITING c) (2 ^ t)
  | none => d

/-- Start the tiles of a list that have a program to run, and leave the others never started. -/
def Dev.startTiles (d : Dev) (ts : List Nat) : Dev :=
  ts.foldl (fun d t => if d.tileRuns t then d.startTile t ⟨[]⟩ else d.setTile t Tile.reset) d

/-- The tiles of a partition. -/
def Dev.ownTiles (d : Dev) (p : Nat) : List Nat := (d.ownClusters p).flatMap (fun c => listOf 16 (fun i => 16 * c + i))

/-- Clear the scratchpads of a partition's clusters (step 7 of R77). -/
def Dev.clearScratch (d : Dev) (p : Nat) : Dev := (d.ownClusters p).foldl (fun d c => d.clearRam (scratchBase (16 * c)) (16 * 0x200000)) d

/-! ## SANITIZE and discarding the image (R501, R549) -/

/-- A register word with its RWL fields at their Reset values. -/
def rwlReset (off : Nat) (v : W64) : W64 :=
  match findReg off with
  | some r => r.fields.foldl (fun v f => if f.acc = .rwl then bvSet v f.lo f.w f.reset else v) v
  | none => v

/-- Put a register back to its Reset value. -/
def Dev.regBack (d : Dev) (off : Nat) : Dev := d.upReg (fun r => { r with vals := r.vals.del off })

/-- Discard the committed image and everything that stands on it: its tables and RWL fields, the epochs of roles, the tiles,
placement, dispatch and collectives, and the schedules in force. -/
def Dev.discardImage (d : Dev) : Dev :=
  let d := d.upImg (fun i => { Img.reset with staged := i.staged })
  let d := d.upReg (fun r => { r with vals := r.vals.mapVal rwlReset })
  let d := ((d.regBack Reg.GLB_IMAGE_INFO).regBack Reg.GLB_POD_IMAGE_ID).regBack Reg.ONF_POD_INFO
  let d := (List.range 8).foldl (fun d n => d.regBack (Reg.GLB_ROLE_EPOCHn n)) d
  let d := (d.regBack Reg.MEM_PLACE_EN).regBack Reg.MEM_EPOCH_COUNT
  let d := d.upTl (fun _ => Tiles.reset)
  let d := d.upMem (fun m => { m with blk := ⟨[]⟩, moves := [], oldCopy := ⟨[]⟩, unreg := [], cmd := none, switches := [], acks := ⟨[]⟩, remoteHeld := ⟨[]⟩ })
  let d := (d.upXdu (fun _ => Xdu.reset)).upSmv (fun _ => Smv.reset)
  let d := (d.upTxs (fun _ => Txs.reset)).upEth (fun e => { e with pol := ⟨[]⟩, inbox := [] })
  let d := (List.range 32).foldl (fun d p => d.fset (Reg.TXS_GATEp_STATUS_ACTIVE_LIST p) 0) d
  let d := ((List.range 263).map (· + 1)).foldl (fun d f => d.regBack (Reg.VFM_FNf_STATE f)) d
  let d := (List.range 4096).foldl (fun d z => d.regBack (Reg.XDU_ZCNTz z)) d
  d.trustDiscard

/-- End what every function has in progress without publishing it: queues, queue pairs, regions, roots but that of PF0's
event queue, key slots and streams. -/
def Dev.endAll (d : Dev) : Dev :=
  let d := d.upWq (fun _ => Wqs.reset)
  let d := d.upQpe (fun _ => Qpe.reset)
  let d := d.upCad (fun c => { c with streams := ⟨[]⟩, waiting := none, slots := ⟨[]⟩ })
  let d := d.upVf (fun v => { v with flr := [], toFn := ⟨[]⟩, fromFn := ⟨[]⟩ })
  let used (r : Nat) : Bool := match d.ev.eqs.find 0 with | some q => decide (q.root = r) | none => false
  d.upDtu (fun t => { t with roots := t.roots.keep (fun r _ => used r), mr := ⟨[]⟩, staleWords := [], staleRoots := [], revoking := [], heldRevoke := none, syncs := [], hurt := [] })

/-- SANITIZE runs: staging ends, arrivals and doorbells are no longer taken, contexts end without publishing anything, keys
and every memory are cleared, and the image is discarded (R501).  Open Onaud links fall back to admission. -/
def Dev.sanitizeRun (d : Dev) : Dev :=
  let old := d.deviceState
  let d := d.imgDrop.upTr (fun t => { t with sanitizeDue := false, sanitizing := true })
  let d := d.endAll.discardImage
  let d := d.upMem (fun m => { m with ram := ⟨[]⟩, bad := [] })
  let d := d.upEv (fun e => { e with eqs := e.eqs.keep (fun f _ => decide (f = 0)), pend := e.pend.keep (fun f _ => decide (f = 0)), overflowed := e.overflowed.filter (· == 0) })
  let d := d.upOnf (fun o => { Onf.reset with links := o.links })
  let d := (List.range 64).foldl (fun d n =>
    if d.linkOpen n then
      ((d.updLink n (fun l => { l with replay := [], queue := [] })).setLinkState n 2).showReason n false
    else d) d
  d.noteState 168 old

/-- A SANITIZE that has waited for a commit starts (R501). -/
def Dev.sanitizeAfter (d : Dev) : Dev := if d.tr.sanitizeDue then d.sanitizeRun else d

/-! ## Commit -/

/-- What takes the committed tables into use: pod position, VFs, placement, gates and admission (R74). -/
def Dev.applyWhole (d : Dev) : Dev :=
  let topo := d.sec secPodTopology
  let d := if topo.len = 0 then d.regBack Reg.ONF_POD_INFO
    else ((d.fset Reg.ONF_POD_INFO_RANK (topo.u8 2)).fset Reg.ONF_POD_INFO_POD_SIZE (topo.u8 1)).fset Reg.ONF_POD_INFO_LEADER
      (if topo.u8 3 = 0xFF then 0 else topo.u8 3)
  let d := d.regSet Reg.ONF_PODTIME 0
  let d := d.upOnf (fun o => { o with upSeen := false, closed := false, claim := none, follows := false, aligned := false, baseSent := false })
  let d := ((List.range 263).map (· + 1)).foldl (fun d f =>
    let d := d.fset (Reg.VFM_FNf_STATE_PARTITION f) ((d.fnPart f).getD 0)
    d.fnSet f (if isVf f = false ∧ (d.fnPart f).isSome = true ∧ d.vfmFn f = true then 1 else 0)) d
  let place := maskOf ((List.range 32).filter (fun p => ((d.sec secTierBudgets).u8 (budgetAt p + 0x0F)).testBit 0))
  let d := (d.fset Reg.MEM_PLACE_EN_PART_EN place).fset Reg.MEM_EPOCH_COUNT_EPOCH 0
  let d := (d.upTxs (fun t => { t with base := ⟨[]⟩, pend := ⟨[]⟩ }))
  let d := (List.range 32).foldl (fun d p => d.fset (Reg.TXS_GATEp_STATUS_ACTIVE_LIST p) 0) d
  let d := (List.range 32).foldl (fun d p => d.enterExperts p) d
  let d := (List.range 32).foldl (fun d c => if d.clusterOff c then d else (d.substitute c).clearCluster c) d
  (List.range 64).foldl (fun d n => d.showReason n false) d

/-- A whole image whose contents pass goes into force, in the order of R74. -/
def Dev.commitWhole (d : Dev) (b : Blob) : Dev :=
  let old := d.deviceState
  let c := d.wholeCandidate b
  match firstFail c.wholeChecks with
  | some t => d.imgReject .malformed 0x0B (errSection b t)
  | none =>
    let d := c.upImg (fun i =>
      { i with staged := none, wholeVariant := imgVariant b, partVariant := ⟨[]⟩, headers := ⟨[(32, imgHeader b)]⟩, startDue := true })
    let d := d.fset Reg.GLB_STRUCT_EPOCH_EPOCH (d.fget Reg.GLB_STRUCT_EPOCH_EPOCH + 1)
    let d := (List.range 8).foldl (fun d n => d.regSet (Reg.GLB_ROLE_EPOCHn n) 0) d
    let d := (d.regSet Reg.GLB_POD_IMAGE_ID (BitVec.ofNat 64 (b.u64 0x20))).fset Reg.GLB_IMAGE_INFO_SECURITY_VERSION (imgSecurity b)
    let d := d.fset Reg.GLB_IMAGE_INFO_VARIANT (b2n (imgVariant b))
    let d := if d.tr.token then d else (d.fset Reg.SEC_DEBUG_LEVEL 0).tapClose
    let d := (d.trustCommit (imgHeader b)).applyWhole.noteState 168 old
    d.imgDone 0 .ok 0 0

/-- Device variance (R61). -/
def Dev.variance (d : Dev) : Bool := d.img.wholeVariant || d.img.partVariant.vals.any id

/-- The check of REASON 0x0A for a partition-scoped image of p. -/
def Dev.epochsMatch (d : Dev) (b : Blob) (p : Nat) : Bool :=
  decide (b.u32 0x28 = d.fget Reg.GLB_STRUCT_EPOCH_EPOCH) && decide (b.u8 0x2C = (d.roleEpoch p).toNat)

/-- COMMIT: the VERIFIED image; the drain of a partition-scoped one starts (R71, R72, R77). -/
def execCommit (s : State) : Host.Outcome State Fault Refusal :=
  imgCmd s (fun st => decide (st = 3)) (fun d =>
    match d.img.staged with
    | none => d
    | some x =>
      let b := x.bytes
      let p := imgPart b
      if imgVariant b = true ∧ d.fon Reg.IMG_POLICY_REFUSE_VARIANT = true then d.imgReject .varianceRefused 0x09 0xFF
      else if imgScoped b = true ∧ d.epochsMatch b p = false then d.imgReject .roleEpochMismatch 0x0A 0xFF
      else if d.stageBad 0 b.len then d.imgReject .uncorrectable 0x0D 0xFF
      else if imgScoped b = false then d.commitWhole b
      else (d.upImg (fun i => { i with committing := some ⟨p⟩ })).setImgState 4)

/-- Dispatch contexts or collectives of a partition are in flight. -/
def Dev.partBusy (d : Dev) (p : Nat) : Bool :=
  d.xdu.ctxs.vals.any (fun x => decide (x.part = p)) || d.smv.colls.vals.any (fun x => decide (x.part = p))

/-- Steps 4 and 5 of R77: the tiles of a partition stop, engines get the credits of discarded messages back, and pending
placement copies are abandoned.  The copies of an UNREGISTER go on. -/
def Dev.stopPart (d : Dev) (p : Nat) : Dev :=
  let engine : Sender → Bool := fun s => match s with
    | .engine _ => true
    | .tile _ _ => false
  let d := (d.ownTiles p).foldl (fun d t => (d.discardMail t engine).setTile t Tile.reset) d
  let d := d.upTl (fun t => { t with bars := t.bars.keep (fun k _ => decide (k / 64 ≠ p)) })
  (d.mem.moves.filter (fun m => decide (d.movePart m = p) && !m.unreg)).foldl (fun d m =>
    if m.started then d.abandonMove m Reg.MEM_PLACE_ABORTp_COUNT else d.dropMove m) d

/-- Steps 6 to 10 of R77 for a partition whose tiles have stopped. -/
def Dev.finishScoped (d : Dev) (b : Blob) (p : Nat) : Dev :=
  let has (t : Nat) : Bool := (imgTypes b).contains t
  let c := d.scopedCandidate b p
  match firstFail (c.scopedChecks b p) with
  | some t => ((d.clearScratch p).startTiles (d.ownTiles p)).imgReject .malformed 0x0B (errSection b t)
  | none =>
    -- copies leave pool blocks that may not stay
    let going (e : BitVec 128) : Bool :=
      has secTierBudgets || has secExpertPlacement || (match regionCluster ⟨0, 0, 0, false, 0, 0, blkCopy e * blockBytes, 0⟩ with | some k => c.clusterOff k | none => false)
    let d := (d.mem.blk.ents.filter (fun x => decide (blkPart x.2 = p) && d.localCopy x.2 && going x.2)).foldl (fun d x => d.bringHome x.1) d
    let d := if has secExpertPlacement then d.leaveExperts p else d
    let off := (d.ownClusters p).filter d.clusterOff
    let d := d.upImg (fun i =>
      { i with secs := c.img.secs, staged := none, committing := none, partVariant := i.partVariant.set p (imgVariant b), headers := i.headers.set p (imgHeader b) })
    let d := if has secExpertPlacement then d.enterExperts p else d
    let d := if has secTierBudgets then
        (if ((d.sec secTierBudgets).u8 (budgetAt p + 0x0F)).testBit 0 then d.forb Reg.MEM_PLACE_EN_PART_EN (2 ^ p) else d.fclr Reg.MEM_PLACE_EN_PART_EN (2 ^ p))
      else d
    let d := (d.ownClusters p).foldl (fun d k => d.substitute k) d
    let d := (off.filter (fun k => !d.clusterOff k)).foldl (fun d k => d.clearCluster k) d
    let d := (d.clearScratch p).setRoleEpoch p (d.roleEpoch p + 1)
    let d := (d.fset Reg.GLB_IMAGE_INFO_VARIANT (b2n d.variance)).trustPartCommit p (imgHeader b)
    (d.startTiles (d.ownTiles p)).imgDone 0 .ok 0 0

/-- PARTITION_DRAIN_DONE: the in-flight work of partition p has finished; steps 4 to 10 of R77 run. -/
def execPartitionDrainDone (p : Fin 32) (s : State) : Host.Outcome State Fault Refusal :=
  onDev s (fun d =>
    match d.img.staged with
    | none => d
    | some x =>
      if d.live = false ∨ d.partHeld p = false ∨ d.partBusy p = true then d
      else ((d.stopPart p).finishScoped x.bytes p).sanitizeAfter)

/-- DRAIN_LIMIT_EXPIRY: the drain has not ended in time and the commit is abandoned (R78). -/
def execDrainLimitExpiry (p : Fin 32) (s : State) : Host.Outcome State Fault Refusal :=
  onDev s (fun d =>
    if d.live = false ∨ d.partHeld p = false ∨ d.partBusy p = false then d
    else (d.imgReject .flushed 0x0C 0xFF).sanitizeAfter)

end Sys2Proof.Machine
end

