-- ==== Sys2Proof/Machine/HostLinks.lean ====
section
/-! DEFINITION. Host links: loss, read timeouts and REINIT (R335 to R337). -/
namespace Sys2Proof.Machine
open Sys2Proof

/-! ## What lies behind a link (R336) -/

/-- A DTU root is set toward link k. -/
def Dev.rootBehind (d : Dev) (k r : Nat) : Bool := match d.dtu.roots.find r with | some x => decide (x.link = k) | none => false

/-- A key names EXTERNAL memory behind link k. -/
def Dev.keyBehind (d : Dev) (k key : Nat) : Bool :=
  let e := d.mrEntry (key / 256)
  decide (mrState e ≠ 0) && decide (mrKind e = 0) && d.rootBehind k (mrRoot e)

/-- A queue's function, ring or completion word lies behind link k. -/
def Dev.queueBehind (d : Dev) (k : Nat) (q : Wq) : Bool := decide (fnLink (wqFn q.ctx) = k) || d.rootBehind k (wqRoot q.ctx)

/-- A queue ID names such a queue. -/
def Dev.qidBehind (d : Dev) (k qid : Nat) : Bool := match d.wqFind qid with | some q => d.queueBehind k q | none => false

/-- A queue pair uses link k: its function, a queue of its, or the region of a transfer in progress lies behind it. -/
def Dev.qpBehind (d : Dev) (k : Nat) (q : Qp) : Bool :=
  decide (fnLink q.fn = k) || d.qidBehind k q.sqQid || d.qidBehind k q.rqQid || q.out.any (fun m => d.keyBehind k m.lkey) ||
  q.recvs.any (fun r => d.keyBehind k (dFld r.desc 0x18 4)) || (match q.cur with | some c => c.write && d.keyBehind k c.key | none => false)

/-- Move a queue pair that uses a lost link to ERROR: its peer receives a NAK (R336, R401). -/
def Dev.qpLinkLost (d : Dev) (k n : Nat) (q : Qp) : Dev :=
  if q.state = 4 ∨ q.state = 0 then d
  else
    let d := if q.isUd = true ∨ q.state < 2 then d else d.sendAeth n q.epsn 0x62
    let bad (o : MsgOwner) : Bool := q.out.any (fun m => decide (m.owner = o) && d.keyBehind k m.lkey)
    let badRecv (i : Nat) : Bool := q.recvs.any (fun r => decide (r.idx = i) && d.keyBehind k (dFld r.desc 0x18 4))
    d.qpError n .hostLost q.sqPsn 0x62 bad badRecv

/-- The busy tile-DMA contexts that use memory behind link k: tile and context. -/
def Dev.dmaBehind (d : Dev) (k : Nat) : List (Nat × Nat) :=
  d.tl.tiles.ents.flatMap (fun p => (p.2.dma.ents.filter (fun c =>
    c.2.busy && ((decide (spaceOf (descSrc c.2.desc) = 4) && d.keyBehind k (descSrcKey c.2.desc)) ||
      (decide (spaceOf (descDst c.2.desc) = 4) && d.keyBehind k (descDstKey c.2.desc))))).map (fun c => (p.1, c.1)))

/-- End a tile-DMA context with a status and no record. -/
def Dev.dmaStop (d : Dev) (t c : Nat) (st : Status) : Dev := d.updTile t (fun y => { y with dma := y.dma.set c ⟨false, false, 0, st⟩ })

/-- End every context that uses link k with HOST_LOST, and count them. -/
def Dev.endBehind (d : Dev) (k : Nat) : Dev × Nat :=
  let xs := (d.xdu.ctxs.ents.filter (fun p =>
    decide (fnLink p.2.fn = k) || d.qidBehind k p.2.qid || (decide (xPath p.2.desc = 1) && d.keyBehind k (xOutKey p.2.desc)))).map (·.1)
  let hitC (c : Coll) : Bool := decide (fnLink c.fn = k) || d.qidBehind k c.qid
  let hitS (c : CadStream) : Bool := decide (fnLink c.fn = k) || d.qidBehind k c.qid || d.keyBehind k (cSrcKey c.desc) || d.keyBehind k (cDstKey c.desc)
  let qs := d.qpe.qps.ents.filter (fun p => d.qpBehind k p.2 && decide (p.2.state ≠ 4) && decide (p.2.state ≠ 0))
  let ts := d.dmaBehind k
  let n := xs.length + (d.smv.colls.vals.filter hitC).length + (d.cad.streams.vals.filter hitS).length + qs.length + ts.length
  let d := xs.foldl (fun d x => d.xduEnd x .hostLost) d
  let d := (d.smvFailWhere hitC .hostLost Coll.self).streamsEnd hitS .hostLost
  let d := ts.foldl (fun d t => d.dmaStop t.1 t.2 .hostLost) d
  (qs.foldl (fun d p => d.qpLinkLost k p.1 p.2) d, n)

/-- Link k is lost (R336): its contexts end, its functions' queues are LOST, other functions' rings behind it fail, its
functions' events collapse from now on, and PF0 is told. -/
def Dev.linkLoss (d : Dev) (k : Nat) : Dev :=
  let r := d.endBehind k
  let d := r.1
  let d := if k = 0 ∧ d.imgState = 1 then d.imgReject .hostLost 0 0xFF else d
  let other := (d.wq.queues.ents.filter (fun p => decide (fnLink (wqFn p.2.ctx) ≠ k) && d.rootBehind k (wqRoot p.2.ctx))).map (·.1)
  let d := d.upWq (fun w => { w with queues := w.queues.mapVal (fun _ q =>
    if fnLink (wqFn q.ctx) = k then { q with state := .lost, fetched := [], started := [], finished := [], unpub := false, events := [] } else q) })
  let d := other.foldl (fun d q => d.wqRingFail q .hostLost) d
  let d := d.upHif (fun h => { h with lost := if h.lost.contains k then h.lost else h.lost ++ [k], hostLines := if k = 0 then [] else h.hostLines })
  let d := (((d.fset (Reg.HIF_LINKk_STATUS_GEN k) 0).fset (Reg.HIF_LINKk_STATUS_WIDTH k) 0).fset (Reg.HIF_LINKk_STATUS_FLIT k) 0).fset
    (Reg.HIF_LINKk_STATUS_CXL k) 0
  let d := (d.hifState k 4).fadd (Reg.HIF_LINKk_LOST_CTX_COUNT k) r.2
  d.pcieLink k

/-- HOST_LINK_LOSS: link k goes down or receives a hot reset. -/
def execHostLinkLoss (k : Fin 8) (s : State) : Host.Outcome State Fault Refusal :=
  onDev s (fun d => if d.alive = true ∧ d.linkUp k = true then d.linkLoss k else d)

/-! ## Timeouts (R335) -/

/-- End what issued a read that failed: `rd` is the read as its user sees it, `st` the status of a failed ring access. -/
def Dev.endReader (d : Dev) (user : ReadUser) (rd : HostRead) (st : Status) : Dev :=
  let d := d.readEnd user
  match user with
  | .ring qid => d.wqRingFail qid.toNat st
  | .tileDma t c => if ((d.tile t).ctx c).busy then d.dmaStop t c st else d
  | .qp qpn =>
    let n := qpn.toNat
    match d.qp n with
    | none => d
    | some q =>
      match (d.wqFind q.sqQid).bind Wq.front with
      | some _ => d.qpeTurn q.sqQid rd (fun _ _ => true)
      | none => d.qpError n st q.sqPsn 0 noOwner (fun _ => false)
  | .stream n =>
    match d.cad.streams.find n with
    | some x => d.streamFail n x st
    | none => d
  | .command => if d.imgState = 1 then d.imgReject st 0 0xFF else d

/-- A read of a user is outstanding. -/
def Dev.reads (d : Dev) : ReadUser → Bool
  | .ring qid => match d.wqFind qid.toNat with | some q => decide (q.state = .active) | none => false
  | .tileDma t c => ((d.tile t).ctx c).busy
  | .qp qpn => (d.qp qpn.toNat).isSome
  | .stream n => (d.cad.streams.find n).isSome
  | .command => decide (d.imgState = 1)

/-- CPL_TIMEOUT: a read toward link k gets no completion in time.  The first time it is counted and issued once more; the
second time its context ends with HOST_LOST. -/
def execCplTimeout (k : Fin 8) (user : ReadUser) (s : State) : Host.Outcome State Fault Refusal :=
  onDev s (fun d =>
    if d.live = false ∨ d.linkUp k = false ∨ d.reads user = false then d
    else if d.hif.reissued.contains user then d.endReader user .lost .hostLost
    else (d.finc (Reg.HIF_LINKk_CPL_TO_COUNT k)).upHif (fun h => { h with reissued := h.reissued ++ [user] }))

/-! ## REINIT (R337) -/

/-- The roots of the functions of link k are cleared, and their queues and event queues return to RESET. -/
def Dev.reinit (d : Dev) (k : Nat) : Dev :=
  let d := d.upWq (fun w => { w with queues := w.queues.keep (fun _ q => decide (fnLink (wqFn q.ctx) ≠ k)) })
  let d := d.upEv (fun e => { e with eqs := e.eqs.keep (fun f _ => decide (fnLink f ≠ k)) })
  let d := d.upDtu (fun t =>
    { t with staleRoots := t.staleRoots.filter (fun w => match t.roots.find w.root with | some r => decide (fnLink r.fn ≠ k) | none => true),
             roots := t.roots.keep (fun _ r => decide (fnLink r.fn ≠ k)) })
  d.upHif (fun h => { h with lost := h.lost.filter (fun j => decide (j ≠ k)) })

/-- REINIT: a write of `HIF_LINKk_CTL.REINIT`; the bit reads 0 again at once, since the work is done in this command. -/
def execReinit (k : Fin 8) (s : State) : Host.Outcome State Fault Refusal :=
  onDev s (fun d => if d.alive then d.reinit k else d)

end Sys2Proof.Machine
end

