-- ==== Sys2Proof/Machine/Errors.lean ====
section
/-! DEFINITION. Errors, containment and fencing (chapter 16), and the randomness sources of Caddy's pipelines (R487). -/
namespace Sys2Proof.Machine
open Sys2Proof

/-! ## Fencing (R519 to R521) -/

/-- A device address lies in the memory of cluster c. -/
def Dev.inCluster (d : Dev) (c a : Nat) : Bool :=
  match d.site a with
  | some s => decide (s.tier = .cluster) && decide (s.unit = c)
  | none => false

/-- The effects of a fence on a cluster: placement copies in it go home, moves that touch it are abandoned, and its tiles stop with
cause 0x07 (R188, R521). -/
def Dev.fenceClusterBody (d : Dev) (c : Nat) : Dev :=
  let ms := d.mem.moves.filter (fun m => m.started && (d.inCluster c m.target || m.blocks.any (fun i => d.inCluster c (d.blkServing (d.blk i)))))
  let d := ms.foldl (fun d m => d.abandonMove m Reg.MEM_MIG_ABANDONp_COUNT) d
  let es := (d.mem.blk.ents.filter (fun p => d.localCopy p.2 && d.inCluster c (blkCopy p.2 * blockBytes))).map (·.1)
  let d := es.foldl (fun d i => d.bringHome i) d
  let d := d.forb Reg.RAS_FENCED_CLU_CLUSTERS (2 ^ c)
  (List.range 16).foldl (fun d i =>
    let ph := (d.tile (16 * c + i)).phase
    if ph = .running ∨ ph = .halting then d.tileTrap (16 * c + i) .fenced 0
    else if ph = .halted then (d.tileTrap (16 * c + i) .fenced 0).tileStop (16 * c + i) else d) d

/-- The effects of a fence on a die: its clusters, the contexts of its XDU and Samovar slice, its Onaud links and the channels of its
memories (R521). -/
def Dev.fenceDieBody (d : Dev) (die : Nat) : Dev :=
  let d := d.forb Reg.RAS_FENCED_DIE_DIES (2 ^ die)
  let d := (List.range 8).foldl (fun d i => if d.fbit Reg.RAS_FENCED_CLU_CLUSTERS (8 * die + i) then d else d.fenceClusterBody (8 * die + i)) d
  let xs := (d.xdu.ctxs.ents.filter (fun p => decide (p.1 / 64 = die))).map (·.1)
  let d := xs.foldl (fun d k => d.xduEnd k .uncorrectable) d
  let d := d.smvDieEnd die .uncorrectable
  let d := (List.range 16).foldl (fun d i => if d.linkState (16 * die + i) = 6 then d else d.linkOut (16 * die + i) 0) d
  let d := (d.fset (Reg.RAS_FENCED_HBMs_CHANNELS (2 * die)) 0xFFFF).fset (Reg.RAS_FENCED_HBMs_CHANNELS (2 * die + 1)) 0xFFFF
  d.forb Reg.RAS_FENCED_LP5X_CHANNELS (0xF * 2 ^ (4 * die))

/-- A unit that `RAS_FENCE_CMD` can name: KIND 1 cluster, 2 die, 3 HBM3E channel, 4 LP5X channel, 5 Caddy pipeline, with an INDEX in
its range (R520). -/
def fenceNames (kind index : Nat) : Bool :=
  decide (kind = 1 ∧ index < 32) || decide (kind = 2 ∧ index < 4) || decide (kind = 3 ∧ index < 128) ||
  decide (kind = 4 ∧ index / 16 < 4 ∧ index % 16 < 4) || decide (kind = 5 ∧ index < 96)

/-- The unit is fenced already. -/
def Dev.isFenced (d : Dev) (kind index : Nat) : Bool :=
  match kind with
  | 1 => d.fbit Reg.RAS_FENCED_CLU_CLUSTERS index
  | 2 => d.fbit Reg.RAS_FENCED_DIE_DIES index
  | 3 => d.fbit (Reg.RAS_FENCED_HBMs_CHANNELS (index / 16)) (index % 16)
  | 4 => d.fbit Reg.RAS_FENCED_LP5X_CHANNELS (4 * (index / 16) + index % 16)
  | _ => d.cad.fenced.contains index

/-- Fence a unit and post FENCED (R512, R520). -/
def Dev.fenceUnit (d : Dev) (kind index : Nat) : Dev :=
  if fenceNames kind index = false ∨ d.isFenced kind index = true then d
  else
    let d := match kind with
      | 1 => d.fenceClusterBody index
      | 2 => d.fenceDieBody index
      | 3 => d.forb (Reg.RAS_FENCED_HBMs_CHANNELS (index / 16)) (2 ^ (index % 16))
      | 4 => d.forb Reg.RAS_FENCED_LP5X_CHANNELS (2 ^ (4 * (index / 16) + index % 16))
      | _ => (d.upCad (fun c => { c with fenced := c.fenced ++ [index] })).fset Reg.CAD_PIPES_ACTIVE (d.fget Reg.CAD_PIPES_ACTIVE - 1)
    d.post 0 (.other 0x39) 0 (kind + index * 65536)

/-- FENCE_CMD: a write of `w` to RAS_FENCE_CMD.  STANDBY refuses it without an effect, since the block has no CMD_ERR (R520, R545). -/
def execFenceCmd (w : W32) (s : State) : Host.Outcome State Fault Refusal :=
  onDev s (fun d => if d.running = true ∧ d.inStandby = false then d.fenceUnit (fld w.toNat 0 4) (fld w.toNat 16 16) else d)

/-! ## Device fatal (R517) -/

/-- Every Onaud link goes DOWN at once, with what it held. -/
def Dev.linksDown (d : Dev) : Dev :=
  (List.range 64).foldl (fun d n =>
    if d.linkState n = 0 ∨ d.linkState n = 6 then d
    else (d.updLink n (fun l => { l with replay := [], queue := [], nak := false, failSeq := none })).setLinkState n 0) d

/-- Every context ends without publishing anything. -/
def Dev.endQuiet (d : Dev) : Dev :=
  let d := d.upWq (fun w => { w with queues := w.queues.mapVal (fun _ q =>
    { q with fetched := [], started := [], finished := [], events := [], unpub := false, quiet := true }) })
  let d := d.upQpe (fun x => { x with qps := x.qps.mapVal (fun _ q => { q with out := [], recvs := [], cur := none, ends := [], ahead := [] }) })
  let d := d.upCad (fun c => { c with streams := ⟨[]⟩, waiting := none })
  let d := d.upXdu (fun x => { x with ctxs := ⟨[]⟩, served := [], orphans := [], window := ⟨[]⟩ })
  let d := d.upSmv (fun x => { x with colls := ⟨[]⟩, held := [] })
  let d := d.upTl (fun x => { x with noc := [], tiles := x.tiles.mapVal (fun _ t => { t with dma := ⟨[]⟩ }) })
  let d := d.upEth (fun e => { e with inbox := [] })
  let d := d.upTxs (fun t => { t with ready := [] })
  d.upOnf (fun o => { o with held := [], inbox := [] })

/-- Enter device fatal: the PCIe links, BAR0 and the management interface stay (R517). -/
def Dev.goFatal (d : Dev) (loc detail : Nat) : Dev :=
  if d.fatal then d
  else
    let old := d.deviceState
    let d := (d.fset Reg.RAS_FATAL_FATAL 1).fset Reg.RAS_FATAL_UNIT 0x13
    let d := d.noteState 168 old
    let d := d.rasRecord { sev := 5, unit := 0x13, action := 8, status := Status.uncorrectable.code, loc := loc, detail := detail }
    (d.post 0 (.other 0x3A) Status.uncorrectable.code 0x13).endQuiet.linksDown

/-! ## Duplicated control state (R516, R517) -/

/-- The record of control state that one context loses. -/
def Dev.controlRecord (d : Dev) (loc detail action kind part fn ctx : Nat) : Dev :=
  d.rasRecord { sev := 4, unit := 0x13, action := action, status := if action = 1 then Status.uncorrectable.code else 0, loc := loc, detail := detail,
                kind := kind, part := part, fn := fn, ctx := ctx }

/-- A lasting mismatch in a machine of a block (numbered by its row in R7's table) that holds the state of `inst`: a work queue, a
queue pair, the contexts that a queue started and a tile end alone; every other machine is shared, and the device is fatal. -/
def Dev.controlLost (d : Dev) (block machine inst : Nat) : Dev :=
  let detail := machine + inst * 65536
  let own (qid : Nat) : Bool := decide (qid = inst)
  match block with
  | 8 =>
    (match d.wqFind inst with
     | some q => (d.controlRecord block detail 1 7 ((d.wqPart q).getD 0xFF) (wqFn q.ctx) inst).wqRingFail inst .uncorrectable
     | none => d.goFatal block detail)
  | 10 =>
    (match d.qp inst with
     | some q => (d.controlRecord block detail 1 1 (d.qpPart q) q.fn inst).qpError inst .uncorrectable q.sqPsn 0 noOwner (fun _ => false)
     | none => d.goFatal block detail)
  | 15 =>
    (match d.xdu.ctxs.ents.find? (fun p => own p.2.qid) with
     | some (k, c) => (d.controlRecord block detail 1 3 c.part c.fn (xContext k c.gen)).xduEnd k .uncorrectable
     | none => d.goFatal block detail)
  | 14 =>
    (match d.smv.colls.vals.find? (fun c => own c.qid) with
     | some c => (d.controlRecord block detail 1 4 c.part c.fn (c.group * 256 + c.anchor)).smvFailWhere (fun x => own x.qid) .uncorrectable Coll.self
     | none => d.goFatal block detail)
  | 6 =>
    (match d.cad.streams.ents.find? (fun p => own p.2.qid) with
     | some (k, x) => (d.controlRecord block detail 1 5 x.part x.fn k).streamsEnd (fun y => own y.qid) .uncorrectable
     | none => d.goFatal block detail)
  | 19 =>
    let t := inst % 512
    (d.controlRecord block detail 2 8 ((d.tilePart t).getD 0xFF) 0xFFFF t).tileDown t .uncorrectable 0
  | _ => d.goFatal block detail

/-- DUP_MISMATCH: the copies of a control state machine differ, and the transition is repeated; `again` says that they still
differ. -/
def execDupMismatch (block machine : BitVec 8) (inst : BitVec 16) (again : Bool) (s : State) : Host.Outcome State Fault Refusal :=
  onDev s (fun d =>
    if !d.running then d
    else
      let d := d.finc Reg.RAS_DUP_MISMATCH_COUNT
      if again then d.controlLost block.toNat machine.toNat inst.toNat
      else d.rasRecord { sev := 3, unit := 0x13, action := 0, status := 0, loc := block.toNat, detail := machine.toNat + inst.toNat * 65536 })

/-! ## Classified errors (R504 to R507, R513, R518) -/

/-- One of a list, or none of it, where the spec does not say which (log entry 4). -/
def Dev.pickOne {α : Type} (d : Dev) (l : List α) : Option α := l[(Config.freeValue 32 d.fresh).toNat % (l.length + 1)]?

/-- UNIT, LOCATION and DETAIL of an error's place (R509); the training step that failed and a packet buffer's or the staging copy's
syndrome are free values (log entry 4). -/
def Dev.siteUnit (d : Dev) : ErrSite → Nat × Nat × Nat
  | .word a => d.wordUnit a.toNat
  | .tile t part index => (2, t, part + index.toNat * 65536)
  | .hbmTraining h c => (5, h + c * 256, (Config.freeValue 8 d.fresh).toNat)
  | .lpTraining m c => (7, m + c * 256, (Config.freeValue 8 d.fresh).toNat)
  | .noc die router port => (8, die + router * 16, port)
  | .d2d k lane => (9, k, lane.toNat)
  | .packetCell cell => (0x0A, cell.toNat, (Config.freeValue 8 d.fresh).toNat)
  | .qpContext n off => (0x0B, n.toNat, off.toNat)
  | .wqContext q off => (0x0C, q.toNat, off.toNat)
  | .mrEntry i off => (0x0D, i.toNat, off.toNat)
  | .tablePage a level => (0x0E, a.toNat, level)
  | .blockMap i => (0x0F, i.toNat, 0)
  | .placement i => (0x0F, i.toNat, 1)
  | .cache die e => (0x10, die, e.toNat)
  | .engineBuffer die smv b => (0x11, die, b.toNat + b2n smv * 256)
  | .completion k ecrc _ => (0x12, k, b2n ecrc)
  | .control block machine inst => (0x13, block.toNat, machine.toNat + inst.toNat * 65536)
  | .pipeline n => (0x14, n, 1)
  | .fuse bank bit => (0x15, bank.toNat, bit.toNat)
  | .staging a => (0x16, a.toNat, (Config.freeValue 8 d.fresh).toNat)

/-- The record of a classified error. -/
def Dev.siteRecord (d : Dev) (x : ErrSite) (sev action : Nat) (kind part fn ctx : Nat) : Dev :=
  let u := d.siteUnit x
  (d.rasRecord { sev := sev, unit := u.1, action := action, status := if action = 1 then Status.uncorrectable.code else 0, loc := u.2.1,
                 detail := u.2.2, kind := kind, part := part, fn := fn, ctx := ctx }).bump

/-- The record of an error that no context of R439 consumes. -/
def Dev.plainRecord (d : Dev) (x : ErrSite) (sev action : Nat) : Dev := d.siteRecord x sev action 0 0xFF 0xFFFF 0

/-- Mark the ECC unit at a device address as lasting-uncorrectable (R507). -/
def Dev.markBad (d : Dev) (a : Nat) : Dev :=
  match d.site (d.serve a) with
  | some s =>
    let u := s.place / s.tier.eccUnit * s.tier.eccUnit
    if d.mem.bad.contains u then d else d.upMem (fun m => { m with bad := m.bad ++ [u] })
  | none => d

/-- A lasting uncorrectable line of cluster memory counts in its bank, and BANK_LIMIT of them fence the cluster (R520). -/
def Dev.countLine (d : Dev) (a : Nat) : Dev :=
  match d.site (d.serve a) with
  | some s =>
    if s.tier ≠ .cluster then d
    else
      let line := (s.place - clusterBase s.unit) / 64
      let key := (s.unit, line % 240, line)
      let d := if d.ras.lines.contains key then d else d.upRas (fun r => { r with lines := r.lines ++ [key] })
      let n := (d.ras.lines.filter (fun l => decide (l.1 = s.unit) && decide (l.2.1 = line % 240))).length
      if max 1 (d.fget Reg.RAS_FENCE_CTL_BANK_LIMIT) ≤ n ∧ d.isFenced 1 s.unit = false then
        (d.wordRecord a 4 3 0 0 0xFF 0xFFFF 0).fenceUnit 1 s.unit
      else d
  | none => d

/-- A lane of a die-to-die link is lost: a spare takes its place, or the die is fenced (R23, R518, R519). -/
def Dev.laneLost (d : Dev) (x : ErrSite) (k : Nat) : Dev :=
  if d.fget (Reg.RAS_D2Dk_SPARES_USED k) + d.ras.badSpares.get 0 k < 2 then
    (d.finc (Reg.RAS_D2Dk_SPARES_USED k)).plainRecord x 4 4
  else (d.plainRecord x 4 3).fenceUnit 2 (k % 4)

/-- KIND, partition, function and CONTEXT of who issued a read (R439). -/
def Dev.readerCtx (d : Dev) : ReadUser → Nat × Nat × Nat × Nat
  | .ring q => let f := (d.wqFind q.toNat).map (fun x => wqFn x.ctx)
    (7, (f.bind d.fnPart).getD 0xFF, f.getD 0xFFFF, q.toNat)
  | .tileDma t c => (2, (d.tilePart t).getD 0xFF, 0xFFFF, t * 8 + c)
  | .qp n => let f := (d.qp n.toNat).map (fun x => x.fn)
    (1, (f.bind d.fnPart).getD 0xFF, f.getD 0xFFFF, n.toNat)
  | .stream n => let f := (d.cad.streams.find n).map (fun x => x.fn)
    (5, (f.bind d.fnPart).getD 0xFF, f.getD 0xFFFF, n)
  | .command => (0, 0xFF, 0xFFFF, 0)

/-- A lasting error at a place: containment, sparing or fencing (R513, R518 to R520).  A bad word and a bad table page are recorded
by each context that consumes them, a bad region entry or placement entry by each that reads it. -/
def Dev.lastingAt (d : Dev) (x : ErrSite) : Dev :=
  match x with
  | .word a => (d.markBad a.toNat).countLine a.toNat
  | .tile t _ _ =>
    let d := d.siteRecord x 4 2 8 ((d.tilePart t).getD 0xFF) 0xFFFF t
    if (d.tile t).phase = .running ∨ (d.tile t).phase = .halting then d.tileDown t .uncorrectable 0 else d.claimSpare t
  | .hbmTraining h c => (d.plainRecord x 4 3).fenceUnit 3 (16 * h + c)
  | .lpTraining m c => (d.plainRecord x 4 3).fenceUnit 4 (16 * m + c)
  | .d2d k _ => d.laneLost x k
  | .packetCell _ =>
    let hit := d.pickOne d.eth.inbox
    let d := d.plainRecord x 4 0
    let d := d.upEth (fun e => { e with retired := e.retired + 1 })
    (match hit with
     | some p =>
       let d := d.upEth (fun e => { e with inbox := e.inbox.erase p })
       if p.rank = none then d.checkXon p.port p.cls else d
     | none => d)
  | .qpContext n _ =>
    (match d.qp n.toNat with
     | some q => (d.siteRecord x 4 1 1 (d.qpPart q) q.fn n.toNat).qpError n.toNat .uncorrectable q.sqPsn 0 noOwner (fun _ => false)
     | none => d.plainRecord x 4 0)
  | .wqContext n _ =>
    (match d.wqFind n.toNat with
     | some q => (d.siteRecord x 4 1 7 ((d.wqPart q).getD 0xFF) (wqFn q.ctx) n.toNat).wqRingFail n.toNat .uncorrectable
     | none => d.plainRecord x 4 0)
  | .mrEntry i _ =>
    let d := d.upDtu (fun t => { t with hurt := if t.hurt.contains i.toNat then t.hurt else t.hurt ++ [i.toNat] })
    if mrState (d.mrEntry i.toNat) = 1 then d.revokePoint i.toNat else d
  | .tablePage a _ => d.markBad a.toNat
  | .blockMap i =>
    let e := d.blk i.toNat
    let d := d.plainRecord x 4 6
    if blkState e = 0 ∨ blkState e = 4 then d
    else ((d.blkSetState i.toNat 4).finc (Reg.MEM_LOSTp_COUNT (blkPart e))).post 0 .blockLost 0 (blkHome e)
  | .placement i => d.upXdu (fun t => { t with hurt := if t.hurt.contains i.toNat then t.hurt else t.hurt ++ [i.toNat] })
  | .engineBuffer die smv _ =>
    if smv then
      match d.pickOne (d.smv.colls.vals.filter (fun c => decide (c.die = die.val) && decide (c.phase ≠ 3))) with
      | some c => (d.siteRecord x 4 1 4 c.part c.fn (c.group * 256 + c.anchor)).smvFail c.group .uncorrectable c.self
      | none => d.plainRecord x 4 0
    else
      match d.pickOne (d.xdu.ctxs.ents.filter (fun p => decide (p.1 / 64 = die.val))) with
      | some (k, c) => (d.siteRecord x 4 1 3 c.part c.fn (xContext k c.gen)).xduEnd k .uncorrectable
      | none => d.plainRecord x 4 0
  | .completion _ _ user =>
    if d.reads user then
      let u := d.readerCtx user
      (d.siteRecord x 4 1 u.1 u.2.1 u.2.2.1 u.2.2.2).endReader user .poisoned .uncorrectable
    else d.plainRecord x 4 0
  | .control block machine inst => d.controlLost block.toNat machine.toNat inst.toNat
  | .pipeline _ =>
    (match d.pickOne (d.cad.streams.ents.filter (fun p => !p.2.running.isEmpty)) with
     | some (k, y) => (d.siteRecord x 4 1 5 y.part y.fn k).streamFail k y .uncorrectable
     | none => d.plainRecord x 4 0)
  | .staging a => (d.plainRecord x 4 (if d.img.staged.isSome then 1 else 0)).markBad a.toNat
  | .noc _ _ _ | .cache _ _ | .fuse _ _ => d.plainRecord x 4 0

/-- A corrected error that lasts, in an HBM3E row, queues the row for repair; a unit already recorded is in the queue (R506, R518). -/
def Dev.correctedLasting (d : Dev) (x : ErrSite) : Dev :=
  let u := d.siteUnit x
  if u.1 = 4 then
    let d := if repeatsOf d.ras.repeats (u.1, u.2.1) = 0 then d.finc Reg.RAS_HBM_REPAIR_PEND_ROWS else d
    d.plainRecord x 2 5
  else d.plainRecord x 2 0

/-- ERROR_DETECT: a detected error starts its one retry (R504). -/
def execErrorDetect (site : ErrSite) (s : State) : Host.Outcome State Fault Refusal :=
  onDev s (fun d =>
    if d.running = true ∧ d.ras.pending.contains site = false then d.upRas (fun r => { r with pending := r.pending ++ [site] }) else d)

/-- RETRY_DONE: the retry of a detected error ends and classifies it (R504, R505). -/
def execRetryDone (site : ErrSite) (cls : RetryClass) (s : State) : Host.Outcome State Fault Refusal :=
  onDev s (fun d =>
    if d.running = false ∨ d.ras.pending.contains site = false then d
    else
      let d := d.upRas (fun r => { r with pending := r.pending.erase site })
      match cls with
      | .correctedTransient => d.finc Reg.RAS_CORR_TRANSIENT_COUNT
      | .correctedLasting => d.correctedLasting site
      | .transient => d.plainRecord site 3 0
      | .lasting => d.lastingAt site)

/-! ## Caddy's randomness (R487) -/

/-- RNG_HEALTH_FAIL: a pipeline's source fails its health test; `again` says that the retest fails too, and the pipeline is fenced.  A
unit on it restarts on another pipeline, which only changes timing (R522). -/
def execRngHealthFail (pipe : Fin 96) (again : Bool) (s : State) : Host.Outcome State Fault Refusal :=
  onDev s (fun d =>
    if d.running = false ∨ d.cad.fenced.contains pipe.val = true then d
    else if again then (d.rasRecord { sev := 4, unit := 0x14, action := 3, status := 0, loc := pipe, detail := 0 }).fenceUnit 5 pipe
    else d.finc Reg.CAD_RNG_RETRY_COUNT)

/-! ## The record store (R510) -/

/-- LOG_DATA0_READ: latches the record that RAS_LOG_INDEX names, and answers its first word (R510, R526). -/
def execLogData0Read (s : State) : Host.Outcome State Fault Refusal :=
  onDev s (fun d =>
    if !d.alive then d
    else
      let i := d.fget Reg.RAS_LOG_INDEX_ENTRY
      let r := d.ras.log.get 0 i
      (d.upRas (fun x => { x with latch := r, unread := x.unread.filter (fun j => decide (j ≠ i)) })).emit
        (.regRead 0 (Reg.RAS_LOG_DATAi 0) 4 (BitVec.ofNat 64 (bvFld r 0 32))))

end Sys2Proof.Machine
end

