-- ==== Sys2Proof/Machine/Fabric.lean ====
section
/-! DEFINITION. Onaud: training, cells, control messages, leadership and routes (chapter 7). -/
namespace Sys2Proof.Machine
open Sys2Proof

/-! ## Training and states (R225 to R229) -/

/-- TRAINING_RESTART: 100 ms in DOWN are over, and the link trains again unless DISABLE is set (R225). -/
def execTrainingRestart (n : Fin 64) (s : State) : Host.Outcome State Fault Refusal :=
  onDev s (fun d => if d.running && decide (d.linkState n = 0) && !d.fon (Reg.ONF_LINKn_CTL_DISABLE n) then d.startTraining n else d)

/-- TRAINING_DONE: the steps of R227 have ended with these good lanes; `ok` says that FEC locked, identities were exchanged and
calibration ran.  At least 3 lanes must be good. -/
def execTrainingDone (n : Fin 64) (lanes : BitVec 4) (ok : Bool) (s : State) : Host.Outcome State Fault Refusal :=
  onDev s (fun d =>
    if !d.running || decide (d.linkState n ≠ 1) || (d.onfLink n).testing then d
    else
      let lanes := d.goodLanes n lanes
      let d := d.fset (Reg.ONF_LINKn_STATE_LANES n) lanes.toNat
      if ok ∧ 3 ≤ popBits 4 lanes.toNat then
        let d := d.fset (Reg.ONF_LINKn_LAT_LAT0 n) (d.onfLink n).echoMax
        ((d.setLinkState n 2).showReason n false).emit (.ident n (d.ownIdent n))
      else d.linkOut n 0)

/-- ADMISSION: at a frame boundary a link in ADMIT meets every condition of R228 and comes into service; `aligned` says that the
peer is frame-aligned.  Otherwise REASON names the first condition that fails. -/
def execAdmission (n : Fin 64) (aligned : Bool) (s : State) : Host.Outcome State Fault Refusal :=
  onDev s (fun d =>
    if !d.running || decide (d.linkState n ≠ 2) then d
    else if d.admitReason n aligned = 0 then d.linkIn n
    else d.showReason n aligned)

/-- PEER_SILENT: 64 slots have passed without a good cell (R226). -/
def execPeerSilent (n : Fin 64) (s : State) : Host.Outcome State Fault Refusal :=
  onDev s (fun d => if d.running && !(d.onfLink n).testing then d.startRetrain n else d)

/-- RETRAIN_DONE: retraining has ended with these good lanes: UP with 4, DEGRADED with 3, DOWN otherwise; the replay buffer is
resent (R225, R244). -/
def execRetrainDone (n : Fin 64) (lanes : BitVec 4) (s : State) : Host.Outcome State Fault Refusal :=
  onDev s (fun d =>
    if !d.running || decide (d.linkState n ≠ 5) then d
    else
      let lanes := d.goodLanes n lanes
      let d := (d.fset (Reg.ONF_LINKn_STATE_LANES n) lanes.toNat).fset (Reg.ONF_LINKn_CTL_RETRAIN n) 0
      let k := popBits 4 lanes.toNat
      if k < 3 then d.linkOut n 0
      else
        let st := if k = 4 then 3 else 4
        let d := ((d.setLinkState n st).report n st none).replayAll n
        (d.pump n ((d.onfLink n).queue.length)).releaseHeld)

/-- RETRAIN_LIMIT: 20 µs of retraining are over, and the link goes DOWN (R225, R244). -/
def execRetrainLimit (n : Fin 64) (s : State) : Host.Outcome State Fault Refusal :=
  onDev s (fun d => if d.running && decide (d.linkState n = 5) then d.linkOut n 0 else d)

/-- LINK_DISABLE: a write of `w` to ONF_LINKn_CTL, for its DISABLE field: 1 holds the link DISABLED, 0 releases it to TRAINING
(R225, R268).  A link under test follows once its test has completed (R565). -/
def execLinkDisable (n : Fin 64) (w : W32) (s : State) : Host.Outcome State Fault Refusal :=
  onDev s (fun d =>
    if !d.alive then d
    else
      let d := d.fset (Reg.ONF_LINKn_CTL_DISABLE n) (b2n (bitAt w.toNat 0))
      if (d.onfLink n).testing then d
      else if bitAt w.toNat 0 then d.linkOut n 6 else if d.linkState n = 6 then d.startTraining n else d)

/-- RETRAIN: a write of `w` to ONF_LINKn_CTL, for its RETRAIN field: 1 puts an open link into RETRAINING (R268). -/
def execRetrain (n : Fin 64) (w : W32) (s : State) : Host.Outcome State Fault Refusal :=
  onDev s (fun d =>
    if !d.alive || !bitAt w.toNat 1 || !d.linkOpen n || (d.onfLink n).testing then d else (d.fset (Reg.ONF_LINKn_CTL_RETRAIN n) 1).startRetrain n)

/-! ## Unsequenced cells -/

/-- IDLE: an IDLE cell brings LACK and credits (R232, R242). -/
def execIdle (n : Fin 64) (hdr : BitVec 96) (s : State) : Host.Outcome State Fault Refusal :=
  onDev s (fun d => if d.live && d.linkOpen n then d.takeReturns n hdr else d)

/-- LINK_NAK: the peer asks for a replay from LACK + 1 (R243). -/
def execLinkNak (n : Fin 64) (hdr : BitVec 96) (s : State) : Host.Outcome State Fault Refusal :=
  onDev s (fun d => if d.live && d.linkOpen n then (d.updLink n (fun l => { l with replay := ackCells l (hdrLack hdr) })).replayAll n |>.takeReturns n hdr else d)

/-- IDENT: the peer's identity, in training or ADMIT; a strap heard enters the election (R227, R247). -/
def execIdent (n : Fin 64) (rank link : Fin 64) (strap : Bool) (leader : BitVec 8) (committed : Bool) (podImage : W64) (epoch : W32) (s : State) :
    Host.Outcome State Fault Refusal :=
  onDev s (fun d =>
    if !d.running || decide (d.linkState n ≠ 1 ∧ d.linkState n ≠ 2) then d
    else
      let d := d.updLink n (fun l => { l with ident := some ⟨rank, link, strap, leader.toNat, committed, podImage, epoch⟩ })
      let d := (d.fset (Reg.ONF_LINKn_STATE_PEER_RANK n) rank).fset (Reg.ONF_LINKn_STATE_PEER_LINK n) link
      let d := if strap ∧ d.onf.closed = false then d.upOnf (fun o => { o with claim := some (min (o.claim.getD 64) rank) }) else d
      d.showReason n true)

/-- ECHO_REQ: answered in every state from TRAINING to RETRAINING (R229). -/
def execEchoReq (n : Fin 64) (s : State) : Host.Outcome State Fault Refusal :=
  onDev s (fun d => if d.running && decide (1 ≤ d.linkState n) && decide (d.linkState n ≤ 5) then d.emit (.echoRsp n) else d)

/-- ECHO_RSP: a round trip and the responder's hold, in slots: a calibration measurement in training, a measurement of LAT_NOW on
an open link (R229, R256). -/
def execEchoRsp (n : Fin 64) (rt hold : Nat) (s : State) : Host.Outcome State Fault Refusal :=
  onDev s (fun d =>
    if !d.running then d
    else if d.linkState n = 1 then
      (d.fset (Reg.ONF_LINKn_LAT_LAT_NOW n) (latencyOf rt hold)).updLink n (fun l =>
        { l with echoes := l.echoes + 1, echoMax := max l.echoMax (latencyOf rt hold) })
    else if d.linkOpen n then d.measure n (latencyOf rt hold)
    else d)

/-- LATENCY_REMEASURE: the ECHO exchange of every 64th frame on an open link (R256). -/
def execLatencyRemeasure (n : Fin 64) (rt hold : Nat) (s : State) : Host.Outcome State Fault Refusal :=
  onDev s (fun d => if d.running && d.linkOpen n then (d.emit (.plainCell n (mkHdr 6 0 0 d.rank 0 0 0 0 0 0))).measure n (latencyOf rt hold) else d)

/-- CRC_FAILURE: a cell with a bad CRC, or a TYPE or CLASS that no cell has (R232, R233, R243, R244). -/
def execCrcFailure (n : Fin 64) (s : State) : Host.Outcome State Fault Refusal :=
  onDev s (fun d => if d.live && d.linkOpen n then (d.finc (Reg.ONF_LINKn_CRC_ERR_COUNT n)).cellFailed n else d)

/-! ## Sequenced cells (R250, R255, R263) -/

/-- Drop a cell that comes from a fenced rank, forward one for another rank, and hand on one for this device. -/
def Dev.arriveCell (d : Dev) (n : Nat) (c : OnfCell) (own : Dev → Dev) : Dev :=
  match d.takeCell n c.hdr with
  | (d, false) => d
  | (d, true) =>
    if d.rankFenced (d.mapRank n) then d.finc Reg.ONF_FENCE_DROP_COUNT
    else if hdrDst c.hdr ≠ d.rank then d.forward c
    else own d

/-- DATA: a DATA cell is forwarded in transit, or enters a burst that is delivered or dropped whole (R250, R255). -/
def execData (n : Fin 64) (hdr : BitVec 96) (payload : BitVec 512) (s : State) : Host.Outcome State Fault Refusal :=
  onDev s (fun d => d.arriveCell n ⟨hdr, .data payload⟩ (fun d => d.takeData hdr payload))

/-- The context that an EPOCH_NAK names ends with ROLE_EPOCH_MISMATCH: a dispatch context by the BATCH_ID of its batch, or a
collective.  A queue pair retransmits (R412), and a placement cell has no context. -/
def Dev.nakContext (d : Dev) (payload : BitVec 512) : Dev :=
  let h : BitVec 96 := payload.setWidth 96
  let p : BitVec 512 := BitVec.ofNat 512 (payload.toNat / 2 ^ 96)
  if hdrClass h = 0 then d.smvNak p
  else if hdrClass h = 1 ∧ bvFld p 0 8 = 1 then
    let id := bvFld p 32 32
    (d.xdu.ctxs.ents.filter (fun x => x.2.batches.any (fun b => decide (b.id.toNat = id) && decide (b.site = .peer (hdrDst h))))).foldl
      (fun d x => d.xduEnd x.1 .roleEpochMismatch) d
  else d

/-- EPOCH_NAK: a burst was dropped for its role epoch; at its source the context it names ends (R255). -/
def execEpochNak (n : Fin 64) (hdr : BitVec 96) (payload : BitVec 512) (s : State) : Host.Outcome State Fault Refusal :=
  onDev s (fun d => d.arriveCell n ⟨hdr, .data payload⟩ (fun d => d.nakContext payload))

/-! ## Control messages (R253 to R263) -/

/-- SWITCH: a change of route set, schedule and recalibrated links is announced for a frame; ranks it names lost are lost here too
(R254, R259). -/
def execSwitch (h : CtlHead) (set : Fin 4) (frame : Nat) (epoch : BitVec 16) (lost recal : W64) (s : State) : Host.Outcome State Fault Refusal :=
  onDev s (fun d => d.ctlArrive h (.switch set frame epoch.toNat lost recal) (fun d => d.takeSwitch set frame epoch.toNat lost recal))

/-- FAULT: the leader takes a report of a link or rank; other devices pass it on (R258, R260). -/
def execFault (h : CtlHead) (reporter link : Fin 64) (state : Fin 7) (lost : Option (Fin 64)) (s : State) : Host.Outcome State Fault Refusal :=
  onDev s (fun d => d.ctlToLeader h (.fault reporter link state (lost.map (·.val))) (fun d => d.takeFault reporter link state (lost.map (·.val))))

/-- A fence takes effect: its mask, the collectives with fenced members, and the leader's route set (R260, R263, R291). -/
def Dev.takeFence (d : Dev) (mask : W64) : Dev :=
  let new := (bitsOf 64 mask.toNat).filter (fun r => !d.rankFenced r)
  let d := d.regSet Reg.ONF_FENCE mask
  let d := d.smv.colls.keys.foldl (fun d g => d.smvFence g) d
  if d.leads then d.failed new [] else d

/-- FENCE_BROADCAST: a FENCE message sets the mask on every device (R263). -/
def execFenceBroadcast (h : CtlHead) (mask : W64) (s : State) : Host.Outcome State Fault Refusal :=
  onDev s (fun d => d.ctlArrive h (.fence mask) (fun d => d.takeFence mask))

/-- A write of ONF_FENCE: read-only but on the leader, which broadcasts it (R263, R267). -/
def Dev.fenceWrite (d : Dev) (w : W64) : Dev := if d.alive && d.leads then d.announce (.fence w) (fun d => d.takeFence w) else d

/-- ONF_FENCE_WRITE: a 64-bit write of ONF_FENCE. -/
def execOnfFenceWrite (w : W64) (s : State) : Host.Outcome State Fault Refusal := onDev s (fun d => d.fenceWrite w)

/-- A write of ONF_RECAL: each named link whose LAT_NOW + G is within P_MAX is recalibrated at the next switch (R257). -/
def Dev.recalWrite (d : Dev) (w : W64) : Dev :=
  if !d.alive then d
  else
    (bitsOf 64 w.toNat).foldl (fun d n =>
      if d.fget (Reg.ONF_LINKn_LAT_LAT_NOW n) + d.linkG n ≤ d.linkPMax n then d.updLink n (fun l => { l with recal := true })
      else d.post 0 .recalRefused 0 n) d

/-- ONF_RECAL: a 64-bit write of ONF_RECAL. -/
def execOnfRecal (w : W64) (s : State) : Host.Outcome State Fault Refusal := onDev s (fun d => d.recalWrite w)

/-- ROUTE_CMD_GO: a write of `w` to ONF_ROUTE_CMD; with GO set on the leader, SET is announced, and only what has failed at that
moment has to be avoided from then on (R260, R267). -/
def execRouteCmdGo (w : W32) (s : State) : Host.Outcome State Fault Refusal :=
  onDev s (fun d =>
    if !d.alive then d
    else
      let d := d.fset Reg.ONF_ROUTE_CMD_SET (w.toNat % 4)
      if !bitAt w.toNat 2 || !d.leads then d
      else
        let ranks := (bitsOf 64 (d.regGet Reg.ONF_LOST).toNat ++ bitsOf 64 (d.regGet Reg.ONF_FENCE).toNat).eraseDups
        (d.upOnf (fun o => { o with avoidRanks := ranks, avoidLinks := o.failedLinks })).announceSet (w.toNat % 4))

/-- SWITCH_FRAME: at the announced frame the route set and schedule change, and links named for recalibration take LAT_NOW as LAT0
(R254, R257). -/
def execSwitchFrame (s : State) : Host.Outcome State Fault Refusal :=
  onDev s (fun d =>
    match d.live, d.onf.switches with
    | true, x :: rest =>
      let d := d.upOnf (fun o => { o with switches := rest })
      let d := d.fset Reg.ONF_ROUTE_STATUS_ACTIVE_SET x.set
      let d := d.fset Reg.ONF_ROUTE_STATUS_SCHED_EPOCH ((d.fget Reg.ONF_ROUTE_STATUS_SCHED_EPOCH + 1) % 65536)
      let d := (d.fset Reg.ONF_ROUTE_STATUS_PENDING (b2n (!rest.isEmpty))).fset Reg.ONF_ROUTE_STATUS_NEXT_SET ((rest.head?.map (·.set)).getD x.set)
      let d := ((List.range 64).filter (fun n => (d.onfLink n).recal)).foldl (fun d n =>
        (((d.fset (Reg.ONF_LINKn_LAT_LAT0 n) (d.fget (Reg.ONF_LINKn_LAT_LAT_NOW n))).fset (Reg.ONF_LINKn_STATE_SLIP n) 0).updLink n
          (fun l => { l with recal := false }))) d
      let d := d.post 0 .routeSwitch 0 (x.set + x.frame % 2 ^ 32 * 2 ^ 16 + d.fget Reg.ONF_ROUTE_STATUS_SCHED_EPOCH * 2 ^ 48)
      d.releaseHeld.review
    | _, _ => d)

/-! ## Pod time and leadership (R247, R248, R251, R252) -/

/-- PODTIME: the leader's pod time reaches this device: it follows that leader as R248 says, aligns by the best copy, and passes the
broadcast on with its own pod time (R251). -/
def execPodtime (h : CtlHead) (leader : Fin 64) (time : W64) (frames : BitVec 16) (en : Bool) (hops : Nat) (s : State) :
    Host.Outcome State Fault Refusal :=
  onDev s (fun d =>
    let k := h.link.val
    match d.takeCell k h.hdr with
    | (d, false) => d
    | (d, true) =>
      if d.rankFenced (d.mapRank k) then d.finc Reg.ONF_FENCE_DROP_COUNT
      else
        let b := h.bseq.toNat
        let src := d.mapRank k
        let seen := d.onf.seen.contains (hdrSrc h.hdr, b)
        let again := match d.onf.lastPod with | some (x, _, _) => decide (x = b) | none => false
        let d :=
          if d.podtimeTaken leader && (if seen then again && d.podtimeBetter b hops src else true) then
            let d := (d.takeLeader leader true).alignTo k time
            d.upOnf (fun o => { o with lastPod := some (b, hops, src), claim := none, cmapFrames := max 16 frames.toNat, cmapEn := en })
          else d
        (d.relay k (hdrSrc h.hdr) b (.podtime leader time frames.toNat en (hops + 1))).1)

/-- CLAIM: the lowest rank that claims is remembered until the election closes (R248). -/
def execClaim (h : CtlHead) (rank : Fin 64) (s : State) : Host.Outcome State Fault Refusal :=
  onDev s (fun d => d.ctlArrive h (.claim rank) (fun d =>
    if d.onf.closed then d else d.upOnf (fun o => { o with claim := some (min (o.claim.getD 64) rank) })))

/-- PODTIME_SEND: every 16 frames the leader sends PODTIME with the congestion maps' interval and enable (R251, R266). -/
def execPodtimeSend (s : State) : Host.Outcome State Fault Refusal :=
  onDev s (fun d =>
    if !d.live || !d.leads then d
    else
      let d := d.upOnf (fun o => { o with cmapFrames := d.cmapFrames, cmapEn := d.fon Reg.ONF_CMAP_CTL_EN })
      d.broadcast (.podtime d.rank (d.regGet Reg.ONF_PODTIME) d.onf.cmapFrames d.onf.cmapEn 0))

/-- CLAIM_SEND: in every 16th frame a device whose strap is high claims, until its election closes or it hears a lower rank
(R248). -/
def execClaimSend (s : State) : Host.Outcome State Fault Refusal :=
  onDev s (fun d =>
    if !d.live || !d.fon Reg.GLB_STRAPS_LEADER || !d.committed || decide (d.imageLeader ≠ 0xFF) || !d.onf.upSeen || d.onf.closed || d.onf.follows ||
        decide (d.onf.claim.getD 64 < d.rank) then d
    else (d.upOnf (fun o => { o with claim := some d.rank })).broadcast (.claim d.rank))

/-- LEADER_SILENCE: 64 frames have passed without PODTIME: the first backup rank that is not lost leads (R247). -/
def execLeaderSilence (s : State) : Host.Outcome State Fault Refusal :=
  onDev s (fun d =>
    if !d.live || !d.committed || d.leads || !(d.onf.closed || d.onf.follows) then d
    else
      let bs := (listOf 4 (fun i => (d.sec secPodTopology).u8 (8 + i))).filter (fun r => decide (r < 64) && !d.rankLost r)
      match bs with
      | r :: _ => d.takeLeader r (decide (r ≠ d.rank))
      | [] => d)

/-- ELECTION_CLOSE: 1,024 frames after the first UP link the leader is settled: the image's, or the lowest rank that claimed, or
rank 0; a device that already follows a leader keeps it (R247, R248). -/
def execElectionClose (s : State) : Host.Outcome State Fault Refusal :=
  onDev s (fun d =>
    if !d.live || !d.committed || !d.onf.upSeen || d.onf.closed then d
    else
      let own := if d.fon Reg.GLB_STRAPS_LEADER then d.rank else 64
      let low := min own (d.onf.claim.getD 64)
      let lead := if d.imageLeader ≠ 0xFF then d.imageLeader else if low < 64 then low else 0
      let d := d.upOnf (fun o => { o with closed := true })
      if d.onf.follows then d else d.takeLeader lead false)

/-- FRAME_START: pod time reaches the next frame; the rate guard moves the frame start by at most 1 ns toward it, and a frame that
starts beyond ±8 slots is counted (R237, R238, R251, R252).  Links in training send IDENT, and the leader's first base goes out once
all its links are in service (R276). -/
def execFrameStart (s : State) : Host.Outcome State Fault Refusal :=
  onDev s (fun d =>
    if !d.live then d
    else
      let d := if d.frameAligned then d else d.finc Reg.ONF_ALIGN_ERR_COUNT
      let o := d.onf.offset
      let o : Int := if 0 < o then o - 1 else if o < 0 then o + 1 else o
      let d := (d.upOnf (fun x => { x with offset := o })).fset Reg.ONF_ALIGN_OFFSET (BitVec.ofInt 8 (max (-128) (min 127 o))).toNat
      let d := d.regSet Reg.ONF_PODTIME (BitVec.ofNat 64 ((d.podTime / 1024 + 1) * 1024))
      let d := ((List.range 64).filter (fun n => decide (d.linkState n = 1 ∨ d.linkState n = 2))).foldl (fun d n =>
        (d.emit (.ident n (d.ownIdent n))).showReason n true) d
      let used := (List.range 64).filter d.mapUsed
      if d.leads && !d.onf.baseSent && !used.isEmpty && used.all d.linkOpen then
        let b := d.fget Reg.SMV_SEQ_BASE_BASE
        (d.upOnf (fun x => { x with baseSent := true })).announce (.seqnum 2 0 0 0 (BitVec.ofNat 32 b) 0 d.rank) (fun d => d.smvBase true 0 b)
      else d)

/-! ## Congestion maps (R265, R266) -/

/-- CMAP: a part of a rank's record reaches the leader; other devices pass it on (R266). -/
def execCmap (h : CtlHead) (rank : Fin 64) (part : Fin 12) (data : BitVec 384) (s : State) : Host.Outcome State Fault Refusal :=
  onDev s (fun d => d.ctlToLeader h (.cmap rank part data) (fun d => d.cmapPart rank part data))

/-- CMAP_INTERVAL_END: an interval of FRAMES frames has ended: this device's record goes to the leader in 12 parts, or to the
leader's own ring (R265, R266). -/
def execCmapIntervalEnd (s : State) : Host.Outcome State Fault Refusal :=
  onDev s (fun d =>
    if !d.live || !d.committed || !(if d.leads then d.fon Reg.ONF_CMAP_CTL_EN else d.onf.cmapEn) then d
    else
      let bs := d.cmapRecord
      let d := { d with fresh := d.fresh + 64 }
      let d :=
        if d.leads then d.cmapWrite bs
        else (List.range 12).foldl (fun d i => d.toLeader d.rank (.cmap d.rank i (BitVec.ofNat 384 (leNat ((bs.drop (48 * i)).take 48))))) d
      d.upOnf (fun o => { o with interval := o.interval + 1, links := o.links.mapVal (fun _ l => { l with stalls := 0, replays := 0, slip := 0 }) }))

end Sys2Proof.Machine
end

