-- ==== Sys2Proof/Machine/SelfTest.lean ====
section
/-! DEFINITION. Self-test at power-on and in service (chapter 18). -/
namespace Sys2Proof.Machine
open Sys2Proof

/-! ## Power-on self-test (R557 to R561) -/

/-- The group that tests an element. -/
def elemGroup : BistElem → Nat
  | .d2dLane _ _ => 0
  | .bond c _ => if c.val < 16 then 1 else 2
  | .hbm _ _ => 3
  | .lp _ _ => 4
  | .onfLane _ => 5
  | .ethLane _ | .pcieLane _ _ => 6
  | .cmosBall _ | .onfBall _ _ | .ethBall _ _ | .pcieBall _ _ _ => 7

/-- ELEMENT of a failure code (R561). -/
def elemCode : BistElem → Nat
  | .d2dLane k lane => k * 256 + lane.toNat
  | .bond c g => c * 256 + g.toNat
  | .hbm h c => h * 16 + c
  | .lp m c => m * 4 + c
  | .onfLane l => l
  | .ethLane l => l
  | .pcieLane p l => 256 + 16 * p + l
  | .cmosBall b | .onfBall b _ | .ethBall b _ | .pcieBall b _ _ => b.toNat

/-- A failure code (R561). -/
def bistCode (group reason element : Nat) : Nat := group * 2 ^ 28 + reason * 2 ^ 24 + element

/-- A power-on failure: the first one is kept in `BST_FAIL_CODE` (R560). -/
def Dev.bistFailure (d : Dev) (code : Nat) : Dev :=
  if d.fon Reg.BST_POST_STATUS_FAIL then d else (d.fset Reg.BST_POST_STATUS_FAIL 1).fset Reg.BST_FAIL_CODE_CODE code

/-- An Onaud lane is bad: its link trains on 3 lanes, or is held DISABLED when two are (R559). -/
def Dev.onfLaneBad (d : Dev) (lane : Nat) : Dev :=
  let d := d.upBst (fun b => { b with onfBad := if b.onfBad.contains lane then b.onfBad else b.onfBad ++ [lane] })
  let n := lane / 4
  if 2 ≤ (d.bst.onfBad.filter (fun l => decide (l / 4 = n))).length then
    (d.fset (Reg.ONF_LINKn_CTL_DISABLE n) 1).setLinkState n 6
  else d

/-- An Ethernet lane is bad: every port using it is held DOWN. -/
def Dev.ethLaneBad (d : Dev) (lane : Nat) : Dev :=
  d.upBst (fun b => { b with ethBad := if b.ethBad.contains lane then b.ethBad else b.ethBad ++ [lane] })

/-- A PCIe lane is excluded; the power-on fails when P0.A can form no width. -/
def Dev.pcieLaneBad (d : Dev) (lane code : Nat) : Dev :=
  let d := d.upBst (fun b => { b with pcieBad := if b.pcieBad.contains lane then b.pcieBad else b.pcieBad ++ [lane] })
  if d.linkWidths 0 = [] then d.bistFailure code else d

/-- What a lasting failure of an element leads to (R559). -/
def Dev.elemFailed (d : Dev) (g : Nat) (f : BistFail) : Dev :=
  let code := bistCode g f.reason.toNat (elemCode f.elem)
  match f.elem with
  | .d2dLane k _ =>
    if d.fget (Reg.RAS_D2Dk_SPARES_USED k) < 2 then d.finc (Reg.RAS_D2Dk_SPARES_USED k)
    else
      let d := d.fenceUnit 2 (k % 4)
      if d.fget Reg.RAS_FENCED_DIE_DIES = 15 then d.bistFailure (bistCode g 8 (elemCode f.elem)) else d
  | .bond c _ => d.fenceUnit 1 c
  | .hbm _ _ | .lp _ _ | .cmosBall _ => d.bistFailure code
  | .onfLane l | .onfBall _ l => d.onfLaneBad l
  | .ethLane l | .ethBall _ l => d.ethLaneBad l
  | .pcieLane p l | .pcieBall _ p l => d.pcieLaneBad (16 * p + l) (bistCode g 7 (elemCode f.elem))

/-- Add one to a field, up to its largest value. -/
def Dev.fincSat (d : Dev) (f : RegField) (top : Nat) : Dev := if d.fget f < top then d.finc f else d

/-- BIST_GROUP_START: a group starts in its turn, once step 2 of R552 has ended and unless a power-on failure has been found (R557,
R560). -/
def execBistGroupStart (g : Fin 8) (s : State) : Host.Outcome State Fault Refusal :=
  onDev s (fun d =>
    let turn := decide (g.val = 0) || d.bst.started.getLsbD (g.val - 1)
    if !d.pw.cold && d.pw.kettle && !d.pw.initDone && turn && !d.fon Reg.BST_POST_STATUS_FAIL then
      d.upBst (fun b => { b with started := b.started ||| BitVec.ofNat 8 (2 ^ g.val) })
    else d)

/-- Self-test has ended: every group, or every one started when the power-on fails (R560). -/
def Dev.bistSettle (d : Dev) : Dev :=
  if d.fon Reg.BST_POST_STATUS_FAIL then
    if d.bst.ended = d.bst.started then
      let old := d.deviceState
      ((d.fset Reg.BST_POST_STATUS_DONE 1).upPw (fun p => { p with bistFail := true })).noteState 168 old
    else d
  else if d.bst.ended = 0xFF then d.fset Reg.BST_POST_STATUS_DONE 1
  else d

/-- A power-on group tests an element: every one but the PCIe lanes of a link that stays up through a warm reset (R549). -/
def Dev.bistTests (d : Dev) (g : Nat) (e : BistElem) : Bool :=
  decide (elemGroup e = g) &&
  (match e with
   | .pcieLane p l => !d.linkUp (2 * p.val + (if d.pw.straps.split.getLsbD p.val && decide (8 ≤ l.val) then 1 else 0))
   | _ => true)

/-- BIST_GROUP_DONE: a group ends after `us` µs; `fails` holds its elements that failed their first test (R559, R566). -/
def execBistGroupDone (g : Fin 8) (fails : List BistFail) (us : BitVec 16) (s : State) : Host.Outcome State Fault Refusal :=
  onDev s (fun d =>
    if d.bst.started.getLsbD g = false ∨ d.bst.ended.getLsbD g = true ∨ d.pw.initDone = true then d
    else
      let own := fails.filter (fun f => d.bistTests g.val f.elem)
      let d := own.foldl (fun d f =>
        if f.lasting then (d.fincSat (Reg.BST_GROUPg_LASTING g) 255).elemFailed g f
        else (d.fincSat (Reg.BST_GROUPg_TRANSIENT g) 255).finc Reg.BST_TRANSIENT_COUNT) d
      let d := d.fset (Reg.BST_GROUPg_TIME_US g) us.toNat
      let d := if own.any (·.lasting) then d else d.forb Reg.BST_POST_STATUS_PASSED (2 ^ g.val)
      (d.upBst (fun b => { b with ended := b.ended ||| BitVec.ofNat 8 (2 ^ g.val) })).bistSettle)

/-! ## In-service tests (R562 to R565) -/

/-- An in-service command is refused, and changes nothing. -/
def Dev.svcRefuse (d : Dev) : Dev := d.fset Reg.BST_SVC_STATUS_STATUS Status.accessError.code

/-- An in-service test starts. -/
def Dev.svcStart (d : Dev) (kind index : Nat) (stage : SvcStage) : Dev :=
  (d.fset Reg.BST_SVC_STATUS_BUSY 1).upBst (fun b => { b with svc := some ⟨kind, index, stage, 0⟩ })

/-- An in-service test ends: its status, its result and BST_DONE (R565). -/
def Dev.svcDone (d : Dev) (t : SvcTest) (st : Status) (result : Nat) : Dev :=
  let d := d.upBst (fun b => { b with svc := none })
  let d := ((d.fset Reg.BST_SVC_STATUS_BUSY 0).fset Reg.BST_SVC_STATUS_STATUS st.code).fset Reg.BST_SVC_STATUS_RESULT result
  d.post 0 (.other 0x3F) st.code (t.kind + t.index * 2 ^ 16 + result * 2 ^ 32)

/-- A BST_SVC_CMD command. -/
def svcCmd (s : State) (f : Dev → Dev) : Host.Outcome State Fault Refusal :=
  onDev s (fun d => d.command Reg.BST_SVC_STATUS_BUSY Reg.BST_SVC_STATUS_CMD_ERR f)

/-- A STATIC slot of the active schedule, transit slots included, lies on a link. -/
def Dev.staticOn (d : Dev) (n : Nat) : Bool :=
  decide ((d.sec secOnaudSchedule).len ≠ 0) && (List.range 1024).any (fun k => decide (d.slotEntry d.activeSet n k / 2 ^ 14 = 0))

/-- An Onaud link is idle (R562). -/
def Dev.svcLinkIdle (d : Dev) (n : Nat) : Bool :=
  decide (n < 64) && decide (d.linkState n = 3 ∨ d.linkState n = 4) && !d.staticOn n && decide (d.onf.switches = []) &&
  (d.bundle (d.mapRank n)).any (fun k => decide (k ≠ n) && decide (d.linkState k = 3))

/-- SVC_ONAUD_LINK: BST_SVC_CMD kind 1 withdraws an idle Onaud link from its bundle for a test (R562, R563). -/
def execSvcOnaudLink (index : BitVec 16) (s : State) : Host.Outcome State Fault Refusal :=
  svcCmd s (fun d =>
    if d.svcLinkIdle index.toNat then (d.updLink index.toNat (fun l => { l with testing := true })).svcStart 1 index.toNat .quiet
    else d.svcRefuse)

/-- SVC_D2D_SPARES: BST_SVC_CMD kind 2 tests the spare lanes of a die-to-die link (R562). -/
def execSvcD2dSpares (index : BitVec 16) (s : State) : Host.Outcome State Fault Refusal :=
  svcCmd s (fun d => if index.toNat < 8 then d.svcStart 2 index.toNat .prbs else d.svcRefuse)

/-- SVC_ETH_PORT: BST_SVC_CMD kind 3 tests an Ethernet port that is DOWN (R562). -/
def execSvcEthPort (index : BitVec 16) (s : State) : Host.Outcome State Fault Refusal :=
  svcCmd s (fun d =>
    if index.toNat < 32 ∧ d.portExists index.toNat = true ∧ d.portState index.toNat = 1 then d.svcStart 3 index.toNat .prbs else d.svcRefuse)

/-- The in-service test of an Onaud link in a stage. -/
def Dev.svcLink (d : Dev) (n : Nat) (stage : SvcStage) : Option SvcTest :=
  d.bst.svc.filter (fun t => decide (t.kind = 1) && decide (t.index = n) && decide (t.stage = stage))

/-- A link is quiet: nothing waits or awaits an acknowledgement, and every credit has come back. -/
def Dev.linkQuiet (d : Dev) (n : Nat) : Bool :=
  let l := d.onfLink n
  d.linkOpen n && decide (l.replay = []) && decide (l.queue = []) && (List.range 5).all (fun c => decide (l.credits.get 512 c = 512))

/-- LINK_QUIET: the link under test has become quiet: its state is saved and its test runs in DISABLED (R563, step 3). -/
def execLinkQuiet (n : Fin 64) (s : State) : Host.Outcome State Fault Refusal :=
  onDev s (fun d =>
    match d.svcLink n .quiet with
    | some t =>
      if d.running = true ∧ d.linkQuiet n = true then
        let l := d.onfLink n
        let save : LinkSave := ⟨l.txSeq, l.rxSeq, l.credits, d.fget (Reg.ONF_LINKn_LAT_LAT0 n)⟩
        ((d.updLink n (fun l => { l with saved := some save })).setLinkState n 6).upBst (fun b => { b with svc := some { t with stage := .prbs } })
      else d
    | none => d)

/-- QUIET_TIMEOUT: the link under test has not become quiet within 1 ms; it returns to its bundle (R563, step 2). -/
def execQuietTimeout (n : Fin 64) (s : State) : Host.Outcome State Fault Refusal :=
  onDev s (fun d =>
    match d.svcLink n .quiet with
    | some t =>
      if d.running then ((d.updLink n (fun l => { l with testing := false })).svcDone t .accessError 0).releaseHeld else d
    | none => d)

/-- The record of severity 4 of a lasting in-service failure; R509 gives no UNIT for an Onaud or Ethernet lane, so UNIT, LOCATION and
DETAIL are free values for those (R564; log entry 4). -/
def Dev.svcRecord (d : Dev) (t : SvcTest) (lane : Nat) : Dev :=
  if t.kind = 2 then d.rasRecord { sev := 4, unit := 9, action := 0, status := 0, loc := t.index, detail := lane }
  else
    (d.rasRecord { sev := 4, unit := (Config.freeValue 8 d.fresh).toNat, action := 0, status := 0,
                   loc := (Config.freeValue 64 (d.fresh + 1)).toNat, detail := (Config.freeValue 64 (d.fresh + 2)).toNat }).bump.bump.bump

/-- GROUP and ELEMENT of an in-service failure's code. -/
def svcCode (t : SvcTest) (reason lane : Nat) : Nat :=
  match t.kind with
  | 1 => bistCode 5 reason (4 * t.index + lane)
  | 2 => bistCode 0 reason (256 * t.index + lane)
  | _ => bistCode 6 reason (t.index + lane)

/-- A lasting in-service failure of lanes (those of a mask, from the element's first): its record and code, and the element's disabled
state (R564). -/
def Dev.svcLasting (d : Dev) (t : SvcTest) (reason bad : Nat) : Dev :=
  let lane := (lowBit 32 bad).getD 0
  let d := (d.svcRecord t lane).fset Reg.BST_SVC_CODE_CODE (svcCode t reason lane)
  match t.kind with
  | 1 =>
    let d := d.fset (Reg.ONF_LINKn_CTL_DISABLE t.index) 1
    let cells := (d.onfLink t.index).queue
    let d := d.updLink t.index (fun l => { l with testing := false, saved := none, queue := [] })
    (cells.foldl (fun d c => d.requeue c) d).report t.index 0 none
  | 2 => d.upRas (fun r => { r with badSpares := r.badSpares.set t.index (min 2 (r.badSpares.get 0 t.index + popBits 32 bad)) })
  | _ => (List.range 32).foldl (fun d i => if bad.testBit i then d.ethLaneBad (t.index + i) else d) d

/-- PRBS_DONE: the test's time is over; `first` and `again` name the lanes that failed its first run, and its second (R559, R563,
R564).  A link that passes trains again; the other tests end. -/
def execPrbsDone (first again : BitVec 32) (reason : BitVec 4) (s : State) : Host.Outcome State Fault Refusal :=
  onDev s (fun d =>
    match d.bst.svc with
    | none => d
    | some t =>
      if d.running = false ∨ t.stage ≠ .prbs then d
      else
        let bad := (again &&& first).toNat
        let trans := popBits 32 (first &&& ~~~again).toNat
        let result := if bad ≠ 0 then 2 else if first ≠ 0 then 1 else 0
        let d := d.fadd Reg.BST_TRANSIENT_COUNT trans
        if bad ≠ 0 then (d.svcLasting t reason.toNat bad).svcDone t .ok 2
        else if t.kind = 1 then
          (d.setLinkState t.index 1).upBst (fun b => { b with svc := some { t with stage := .restore, result := result } })
        else d.svcDone t .ok result)

/-- SVC_RESTORE_DONE: training after a passed test has ended with these good lanes and a calibrated latency; the link resumes where it
was and rejoins its bundle, goes DOWN when training failed, or is held DISABLED when software asked for that meanwhile (R563,
R565). -/
def execSvcRestoreDone (n : Fin 64) (lanes : BitVec 4) (lat : BitVec 8) (ok : Bool) (s : State) : Host.Outcome State Fault Refusal :=
  onDev s (fun d =>
    match d.svcLink n .restore with
    | none => d
    | some t =>
      if d.running = false then d
      else
        let good := popBits 4 (d.goodLanes n lanes).toNat
        let l := d.onfLink n
        let d := d.fset (Reg.ONF_LINKn_STATE_LANES n) (d.goodLanes n lanes).toNat
        let d := d.updLink n (fun l => { l with testing := false, saved := none })
        let d :=
          if d.fon (Reg.ONF_LINKn_CTL_DISABLE n) then d.linkOut n 6
          else if ok = false ∨ good < 3 then (d.linkOut n 0).report n 0 none
          else
            let d := match l.saved with
              | some v => (d.updLink n (fun l => { l with txSeq := v.txSeq, rxSeq := v.rxSeq, credits := v.credits })).fset (Reg.ONF_LINKn_LAT_LAT0 n) v.lat0
              | none => d
            let d := (d.fset (Reg.ONF_LINKn_LAT_LAT_NOW n) lat.toNat).setLinkState n (if good = 4 then 3 else 4)
            (d.pump n ((d.onfLink n).queue.length)).releaseHeld
        d.svcDone t .ok t.result)

/-- STANDBY or a reset abandons an in-service test; only STANDBY posts BST_DONE (R565). -/
def Dev.svcAbandon (d : Dev) : Dev :=
  match d.bst.svc with
  | none => d
  | some t =>
    let d := if t.kind = 1 then d.updLink t.index (fun l => { l with testing := false, saved := none }) else d
    d.svcDone t .flushed t.result

end Sys2Proof.Machine
end

