-- ==== Sys2Proof/Machine/TrustRows.lean ====
section
/-! DEFINITION. SEC: anti-rollback, debug tokens, the owner key and the SPDM responder (chapter 15). -/
namespace Sys2Proof.Machine
open Sys2Proof

/-- A SEC command, which STANDBY accepts too (R545). -/
def onSec (s : State) (f : Dev → Dev) : Host.Outcome State Fault Refusal :=
  onDev s (fun d => if !d.alive then d else if d.fon Reg.SEC_CMD_STATUS_BUSY then d.fset Reg.SEC_CMD_STATUS_CMD_ERR 1 else f d)

/-- Report the outcome of a SEC command. -/
def Dev.secStatus (d : Dev) (st : Status) : Dev := (d.fset Reg.SEC_CMD_STATUS_STATUS st.code).fset Reg.SEC_CMD_STATUS_BUSY 0

/-! ## Anti-rollback (R491, R492) -/

/-- An advance has ended (R492, R502). -/
def Dev.rollbackDone (d : Dev) (st : Status) : Dev :=
  ((d.upTr (fun t => { t with blow := none })).secStatus st).post 0 (.other 0x3C) st.code d.rollback

/-- ADVANCE_ROLLBACK: blows fuses up to target V, or refuses (R492). -/
def execAdvanceRollback (v : BitVec 7) (s : State) : Host.Outcome State Fault Refusal :=
  onSec s (fun d =>
    let st := d.fget Reg.IMG_STATUS_STATE
    if v.toNat ≤ d.rollback then d.rollbackDone .ok
    else if !d.committed || decide (d.fget Reg.GLB_IMAGE_INFO_SECURITY_VERSION < v.toNat) || decide (64 < v.toNat) || decide (1 ≤ st ∧ st ≤ 4) then
      d.rollbackDone .accessError
    else (d.fset Reg.SEC_CMD_STATUS_BUSY 1).upTr (fun t => { t with blow := some (d.rollback, v.toNat, false) }))

/-- FUSE_BLOW_DONE: the fuse being blown has been read back; `blown` is what it reads (R492). -/
def execFuseBlowDone (blown : Bool) (s : State) : Host.Outcome State Fault Refusal :=
  onDev s (fun d =>
    match d.alive, d.tr.blow with
    | true, some (i, v, second) =>
      if blown then
        let d := d.upTr (fun t => { t with fuses := t.fuses ||| BitVec.ofNat 64 (2 ^ i), blow := some (i + 1, v, false) })
        let d := d.fset Reg.SEC_ROLLBACK_COUNT d.rollback
        if i + 1 < v then d else d.rollbackDone .ok
      else if second then d.rollbackDone .uncorrectable
      else d.upTr (fun t => { t with blow := some (i, v, true) })
    | _, _ => d)

/-! ## Debug and the owner key (R494, R500) -/

/-- The body of a debug token is in order. -/
def tokenBodyOk (b : List Byte) : Bool :=
  decide (leNat (b.take 4) = 0x4E4B5444) && decide (leNat ((b.drop 4).take 1) = 1 ∨ leNat ((b.drop 4).take 1) = 2) &&
    decide (leNat ((b.drop 5).take 3) = 0) && decide (leNat ((b.drop 0x30).take 16) = 0)

/-- The status of a debug token (R500). -/
def Dev.tokenStatus (d : Dev) (rd : HostRead) : Status × Nat :=
  if d.committed then (.accessError, 0)
  else
    match rd with
    | .lost => (.hostLost, 0)
    | .poisoned => (.uncorrectable, 0)
    | .ok bs =>
      let t := sliceOf bs 0 7920
      let body := t.take 64
      if !tokenBodyOk body then (.malformed, 0)
      else if !debugPkOk || !Config.slhVerify Config.debugPk body (t.drop 64) then (.authFail, 0)
      else if leNat ((body.drop 8).take 8) ≠ (d.regGet Reg.SEC_DEBUG_NONCE).toNat ∨ leNat ((body.drop 0x10).take 32) ≠ devidHash.toNat then (.accessError, 0)
      else (.ok, leNat ((body.drop 4).take 1))

/-- DEBUG_TOKEN: a token is checked and sets the debug level; a new nonce is drawn either way (R500, R502).  `rd` is what the read of
the token brought; the nonce is a free value (log entry 4). -/
def execDebugToken (rd : HostRead) (s : State) : Host.Outcome State Fault Refusal :=
  onSec s (fun d =>
    let r := d.tokenStatus (if d.linkUp 0 then rd else .lost)
    let d := (d.regSet Reg.SEC_DEBUG_NONCE (Config.freeValue 64 d.fresh)).bump
    let d :=
      if r.1 = .ok then ((d.fset Reg.SEC_DEBUG_LEVEL r.2).upTr (fun t => { t with token := true })).post 0 (.other 0x3D) 0 r.2 else d
    d.secStatus r.1)

/-- PROGRAM_OWNER_KEY: blows 32 bytes into OWNER_KEY, once (R494); `rd` is what the read of the buffer brought. -/
def execProgramOwnerKey (rd : HostRead) (s : State) : Host.Outcome State Fault Refusal :=
  onSec s (fun d =>
    if d.ownerSet then d.secStatus .accessError
    else
      match (if d.linkUp 0 then rd else .lost) with
      | .lost => d.secStatus .hostLost
      | .poisoned => d.secStatus .uncorrectable
      | .ok bs =>
        let d := d.upTr (fun t => { t with owner := some (BitVec.ofNat 256 (leNat (sliceOf bs 0 32))) })
        (d.fset Reg.SEC_STATUS_OWNER_SET 1).secStatus .ok)

/-- ALIAS_CERT_DONE: the alias key pair and its certificate are ready (R495). -/
def execAliasCertDone (s : State) : Host.Outcome State Fault Refusal :=
  onDev s (fun d => if d.pw.cold then d else d.upTr (fun t => { t with aliasBusy := false }))

/-! ## SPDM (R496 to R498) -/

/-- A transport reaches the responder: DOE through P0.A, MCTP whenever cold reset is not held (R301, R597). -/
def Dev.spdmUp (d : Dev) (mctp : Bool) : Bool := if mctp then d.mgtUp else d.alive && d.linkUp 0

/-- Send a response; MGT_REQ_COUNT counts those over MCTP (R592). -/
def Dev.spdmSend (d : Dev) (mctp : Bool) (r : SpdmRsp) : Dev :=
  (if mctp then d.finc Reg.MGT_REQ_COUNT_COUNT else d).emit (.spdm mctp r)

/-- The state of a transport's connection. -/
def Dev.spdmState (d : Dev) (mctp : Bool) : Nat := if mctp then d.tr.mctp else d.tr.doe

/-- Set it. -/
def Dev.spdmSet (d : Dev) (mctp : Bool) (n : Nat) : Dev := d.upTr (fun t => if mctp then { t with mctp := n } else { t with doe := n })

/-- Answer a request in a connection that has got far enough; an earlier one receives ERROR UnexpectedRequest (PRESUMED, the SPDM
standard; log entry 42). -/
def onSpdm (mctp : Bool) (need : Nat) (s : State) (f : Dev → Dev) : Host.Outcome State Fault Refusal :=
  onDev s (fun d => if !d.spdmUp mctp then d else if d.spdmState mctp < need then d.spdmSend mctp (.error 4) else f d)

/-- GET_VERSION: version 1.3; the connection starts again. -/
def execGetVersion (mctp : Bool) (s : State) : Host.Outcome State Fault Refusal :=
  onSpdm mctp 0 s (fun d => (d.spdmSet mctp 1).spdmSend mctp .version)

/-- GET_CAPABILITIES. -/
def execGetCapabilities (mctp : Bool) (s : State) : Host.Outcome State Fault Refusal :=
  onSpdm mctp 1 s (fun d => (d.spdmSet mctp (max 2 (d.spdmState mctp))).spdmSend mctp (.capabilities 16))

/-- NEGOTIATE_ALGORITHMS. -/
def execNegotiateAlgorithms (mctp : Bool) (s : State) : Host.Outcome State Fault Refusal :=
  onSpdm mctp 2 s (fun d => (d.spdmSet mctp 3).spdmSend mctp (.algorithms 0x1E7B 1))

/-- GET_DIGESTS: slot 0 only. -/
def execGetDigests (mctp : Bool) (s : State) : Host.Outcome State Fault Refusal :=
  onSpdm mctp 3 s (fun d => d.spdmSend mctp (.digests (sha256 d.certChain)))

/-- GET_CERTIFICATE: a part of the chain of slot 0; another slot or an offset past the chain receives ERROR InvalidRequest (PRESUMED,
log entry 42). -/
def execGetCertificate (mctp : Bool) (slot : BitVec 8) (off len : BitVec 16) (s : State) : Host.Outcome State Fault Refusal :=
  onSpdm mctp 3 s (fun d =>
    let c := d.certChain
    if slot ≠ 0 ∨ c.length ≤ off.toNat then d.spdmSend mctp (.error 1)
    else d.spdmSend mctp (.certificate ((c.drop off.toNat).take len.toNat) (c.length - (off.toNat + len.toNat))))

/-- The signing engine is free, and the alias key pair is there (R498). -/
def Dev.canSign (d : Dev) : Bool := d.tr.signing.isNone && !d.tr.aliasBusy

/-- CHALLENGE: the signing engine starts, or the request receives ERROR Busy. -/
def execChallenge (mctp : Bool) (slot : BitVec 8) (summary : Bool) (nonce : BitVec 256) (s : State) : Host.Outcome State Fault Refusal :=
  onSpdm mctp 3 s (fun d =>
    if slot ≠ 0 then d.spdmSend mctp (.error 1)
    else if !d.canSign then d.spdmSend mctp (.error 3)
    else d.upTr (fun t => { t with signing := some (.challenge mctp summary nonce) }))

/-- A measurement block: its index, value type and value (R496). -/
def Dev.block (d : Dev) (i : Nat) : Nat × Nat × List Byte :=
  if i = 1 then (1, 0x00, d.m1) else if i = 2 then (2, 0x01, d.tr.m2) else if i = 3 then (3, 0x03, d.tr.m3) else if i = 4 then (4, 0x05, d.tr.m4)
  else (5, 0x01, d.tr.m5)

/-- The blocks that an index asks for: one, all (0xFF), or only their number (0). -/
def Dev.blocks (d : Dev) (i : Nat) : List (Nat × Nat × List Byte) := if i = 0 then [] else if i = 0xFF then [1, 2, 3, 4, 5].map d.block else [d.block i]

/-- GET_MEASUREMENTS: blocks 1 to 5, one, all or their number; the signing engine starts when a signature is asked for. -/
def execGetMeasurements (mctp : Bool) (index : BitVec 8) (signed : Bool) (nonce : BitVec 256) (s : State) : Host.Outcome State Fault Refusal :=
  onSpdm mctp 3 s (fun d =>
    let i := index.toNat
    if 5 < i ∧ i ≠ 0xFF then d.spdmSend mctp (.error 1)
    else if !signed then d.spdmSend mctp (.measurements 5 (d.blocks i) none)
    else if !d.canSign then d.spdmSend mctp (.error 3)
    else d.upTr (fun t => { t with signing := some (.measurements mctp (d.blocks i) nonce) }))

/-- UNSUPPORTED_SPDM_REQUEST: any other request receives ERROR UnsupportedRequest. -/
def execUnsupportedSpdmRequest (mctp : Bool) (s : State) : Host.Outcome State Fault Refusal :=
  onSpdm mctp 0 s (fun d => d.spdmSend mctp (.error 7))

/-- SIGNATURE_DONE: the signing engine finishes, and the signed response is sent (R498). -/
def execSignatureDone (s : State) : Host.Outcome State Fault Refusal :=
  onDev s (fun d =>
    match d.pw.cold, d.tr.signing with
    | false, some r =>
      let d := d.upTr (fun t => { t with signing := none })
      match r with
      | .challenge mctp summary nonce =>
        let sum := if summary then some (sha256 ((d.blocks 0xFF).flatMap (fun b => b.2.2))) else none
        d.spdmSend mctp (.challengeAuth d.aliasPk nonce (sha256 d.certChain) sum)
      | .measurements mctp blocks nonce => d.spdmSend mctp (.measurements 5 blocks (some (d.aliasPk, nonce)))
    | _, _ => d)

end Sys2Proof.Machine
end

