-- ==== Sys2Proof/Machine/VfmRows.lean ====
section
/-! DEFINITION. Functions, mailboxes and migration: the commands of chapter 13. -/
namespace Sys2Proof.Machine
open Sys2Proof

/-! ## Mailboxes -/

/-- FN_MBOX_SEND: a function writes SEND: PF0 gets MBOX_RX and bit f of VFM_MBOX_PEND; while the mailbox is busy or closed it is
dropped and counted (R449, R450). -/
def execFnMboxSend (fn : Fin 264) (s : State) : Host.Outcome State Fault Refusal :=
  onDev s (fun d =>
    let f := fn.val
    if !d.alive || !d.vfmFn f then d
    else if !d.mboxOpen f || d.fon (Reg.VFM_FNf_MBOX_CTL_FROM_FULL f) then
      d.upVf (fun v => { v with selfDrop := v.selfDrop.upd 0 f (fun n => (n + 1) % 2 ^ 32) })
    else
      let d := (d.fset (Reg.VFM_FNf_MBOX_CTL_FROM_FULL f) 1).forb (Reg.VFM_MBOX_PENDi_PEND (f / 32)) (2 ^ (f % 32))
      d.post 0 (.other 0x30) 0 f)

/-- FN_MBOX_ACK: a function takes its IN message, and PF0 gets MBOX_ACK. -/
def execFnMboxAck (fn : Fin 264) (s : State) : Host.Outcome State Fault Refusal :=
  onDev s (fun d =>
    let f := fn.val
    if d.alive && d.vfmFn f && d.fon (Reg.VFM_FNf_MBOX_CTL_TO_BUSY f) then
      (d.fset (Reg.VFM_FNf_MBOX_CTL_TO_BUSY f) 0).post 0 (.other 0x31) 0 f
    else d)

/-- PF0_MBOX_SEND: PF0 sends `VFM_FNf_TO`: SEND_REJECT for a function that is DISABLED, DRAINING or RESTORING, CMD_ERR while busy
(R450). -/
def execPf0MboxSend (fn : Fin 264) (s : State) : Host.Outcome State Fault Refusal :=
  onDev s (fun d =>
    let f := fn.val
    if !d.alive || !d.vfmFn f then d
    else if !d.mboxOpen f then d.fset (Reg.VFM_FNf_MBOX_CTL_SEND_REJECT f) 1
    else if d.fon (Reg.VFM_FNf_MBOX_CTL_TO_BUSY f) then d.fset Reg.VFM_CMD_STATUS_CMD_ERR 1
    else (d.fset (Reg.VFM_FNf_MBOX_CTL_TO_BUSY f) 1).post f (.other 0x30) 0 f)

/-- PF0_MBOX_ACK: PF0 takes the function's message, and the function gets MBOX_ACK. -/
def execPf0MboxAck (fn : Fin 264) (s : State) : Host.Outcome State Fault Refusal :=
  onDev s (fun d =>
    let f := fn.val
    if d.alive && d.vfmFn f && d.fon (Reg.VFM_FNf_MBOX_CTL_FROM_FULL f) then
      let d := (d.fset (Reg.VFM_FNf_MBOX_CTL_FROM_FULL f) 0).fclr (Reg.VFM_MBOX_PENDi_PEND (f / 32)) (2 ^ (f % 32))
      d.post f (.other 0x31) 0 f
    else d)

/-! ## Enabling and draining -/

/-- ENABLE: a bound function; a VF also needs VF Enable and NumVFs. One that drains is refused with FN_ENABLE_REJECT (R453, R456). -/
def execEnable (target : BitVec 9) (s : State) : Host.Outcome State Fault Refusal :=
  vfmCmd s (fun d =>
    let f := target.toNat
    if !d.vfmFn f then d.vfmStatus .accessError
    else if d.fnState f = 2 then
      let d := ((d.vfmStatus .accessError).finc Reg.VFM_ENABLE_REJECT_COUNT).fset (Reg.VFM_FNf_MBOX_CTL_ENABLE_REJECT f) 1
      d.post 0 (.other 0x35) 0 f
    else if (d.fnPart f).isNone ∨ (isVf f = true ∧ (d.vf.vfEnable = false ∨ d.vf.numVfs < f)) then d.vfmStatus .accessError
    else if d.fnState f ≤ 1 then (d.fnSet f 1).vfmStatus .ok
    else d.vfmStatus .accessError)

/-- DISABLE: starts the drain of a function toward DISABLED; during RESTORING it sets CMD_ERR (R454, R456). -/
def execDisable (target : BitVec 9) (s : State) : Host.Outcome State Fault Refusal :=
  vfmCmd s (fun d =>
    let f := target.toNat
    if !d.vfmFn f then d.vfmStatus .accessError
    else if d.fnState f = 5 then d.fset Reg.VFM_CMD_STATUS_CMD_ERR 1
    else if d.fnState f = 0 ∨ d.fnState f = 2 then d.vfmStatus .ok
    else (d.startDrain f false).vfmStatus .ok)

/-- FLR: the function-level reset of a VF or data-only PF (R454). -/
def execFlr (fn : Fin 264) (s : State) : Host.Outcome State Fault Refusal :=
  onDev s (fun d =>
    let st := d.fnState fn.val
    if d.alive = true ∧ d.vfmFn fn.val = true ∧ (st = 1 ∨ st = 3 ∨ st = 4) then d.startDrain fn.val true else d)

/-- VF_ENABLE_SET: software sets VF Enable and NumVFs (R453). -/
def execVfEnableSet (num : Fin 256) (s : State) : Host.Outcome State Fault Refusal :=
  onDev s (fun d => if d.alive then d.upVf (fun v => { v with vfEnable := true, numVfs := num.val }) else d)

/-- Disable every VF that is not DISABLED or DRAINING (R453). -/
def Dev.disableVfs (d : Dev) : Dev :=
  (List.range 256).foldl (fun d f => if isVf f = true ∧ d.fnState f ≠ 0 ∧ d.fnState f ≠ 2 then d.startDrain f false else d)
    (d.upVf (fun v => { v with vfEnable := false }))

/-- VF_ENABLE_CLEAR: clearing VF Enable disables every VF (R453). -/
def execVfEnableClear (s : State) : Host.Outcome State Fault Refusal :=
  onDev s (fun d => if d.alive then d.disableVfs else d)

/-- FN_DRAIN_DONE: a function's drain completes (R454). -/
def execFnDrainDone (fn : Fin 264) (s : State) : Host.Outcome State Fault Refusal :=
  onDev s (fun d => if d.alive = true ∧ d.vfmFn fn.val = true ∧ d.fnState fn.val = 2 then d.finishDrain fn.val else d)

/-- DRAIN_STUCK: the drain has not completed in 100,000 µs; the units still outstanding are a free value (R455; log entry 4). -/
def execDrainStuck (fn : Fin 264) (s : State) : Host.Outcome State Fault Refusal :=
  onDev s (fun d =>
    let f := fn.val
    if d.alive = true ∧ d.vfmFn f = true ∧ d.fnState f = 2 ∧ d.fon (Reg.VFM_FNf_STATE_DRAIN_STUCK f) = false then
      let units := (Config.freeValue 32 d.fresh).toNat
      let d := (d.bump.fset (Reg.VFM_FNf_DRAIN_US_US f) 100000).fset (Reg.VFM_FNf_STATE_DRAIN_STUCK f) 1
      d.post 0 (.other 0x34) 0 (f + units * 2 ^ 32)
    else d)

/-- FORCE_CLEAR: completes a stuck drain at once; in any other state it sets CMD_ERR (R455). -/
def execForceClear (target : BitVec 9) (s : State) : Host.Outcome State Fault Refusal :=
  vfmCmd s (fun d =>
    let f := target.toNat
    if d.vfmFn f = true ∧ d.fnState f = 2 ∧ d.fon (Reg.VFM_FNf_STATE_DRAIN_STUCK f) = true then
      ((d.endContexts f .flushed).finishDrain f).vfmStatus .ok
    else d.fset Reg.VFM_CMD_STATUS_CMD_ERR 1)

/-! ## Migration -/

/-- FREEZE: an ENABLED VF becomes FREEZING; each of its queue pairs remembers its state (R457). -/
def execFreeze (target : BitVec 9) (s : State) : Host.Outcome State Fault Refusal :=
  vfmCmd s (fun d =>
    let f := target.toNat
    if isVf f = true ∧ d.fnState f = 1 then
      let d := d.upQpe (fun x => { x with qps := x.qps.mapVal (fun _ q => if q.fn = f then { q with frozen := q.state } else q) })
      (d.fnSet f 3).vfmStatus .ok
    else d.vfmStatus .accessError)

/-- FREEZE_DONE: nothing of the VF remains outstanding; its queue pairs and it become FROZEN (R457). -/
def execFreezeDone (fn : Fin 264) (s : State) : Host.Outcome State Fault Refusal :=
  onDev s (fun d =>
    let f := fn.val
    if d.live = true ∧ isVf f = true ∧ d.fnState f = 3 ∧ d.fnQuiet f = true then
      let d := d.upQpe (fun x =>
        { x with qps := x.qps.mapVal (fun _ q => if q.fn = f then { (q.put 0 1 5) with frozen := q.state } else q) })
      ((d.fnSet f 4).vfmStatus .ok).fnCmdDone f 3 .ok 0
    else d)

/-- CANCEL: a FREEZING VF returns to service, and FREEZE completes with FLUSHED (R457). -/
def execCancel (target : BitVec 9) (s : State) : Host.Outcome State Fault Refusal :=
  vfmCmd s (fun d =>
    let f := target.toNat
    if isVf f = true ∧ d.fnState f = 3 then
      let d := ((d.fnSet f 1).fnCmdDone f 3 .flushed 0).vfmStatus .ok
      (d.fnQueues f).foldl (fun d p => d.wqSettle p.1 65537) d
    else d.vfmStatus .accessError)

/-- SAVE: a FROZEN VF's state image goes to VFM_IMG_ADDR (R459, R460). -/
def execSave (target : BitVec 9) (s : State) : Host.Outcome State Fault Refusal :=
  vfmCmd s (fun d =>
    let f := target.toNat
    if isVf f = false ∨ d.fnState f ≠ 4 then d.vfmStatus .accessError
    else
      let size := d.vfSize f
      let d := d.fset Reg.VFM_IMG_NEED_BYTES size
      if d.fget Reg.VFM_IMG_LEN_LEN < size ∨ 262144 < (d.fnRegions f 1).length ∨ 16 < (d.fnRoots f).length then d.vfmStatus .lengthError
      else if d.linkUp 0 = false then d.vfmStatus .hostLost
      else
        let d := d.upWq (fun w =>
          { w with queues := w.queues.mapVal (fun _ q => if wqFn q.ctx = f then { q with fetched := [], tries := 0 } else q) })
        let d := d.upDtu (fun x => { x with fenced := (d.fnRoots f).foldl (fun t p => t.set p.1 x.seq) x.fenced })
        let d := d.hostWrite 0 (d.fget Reg.VFM_IMG_ADDR_ADDR) (d.vfImage f) false
        (d.vfmStatus .ok).fnCmdDone f 5 .ok size)

/-- RESTORE: loads a state image into a DISABLED or FROZEN VF and enables it (R461); `rd` is what the read of the image brought. -/
def execRestore (target : BitVec 9) (rd : HostBlob) (s : State) : Host.Outcome State Fault Refusal :=
  vfmCmd s (fun d =>
    let f := target.toNat
    if isVf f = false ∨ ¬ (d.fnState f = 0 ∨ d.fnState f = 4) then d.vfmStatus .accessError
    else
      match rd with
      | .lost => d.vfmStatus .hostLost
      | .poisoned => d.vfmStatus .uncorrectable
      | .ok b =>
        match d.restoreCheck b f with
        | .ok => (d.restoreInto b f).vfmStatus .ok
        | st => d.vfmStatus st)

end Sys2Proof.Machine
end

