-- ==== Sys2Proof/Machine/Power.lean ====
section
/-! DEFINITION. Power, clocks, resets, start-up and pins (chapters 17 and 19). -/
namespace Sys2Proof.Machine
open Sys2Proof

/-! ## The applied notch (R534, R535, R540) -/

/-- POWER to PF0: a KIND, the command's status, and a temperature or power (R556). -/
def Dev.powerEvent (d : Dev) (kind : Nat) (st : Status) (val : Nat) : Dev := d.post 0 (.other 0x3B) st.code (kind + val * 2 ^ 16)

/-- The notch that the brake requester names (R540). -/
def Dev.brakeNotch (d : Dev) : Nat :=
  if d.fon Reg.PWR_BRAKE_ACTIVE then min 6 (max 3 (d.fget Reg.PWR_BRAKE_BRAKE_NOTCH)) else 0

/-- The notches that the requesters name, in the order of PWR_THROTTLE.CAUSE: thermal, cap, brake, driver. -/
def Dev.named (d : Dev) : List Nat := [d.pw.thermal, d.pw.cap, d.brakeNotch, min 6 (d.fget Reg.PWR_THROT_REQ_DRV_NOTCH)]

/-- The highest notch named. -/
def Dev.topNotch (d : Dev) : Nat := d.named.foldl max 0

/-- Apply the highest notch named, or the one that still falls after a brake; CAUSE shows who names it (R535). -/
def Dev.applyNotch (d : Dev) : Dev :=
  let n := max d.topNotch (d.pw.falling.getD 0)
  let who := maskOf ((List.range 4).filter (fun i => decide (d.named[i]? = some n ∧ n ≠ 0)))
  ((d.fset Reg.PWR_THROTTLE_NOTCH n).fset Reg.PWR_THROTTLE_CAUSE who).noteLevel 53

/-- The brake is asserted: counted and reported (R540). -/
def Dev.brakeOn (d : Dev) : Dev :=
  let d := ((d.fset Reg.PWR_BRAKE_ACTIVE 1).finc Reg.PWR_BRAKE_COUNT_COUNT).upPw (fun p => { p with falling := none })
  d.applyNotch.powerEvent 6 .ok 0

/-- PWRBRAKE_ASSERT: PWRBRAKE_N has been low for 100 ns. -/
def execPwrbrakeAssert (s : State) : Host.Outcome State Fault Refusal :=
  onDev s (fun d =>
    if d.pw.brakePin then d
    else
      let d := d.upPw (fun p => { p with brakePin := true })
      if d.alive then d.brakeOn else d)

/-- PWRBRAKE_RELEASE: PWRBRAKE_N rises; the applied notch starts to fall (R540). -/
def execPwrbrakeRelease (s : State) : Host.Outcome State Fault Refusal :=
  onDev s (fun d =>
    let d := d.upPw (fun p => { p with brakePin := false })
    if d.alive && d.fon Reg.PWR_BRAKE_ACTIVE then
      let d := d.fset Reg.PWR_BRAKE_ACTIVE 0
      let n := d.fget Reg.PWR_THROTTLE_NOTCH
      let d := d.upPw (fun p => { p with falling := if d.topNotch < n then some n else none })
      d.applyNotch.powerEvent 7 .ok 0
    else d)

/-- BRAKE_STEP_DOWN: after a brake the applied notch falls by one, down to the highest that the others name (R540). -/
def execBrakeStepDown (s : State) : Host.Outcome State Fault Refusal :=
  onDev s (fun d =>
    match d.pw.falling with
    | some n => (d.upPw (fun p => { p with falling := if n - 1 ≤ d.topNotch then none else some (n - 1) })).applyNotch
    | none => d)

/-- DIVIDER_CHANGE: at a NoC frame boundary the CCLK divider follows the applied notch; notches 3 to 6 share one (R533, R534). -/
def execDividerChange (s : State) : Host.Outcome State Fault Refusal :=
  onDev s (fun d => if d.alive then d.upPw (fun p => { p with divider := min 3 (d.fget Reg.PWR_THROTTLE_NOTCH) }) else d)

/-! ## Power cap (R537 to R539) -/

/-- Sensors and power estimates are there: step 2 of R552 has ended. -/
def Dev.sensed (d : Dev) : Bool := !d.pw.cold && d.pw.kettle

/-- POWER_ESTIMATE: a new estimate `now`, in W, and the average over WINDOW_MS of those there are (R537). -/
def execPowerEstimate (now : BitVec 16) (s : State) : Host.Outcome State Fault Refusal :=
  onDev s (fun d =>
    if d.sensed then
      let d := d.upPw (fun p => { p with estimates := (now.toNat :: p.estimates).take 10000 })
      let l := d.pw.estimates.take (100 * d.fget Reg.PWR_CAP_WINDOW_MS)
      ((d.fset Reg.PWR_EST_NOW_W now.toNat).fset Reg.PWR_EST_AVG_W (l.foldl (· + ·) 0 / l.length)).noteLevel 51
    else d)

/-- CAP_CHECK: the cap requester compares the average with CAP_W (R538). -/
def execCapCheck (s : State) : Host.Outcome State Fault Refusal :=
  onDev s (fun d =>
    if !d.alive then d
    else
      let avg := d.fget Reg.PWR_EST_AVG_W
      let cap := d.fget Reg.PWR_CAP_CAP_W
      let window := 10 * d.fget Reg.PWR_CAP_WINDOW_MS
      let n := d.pw.cap
      let six := if n = 6 then d.pw.atSix + 1 else 0
      let since := min 1000 (d.pw.sinceLower + 1)
      let lower := decide (avg + 50 < cap) && decide (window ≤ since) && decide (0 < n)
      let d := d.upPw (fun p =>
        { p with cap := if cap < avg then min 6 (n + 1) else if lower then n - 1 else n, atSix := six, sinceLower := if lower then 0 else since })
      let d := d.applyNotch
      if cap < avg ∧ window ≤ six ∧ d.fon Reg.PWR_THROTTLE_CAP_UNMET = false then (d.fset Reg.PWR_THROTTLE_CAP_UNMET 1).powerEvent 5 .ok avg
      else d)

/-! ## Temperature (R541 to R543) -/

/-- The reading of a temperature sensor in 1/16 °C. -/
def Dev.temp (d : Dev) (i : Nat) : Int := sext 16 (d.fget (Reg.PWR_TEMPi_TEMP i))

/-- The hottest of a list of sensors, the lowest-numbered on a tie. -/
def Dev.hottest (d : Dev) (l : List Nat) : Nat :=
  l.foldl (fun b i => if d.temp b < d.temp i then i else b) (l.headD 0)

/-- The sensor that T is read from (R542). -/
def Dev.hotSensor (d : Dev) : Nat := d.hottest (List.range 36)

/-- The hottest HBM3E stack sensor. -/
def Dev.hotStack (d : Dev) : Nat := d.hottest (listOf 8 (36 + ·))

/-- T_THROT in 1/16 °C. -/
def Dev.throt (d : Dev) : Int := 16 * (d.fget Reg.PWR_THERM_CTL_T_THROT : Int)

/-- T has reached T_THROT, by its own reading or because a stack reads 95 °C or more (R542). -/
def Dev.tooHot (d : Dev) : Bool := decide (d.throt ≤ d.temp d.hotSensor) || decide (16 * 95 ≤ d.temp d.hotStack)

/-- The reading that a THERMAL event carries. -/
def Dev.hotReading (d : Dev) : Nat :=
  d.fget (Reg.PWR_TEMPi_TEMP (if d.throt ≤ d.temp d.hotSensor then d.hotSensor else d.hotStack))

/-- SENSOR_SCAN: the 48 temperature sensors are read; sensor i is 16 bits of `readings` (R541).  At Tj,max the thermal requester names
notch 6 at once (R542). -/
def execSensorScan (readings : BitVec 768) (s : State) : Host.Outcome State Fault Refusal :=
  onDev s (fun d =>
    if !d.sensed then d
    else
      let d := (List.range 48).foldl (fun d i => d.fset (Reg.PWR_TEMPi_TEMP i) (bvFld readings (16 * i) 16)) d
      let m := d.hottest (List.range 48)
      let d := (d.fset Reg.PWR_TEMP_MAX_SENSOR m).fset Reg.PWR_TEMP_MAX_TEMP (d.fget (Reg.PWR_TEMPi_TEMP m))
      let d := d.noteLevels (listOf 49 (· + 1))
      let top := decide (16 * 105 ≤ d.temp d.hotSensor)
      let first := top && !d.pw.tjmax && d.alive
      let d := d.upPw (fun p => { p with hot := p.hot && d.tooHot, tjmax := top && (p.tjmax || d.alive), thermal := if top && d.alive then 6 else p.thermal })
      let d := if d.alive then d.applyNotch else d
      if first then d.powerEvent 4 .ok (d.fget (Reg.PWR_TEMPi_TEMP d.hotSensor)) else d)

/-- THERMAL_RAISE: 100 µs at or above T_THROT (R542). -/
def execThermalRaise (s : State) : Host.Outcome State Fault Refusal :=
  onDev s (fun d =>
    if d.alive && d.tooHot && decide (d.pw.thermal < 6) then
      let first := !d.pw.hot
      let d := (d.upPw (fun p => { p with thermal := p.thermal + 1, hot := true })).applyNotch
      if first then d.powerEvent 3 .ok d.hotReading else d
    else d)

/-- THERMAL_LOWER: 1 ms below T_THROT − 3 °C (R542). -/
def execThermalLower (s : State) : Host.Outcome State Fault Refusal :=
  onDev s (fun d =>
    if d.alive && !d.tooHot && decide (d.temp d.hotSensor < d.throt - 48) then (d.upPw (fun p => { p with thermal := p.thermal - 1 })).applyNotch
    else d)

/-! ## Cold reset (R530 to R532, R543, R548, R549, R552, R574) -/

/-- The causes of a reset, by their bits of `PWR_RESET_CAUSE`. -/
inductive ResetCause where
  | powerOn | coldPin | brownout | kettleLoss | thermtrip | warmPin | warmCmd | warmMgt
  deriving DecidableEq, Repr

/-- The bit of a cause. -/
def ResetCause.bit : ResetCause → Nat
  | .powerOn => 0
  | .coldPin => 2
  | .brownout => 3
  | .kettleLoss => 4
  | .thermtrip => 5
  | .warmPin => 6
  | .warmCmd => 7
  | .warmMgt => 8

/-- Cold reset: everything returns to its Reset value but fuses, pins and the straps last sampled; the structure epoch and
REFUSE_VARIANT outlast the causes that R75 lists.  No cause is recorded for PWROK falling: PWROK's rise records POWER_ON. -/
def Dev.coldReset (d : Dev) (cause : Option ResetCause) : Dev :=
  let stays := decide (cause = some .coldPin ∨ cause = some .kettleLoss ∨ cause = some .thermtrip)
  let kept (off : Nat) : Bool :=
    decide (off = Reg.GLB_STRAPS) || decide (off = Reg.HIF_PORT_CFG) ||
    (stays && (decide (off = Reg.GLB_STRUCT_EPOCH) || decide (off = Reg.IMG_POLICY)))
  let p := d.pw
  let r := { Dev.reset with out := d.out, fresh := d.fresh, clk := d.clk }
  let r := r.upTr (fun t => { t with fuses := d.tr.fuses, owner := d.tr.owner })
  let r := r.upPw (fun q =>
    { q with straps := p.straps, rails := p.rails, pwrok := p.pwrok, coldPin := p.coldPin, thermtrip := p.thermtrip, perst := p.perst,
             brakePin := p.brakePin, erefLost := p.erefLost, tap := (if p.tap = .idcode then .idcode else .bypass) })
  let r := r.upReg (fun x => { x with vals := d.reg.vals.keep (fun off _ => kept off) })
  match cause with
  | some c => r.regSet Reg.PWR_RESET_CAUSE (BitVec.ofNat 64 (2 ^ c.bit))
  | none => r

/-- RAILS_WITHIN_TOLERANCE: VDD_IO18 and VDD_AON come within tolerance, and the outputs are driven (R576). -/
def execRailsWithinTolerance (s : State) : Host.Outcome State Fault Refusal :=
  onDev s (fun d => d.upPw (fun p => { p with rails := true }))

/-- PWROK_RISE: the cause of the cold reset that holds is POWER_ON. -/
def execPwrokRise (s : State) : Host.Outcome State Fault Refusal :=
  onDev s (fun d =>
    if d.pw.pwrok then d
    else (d.upPw (fun p => { p with pwrok := true })).regSet Reg.PWR_RESET_CAUSE (BitVec.ofNat 64 (2 ^ ResetCause.powerOn.bit)))

/-- PWROK_FALL: cold reset follows, and THERMTRIP_N is released (R530, R543, R577). -/
def execPwrokFall (s : State) : Host.Outcome State Fault Refusal :=
  onDev s (fun d => (d.upPw (fun p => { p with pwrok := false, thermtrip := false })).coldReset none)

/-- COLD_PIN: COLD_RST_N goes low. -/
def execColdPin (s : State) : Host.Outcome State Fault Refusal :=
  onDev s (fun d =>
    let c := d.pw.cold
    let d := d.upPw (fun p => { p with coldPin := true })
    if c then d else d.coldReset (some .coldPin))

/-- BROWNOUT: a watched rail has been low for 1 µs while PWROK is high (R531). -/
def execBrownout (s : State) : Host.Outcome State Fault Refusal :=
  onDev s (fun d => if d.pw.pwrok then d.coldReset (some .brownout) else d)

/-- KETTLE_LOSS: the Kettle reference or its lock is lost (R532). -/
def execKettleLoss (s : State) : Host.Outcome State Fault Refusal :=
  onDev s (fun d => if d.pw.kettle then d.coldReset (some .kettleLoss) else d)

/-- THERMTRIP: a sensor reads 125 °C or more; the pin stays low until PWROK falls (R543). -/
def execThermtrip (s : State) : Host.Outcome State Fault Refusal :=
  onDev s (fun d =>
    if d.pw.pwrok && !d.pw.thermtrip && (List.range 48).any (fun i => decide (16 * 125 ≤ d.temp i)) then
      (d.upPw (fun p => { p with thermtrip := true })).coldReset (some .thermtrip)
    else d)

/-- Show the straps in the registers that report them. -/
def Dev.showStraps (d : Dev) (x : Straps) : Dev :=
  let d := d.regSet Reg.GLB_STRAPS (BitVec.ofNat 64 (x.split.toNat + 16 * b2n x.cxl + 32 * b2n x.leader + 64 * x.smb.toNat))
  (d.fset Reg.HIF_PORT_CFG_SPLIT x.split.toNat).fset Reg.HIF_PORT_CFG_CXL_EN (b2n x.cxl)

/-- COLD_RESET_RELEASE: COLD_RST_N is high and PWROK too: the straps are sampled and start-up begins; with TESTEN high, or after a
thermal trip, cold reset stays (R543, R574, R577). -/
def execColdResetRelease (split : BitVec 4) (cxl leader testen : Bool) (smb : BitVec 3) (s : State) : Host.Outcome State Fault Refusal :=
  onDev s (fun d =>
    if d.pw.pwrok = false ∨ d.pw.thermtrip = true ∨ d.pw.cold = false then d
    else
      let x : Straps := ⟨split, cxl, leader, smb⟩
      let d := (d.upPw (fun p => { p with coldPin := false, cold := testen, straps := x })).showStraps x
      (List.range 8).foldl (fun d k => d.fset (Reg.HIF_LINKk_STATUS_STATE k) (b2n (d.linkPresent k))) d)

/-- The record of a public key that does not match its hash; which bank LOCATION names is a free value (R490, R509). -/
def Dev.keyRecord (d : Dev) (ok : Bool) : Dev :=
  if ok then d
  else
    (d.rasRecord { sev := 4, unit := 0x15, action := 0, status := 0, loc := (Config.freeValue 64 d.fresh).toNat,
                   detail := (Config.freeValue 64 (d.fresh + 1)).toNat }).bump.bump

/-- KETTLE_LOCK: Kettle locks; fuses load, keys are checked and the first nonce and keys are made (R490, R493, R500, R552). -/
def execKettleLock (s : State) : Host.Outcome State Fault Refusal :=
  onDev s (fun d =>
    if d.pw.cold || d.pw.kettle then d
    else
      let d := d.upPw (fun p => { p with kettle := true })
      let d := (d.keyRecord imagePkOk).keyRecord debugPkOk
      let d := (d.regSet Reg.SEC_DEBUG_NONCE (Config.freeValue 64 d.fresh)).bump
      d.freeze.deriveAlias)

/-- Clear every scratchpad and cluster memory; HBM3E and LP5X stay (R552, R545). -/
def Dev.clearSram (d : Dev) : Dev :=
  d.upMem (fun m =>
    { m with ram := ⟨m.ram.cells.filter (fun c => decide (hbmPlace 0 0 ≤ c.1))⟩, bad := m.bad.filter (fun a => decide (hbmPlace 0 0 ≤ a)) })

/-- INIT_DONE rises: a brake that is asserted counts once (R577). -/
def Dev.startUp (d : Dev) : Dev :=
  let old := d.deviceState
  let d := (d.clearSram.upPw (fun p => { p with initDone := true })).fset Reg.PWR_STATE_STATE 0
  let d := d.noteState 168 old
  if d.pw.brakePin then d.brakeOn else d

/-- Steps 2 to 4 of R552 have ended without a failure. -/
def Dev.startReady (d : Dev) : Bool :=
  !d.pw.cold && d.pw.kettle && !d.pw.initDone && decide (d.bst.ended = 0xFF) && !d.fon Reg.BST_POST_STATUS_FAIL

/-- INIT_DONE: start-up steps 2 to 4 end. -/
def execInitDone (s : State) : Host.Outcome State Fault Refusal :=
  onDev s (fun d => if d.startReady && decide (d.fget Reg.PWR_STATE_STATE ≠ 4) then d.startUp else d)

/-! ## Warm reset (R548 to R551, R608) -/

/-- The registers that a warm reset keeps (R549, R608). -/
def warmKeeps (off : Nat) : Bool :=
  decide (off = Reg.GLB_STRUCT_EPOCH) || decide (off = Reg.GLB_STRAPS) || decide (off = Reg.IMG_POLICY) ||
  decide (off = Reg.PWR_RESET_CAUSE) || decide (off = Reg.PWR_EST) || decide (off = Reg.PWR_TEMP_MAX) ||
  (decide (Reg.PWR_TEMPi 0 ≤ off) && decide (off ≤ Reg.PWR_TEMPi 47)) ||
  (decide (Reg.RAS_REC_CTL ≤ off) && decide (off ≤ Reg.RAS_LOG_OVERWRITE)) || decide (off = Reg.RAS_FENCE_CTL) ||
  decide (off = Reg.SEC_DEBUG_NONCE) || decide (off = Reg.HIF_PORT_CFG) || (List.range 8).any (fun k => decide (off = Reg.HIF_LINKk_STATUS k)) ||
  decide (off = Reg.ETH_PTP_NS) || decide (off = Reg.ETH_PTP_INCR) || decide (Reg.MGT_STATUS ≤ off ∧ off ≤ Reg.MGT_REQ_COUNT)

/-- The state sensors. -/
def stateSensors : List Nat := listOf 64 (64 + ·) ++ listOf 32 (128 + ·) ++ listOf 8 (160 + ·) ++ [168]

/-- What a warm reset leaves of the pins, power and TAP. -/
def Power.warm (p : Power) : Power :=
  { Power.reset with
    straps := p.straps, rails := p.rails, pwrok := p.pwrok, coldPin := p.coldPin, cold := p.cold, kettle := p.kettle, thermtrip := p.thermtrip,
    perst := p.perst, brakePin := p.brakePin, estimates := p.estimates, erefLost := p.erefLost,
    tap := (if p.tap = .idcode then .idcode else .bypass) }

/-- What it leaves of SEC: fuses (one being blown finishes), the owner key, the CDI, and an MCTP connection with its request in flight. -/
def Trust.warm (t : Trust) : Trust :=
  { Trust.reset with
    fuses := (match t.blow with | some b => t.fuses ||| BitVec.ofNat 64 (2 ^ b.1) | none => t.fuses), owner := t.owner, cdi := t.cdi,
    aliasBusy := t.aliasBusy, m3 := t.m3, m4 := t.m4, mctp := t.mctp,
    signing := t.signing.filter (fun r => match r with | .challenge m _ _ => m | .measurements m _ _ => m) }

/-- What it leaves of the DTU: every region FREE with its GEN, and the fault numbering. -/
def Dtu.warm (t : Dtu) : Dtu :=
  { Dtu.reset with
    mr := (t.mr.mapVal (fun _ e => BitVec.ofNat 256 (256 * mrGen e))).keep (fun _ e => decide (mrGen e ≠ 255)), faultNo := t.faultNo }

/-- Warm reset with a cause; a warm reset that runs starts again (R551). -/
def Dev.warmReset (d : Dev) (cause : ResetCause) : Dev :=
  let x := d
  let up (k : Nat) : Bool := d.linkUp k
  let lane (l : Nat) : Bool := up (2 * (l / 16) + (if d.pw.straps.split.getLsbD (l / 16) && decide (8 ≤ l % 16) then 1 else 0))
  let r := { Dev.reset with
    out := d.out, fresh := d.fresh, clk := d.clk, pw := d.pw.warm, tr := d.tr.warm, dtu := d.dtu.warm, mg := d.mg,
    reg := ⟨d.reg.vals.keep (fun off _ => warmKeeps off), d.reg.stage.keep (fun off _ => warmKeeps off), d.reg.latch.keep (fun off _ => warmKeeps off)⟩ }
  let r := r.upMem (fun m => { m with ram := d.mem.ram, bad := d.mem.bad, lastFullTemp := d.mem.lastFullTemp })
  let r := r.clearSram.upEth (fun e => { e with frac := d.eth.frac })
  let r := r.upBst (fun b => { b with pcieBad := d.bst.pcieBad.filter lane })
  let r := r.upHif (fun h => { h with lost := d.hif.lost.filter (fun k => !up k) })
  let r := r.upRas (fun y =>
    { y with log := d.ras.log, unread := d.ras.unread, count := d.ras.count, written := d.ras.written, repeats := d.ras.repeats, latch := d.ras.latch })
  let r := r.upVf (fun v => { v with numVfs := d.vf.numVfs })
  let r := (r.forb ⟨Reg.PWR_RESET_CAUSE, 0, 9⟩ (2 ^ cause.bit)).fset Reg.PWR_STATE_STATE 4
  (stateSensors.foldl (fun r id => r.noteState id (x.sensorReading id)) r).noteLevels (listOf 49 (· + 1) ++ [51, 53])

/-- WARM_PIN: WARM_RST_N has been low for 1 µs; a cold reset governs (R577). -/
def execWarmPin (s : State) : Host.Outcome State Fault Refusal :=
  onDev s (fun d => if d.pw.cold then d else d.warmReset .warmPin)

/-- A PWR command, which STANDBY accepts too (R545). -/
def onPwr (s : State) (f : Dev → Dev) : Host.Outcome State Fault Refusal :=
  onDev s (fun d => if !d.alive then d else if d.fon Reg.PWR_CMD_STATUS_BUSY then d.fset Reg.PWR_CMD_STATUS_CMD_ERR 1 else f d)

/-- WARM_RESET: PWR_CMD with OP 3. -/
def execWarmReset (s : State) : Host.Outcome State Fault Refusal := onPwr s (fun d => d.warmReset .warmCmd)

/-- WARM_RESET_DONE: steps 2 to 4 of R552 end, and INIT_DONE rises. -/
def execWarmResetDone (s : State) : Host.Outcome State Fault Refusal :=
  onDev s (fun d => if d.startReady && decide (d.fget Reg.PWR_STATE_STATE = 4) then d.startUp else d)

/-! ## Power states (R544 to R546) -/

/-- Report the outcome of a power command. -/
def Dev.pwrStatus (d : Dev) (st : Status) : Dev := d.fset Reg.PWR_CMD_STATUS_STATUS st.code

/-- STANDBY is accepted. -/
def Dev.canStandby (d : Dev) : Bool :=
  decide (d.fget Reg.PWR_STATE_STATE = 0) && !d.fatal && decide (d.wq.queues.ents.length = 0) && decide (d.qpe.qps.ents.length = 0) &&
  decide (d.xdu.ctxs.ents.length = 0) && decide (d.smv.colls.ents.length = 0) && decide (d.cad.streams.ents.length = 0) &&
  !d.mem.moves.any (·.started)

/-- STANDBY: PWR_CMD with OP 1.  Accepted, copies go home, and links and ports go DOWN (R544, steps 1 to 3). -/
def execStandby (s : State) : Host.Outcome State Fault Refusal :=
  onPwr s (fun d =>
    if d.canStandby then
      let d := (d.fset Reg.PWR_CMD_STATUS_BUSY 1).fset Reg.PWR_STATE_STATE 1
      let d := d.svcAbandon.upMem (fun m => { m with moves := [] })
      let d := d.mem.blk.keys.foldl (fun d i => d.bringHome i) d
      let d := d.linksDown
      (List.range 32).foldl (fun d p => if d.portExists p then d.portStop p 1 else d) d
    else d.pwrStatus .accessError)

/-- STANDBY_DONE: steps 4 to 6; no SRAM contents and no tile state are kept (R545). -/
def execStandbyDone (s : State) : Host.Outcome State Fault Refusal :=
  onDev s (fun d =>
    if d.fget Reg.PWR_STATE_STATE = 1 then
      let old := d.deviceState
      let d := d.clearSram.upTl (fun _ => Tiles.reset)
      let d := ((d.fset Reg.PWR_STATE_STATE 2).fset Reg.PWR_CMD_STATUS_BUSY 0).pwrStatus .ok
      (d.noteState 168 old).powerEvent 1 .ok 0
    else d)

/-- WAKE: PWR_CMD with OP 2.  Clusters are cleared, and links and ports train (R544, steps 1 to 3). -/
def execWake (s : State) : Host.Outcome State Fault Refusal :=
  onPwr s (fun d =>
    if d.inStandby then
      let old := d.deviceState
      let d := ((d.fset Reg.PWR_CMD_STATUS_BUSY 1).fset Reg.PWR_STATE_STATE 3).noteState 168 old
      let d := (List.range 32).foldl (fun d c => if d.clusterOff c then d else d.clearCluster c) d
      let d := (List.range 32).foldl (fun d p => if d.portExists p && !d.portBarred p then d.setPortState p 2 else d) d
      (List.range 64).foldl (fun d n => if d.linkState n = 0 then d.startTraining n else d) d
    else d.pwrStatus .accessError)

/-- WAKE_DONE: tiles start at the next NoC frame boundary, and the device is ACTIVE (R544, steps 4 and 5). -/
def execWakeDone (s : State) : Host.Outcome State Fault Refusal :=
  onDev s (fun d =>
    if d.fget Reg.PWR_STATE_STATE = 3 then
      let d := d.upImg (fun i => { i with startDue := d.committed })
      ((((d.fset Reg.PWR_STATE_STATE 0).fset Reg.PWR_CMD_STATUS_BUSY 0).pwrStatus .ok)).powerEvent 2 .ok 0
    else d)

/-! ## Link and function resets (R548 to R550) -/

/-- PERST: PERSTn_N goes low, and the links of port n are lost; a warm reset continues (R336, R551). -/
def execPerst (n : Fin 4) (s : State) : Host.Outcome State Fault Refusal :=
  onDev s (fun d =>
    let d := d.upPw (fun p => { p with perst := p.perst &&& ~~~(BitVec.ofNat 4 (2 ^ n.val)) })
    [2 * n.val, 2 * n.val + 1].foldl (fun d k => if d.pw.cold = false ∧ d.linkUp k = true then d.linkLoss k else d) d)

/-- PERST_RELEASE: PERSTn_N goes high; HOST_LINK_UP follows once INIT_DONE is high too (R577). -/
def execPerstRelease (n : Fin 4) (s : State) : Host.Outcome State Fault Refusal :=
  onDev s (fun d => d.upPw (fun p => { p with perst := p.perst ||| BitVec.ofNat 4 (2 ^ n.val) }))

/-- PF0_FLR: PF0's own contexts end and what it held is reset, in one step; VF Enable is cleared (R454, R550). -/
def execPf0Flr (s : State) : Host.Outcome State Fault Refusal :=
  onDev s (fun d => if d.alive then ((d.drainPoint 0).drainEnd 0).disableVfs else d)

/-! ## Reference clocks and JTAG (R577, R578, R583) -/

/-- REFERENCE_CLOCK_LOSS: an Ethernet lane group's ports leave UP, or a die's links enter RETRAINING. -/
def execReferenceClockLoss (ref : RefClock) (s : State) : Host.Outcome State Fault Refusal :=
  onDev s (fun d =>
    match ref with
    | .eref g =>
      let d := d.upPw (fun p => { p with erefLost := p.erefLost ||| BitVec.ofNat 4 (2 ^ g.val) })
      if d.alive then
        [0, 1, 2, 3, 4, 5, 6, 7].foldl (fun d i => if d.portExists (8 * g.val + i) then d.portStop (8 * g.val + i) 1 else d) d
      else d
    | .oref x => if d.alive then (List.range 16).foldl (fun d i => d.startRetrain (16 * x.val + i)) d else d)

/-- REFERENCE_CLOCK_RETURN: the ports of the lane group train again. -/
def execReferenceClockReturn (g : Fin 4) (s : State) : Host.Outcome State Fault Refusal :=
  onDev s (fun d =>
    let d := d.upPw (fun p => { p with erefLost := p.erefLost &&& ~~~(BitVec.ofNat 4 (2 ^ g.val)) })
    if d.alive then
      [0, 1, 2, 3, 4, 5, 6, 7].foldl (fun d i =>
        let p := 8 * g.val + i
        if d.portExists p && !d.portBarred p && decide (d.portState p = 1) then d.setPortState p 2 else d) d
    else d)

/-- The debug level that a TAP instruction needs (R499, R500). -/
def tapLevel : TapInstr → Nat
  | .bypass | .idcode => 0
  | .boundary | .selfTest => 1
  | .scan | .memoryTest => 2

/-- TAP_INSTRUCTION: an instruction that the debug level does not reach, or that comes before INIT_DONE, acts as BYPASS (R499, R577);
IDCODE shifts out R578's word. -/
def execTapInstruction (i : TapInstr) (s : State) : Host.Outcome State Fault Refusal :=
  onDev s (fun d =>
    let ok := decide (tapLevel i = 0) || (d.pw.initDone && decide (tapLevel i ≤ d.fget Reg.SEC_DEBUG_LEVEL))
    let d := d.upPw (fun p => { p with tap := if ok then i else .bypass })
    if i = .idcode then d.emit (.tapIdcode 0xB64005CB) else d)

end Sys2Proof.Machine
end

