-- ==== Sys2Proof/Machine/Management.lean ====
section
/-! DEFINITION. The management interface: SMBus, MCTP, PLDM and vendor commands (chapter 20).  What the MCTP and PLDM standards give
and the spec does not (command and completion codes, the order of a body's fields) is PRESUMED from them (log entry 47). -/
namespace Sys2Proof.Machine
open Sys2Proof

/-- Answer an MCTP message, and count it (R592). -/
def Dev.mgtAnswer (d : Dev) (r : MgtRsp) : Dev := (d.finc Reg.MGT_REQ_COUNT_COUNT).emit (.mctp r)

/-- A request on the management interface, which answers while its rails and PWROK hold (R585). -/
def onMgt (s : State) (f : Dev → Dev) : Host.Outcome State Fault Refusal := onDev s (fun d => if d.mgtUp then f d else d)

/-! ## MCTP control (R586) -/

/-- SET_ENDPOINT_ID: the bus owner gives the EID; 0 and 0xFF are no endpoint's. -/
def execSetEndpointId (eid : BitVec 8) (s : State) : Host.Outcome State Fault Refusal :=
  onMgt s (fun d =>
    if eid = 0 ∨ eid = 0xFF then d.mgtAnswer (.control 1 2 [])
    else ((d.fset Reg.MGT_STATUS_EID eid.toNat).fset Reg.MGT_STATUS_EID_SET 1).mgtAnswer (.control 1 0 [0, eid, 0]))

/-- GET_ENDPOINT_ID. -/
def execGetEndpointId (s : State) : Host.Outcome State Fault Refusal :=
  onMgt s (fun d => d.mgtAnswer (.control 2 0 [BitVec.ofNat 8 (d.fget Reg.MGT_STATUS_EID), 0, 0]))

/-- GET_ENDPOINT_UUID: the first 16 bytes of SHA-256 of the DeviceID public key. -/
def execGetEndpointUuid (s : State) : Host.Outcome State Fault Refusal :=
  onMgt s (fun d => d.mgtAnswer (.control 3 0 ((bytes256 devidHash).take 16)))

/-- The message types of R586. -/
def mctpTypes : List Nat := [0x00, 0x01, 0x05, 0x7E]

/-- GET_MCTP_VERSION_SUPPORT: the version of a supported message type, which is a free value (log entry 4). -/
def execGetMctpVersionSupport (type : BitVec 8) (s : State) : Host.Outcome State Fault Refusal :=
  onMgt s (fun d =>
    if mctpTypes.contains type.toNat then (d.mgtAnswer (.control 4 0 (1 :: leBytes 4 (Config.freeValue 32 d.fresh).toNat))).bump
    else d.mgtAnswer (.control 4 0x80 []))

/-- GET_MESSAGE_TYPE_SUPPORT. -/
def execGetMessageTypeSupport (s : State) : Host.Outcome State Fault Refusal :=
  onMgt s (fun d => d.mgtAnswer (.control 5 0 (BitVec.ofNat 8 mctpTypes.length :: mctpTypes.map (BitVec.ofNat 8))))

/-- UNSUPPORTED_MESSAGE_TYPE: a message of another type. -/
def execUnsupportedMessageType (type : BitVec 8) (s : State) : Host.Outcome State Fault Refusal :=
  onMgt s (fun d => if mctpTypes.contains type.toNat then d else d.mgtAnswer (.badType type.toNat))

/-- PEC_ERROR: a packet whose PEC fails is dropped and counted. -/
def execPecError (s : State) : Host.Outcome State Fault Refusal := onMgt s (fun d => d.finc Reg.MGT_PEC_ERR_COUNT)

/-- ALERT_RESPONSE: the address of the target that holds SMB_ALERT_N low (R585, R589). -/
def execAlertResponse (s : State) : Host.Outcome State Fault Refusal :=
  onMgt s (fun d => if d.fon Reg.MGT_STATUS_ALERT then d.emit (.alertAddress (0x60 + d.fget Reg.GLB_STRAPS_SMB_ADDR)) else d)

/-! ## PLDM base (R587) -/

/-- The PLDM commands of R587, by type. -/
def pldmCommands : Nat → List Nat
  | 0 => [1, 2, 3, 4, 5]
  | 2 => [0x0B, 0x10, 0x11, 0x20, 0x21, 0x50, 0x51]
  | _ => []

/-- Send a PLDM response of type 0. -/
def Dev.pldmBase (d : Dev) (command code : Nat) (body : List Byte) : Dev := d.mgtAnswer (.pldm 0 command code body)

/-- SETTID: 0 and 0xFF are no terminus's. -/
def execSettid (tid : BitVec 8) (s : State) : Host.Outcome State Fault Refusal :=
  onMgt s (fun d =>
    if tid = 0 ∨ tid = 0xFF then d.pldmBase 1 2 [] else (d.fset Reg.MGT_STATUS_TID tid.toNat).pldmBase 1 0 [])

/-- GETTID. -/
def execGettid (s : State) : Host.Outcome State Fault Refusal :=
  onMgt s (fun d => d.pldmBase 2 0 [BitVec.ofNat 8 (d.fget Reg.MGT_STATUS_TID)])

/-- GETPLDMVERSION: 1.2 for type 2; that of type 0 is a free value (log entry 4). -/
def execGetpldmversion (type : BitVec 8) (s : State) : Host.Outcome State Fault Refusal :=
  onMgt s (fun d =>
    match type.toNat with
    | 0 => (d.pldmBase 3 0 (leBytes 4 (Config.freeValue 32 d.fresh).toNat)).bump
    | 2 => d.pldmBase 3 0 [0x00, 0xF0, 0xF2, 0xF1]
    | _ => d.pldmBase 3 0x83 [])

/-- GETPLDMTYPES: types 0 and 2. -/
def execGetpldmtypes (s : State) : Host.Outcome State Fault Refusal := onMgt s (fun d => d.pldmBase 4 0 (leBytes 8 5))

/-- GETPLDMCOMMANDS: one bit for each command of a type. -/
def execGetpldmcommands (type : BitVec 8) (s : State) : Host.Outcome State Fault Refusal :=
  onMgt s (fun d =>
    if pldmCommands type.toNat = [] then d.pldmBase 5 0x83 [] else d.pldmBase 5 0 (leBytes 32 (maskOf (pldmCommands type.toNat))))

/-- UNSUPPORTED_PLDM_CMD: any other command. -/
def execUnsupportedPldmCmd (type command : BitVec 8) (s : State) : Host.Outcome State Fault Refusal :=
  onMgt s (fun d =>
    if (pldmCommands type.toNat).contains command.toNat then d else d.mgtAnswer (.pldm type.toNat command.toNat 5 []))

/-! ## Sensors (R588, R589) -/

/-- The numeric sensors. -/
def numericSensors : List Nat := listOf 55 (· + 1)

/-- Send a PLDM response of type 2. -/
def Dev.pldmMon (d : Dev) (command code : Nat) (body : List Byte) : Dev := d.mgtAnswer (.pldm 2 command code body)

/-- The operational state of a sensor: temperatures and powers are unavailable until step 2 of R552 ends and while RESETTING. -/
def Dev.sensorOp (d : Dev) (id : Nat) : Nat :=
  if id ≤ 52 ∧ (d.sensed = false ∨ d.fget Reg.PWR_STATE_STATE = 4) then 2 else b2n (d.mg.disabled.contains id)

/-- GETSENSORREADING: a numeric sensor; the reading of one that is unavailable is a free value (log entry 4). -/
def execGetsensorreading (sensor : BitVec 16) (s : State) : Host.Outcome State Fault Refusal :=
  onMgt s (fun d =>
    let id := sensor.toNat
    if numericSensors.contains id then
      if d.sensorOp id = 2 then (d.mgtAnswer (.reading id 2 (Config.freeValue 32 d.fresh).toNat 0)).bump
      else d.mgtAnswer (.reading id (d.sensorOp id) (d.sensorReading id) (d.sensorLevel id))
    else d.pldmMon 0x11 0x80 [])

/-- GETSTATESENSORREADINGS: a state sensor. -/
def execGetstatesensorreadings (sensor : BitVec 16) (s : State) : Host.Outcome State Fault Refusal :=
  onMgt s (fun d =>
    let id := sensor.toNat
    if stateSensors.contains id then d.mgtAnswer (.state id (b2n (d.mg.disabled.contains id)) (d.sensorReading id)) else d.pldmMon 0x21 0x80 [])

/-- Enable or disable a sensor of a list. -/
def Dev.sensorEnable (d : Dev) (l : List Nat) (command id : Nat) (on : Bool) : Dev :=
  if l.contains id then
    let d := d.upMg (fun m =>
      { m with disabled := if on then m.disabled.filter (fun i => decide (i ≠ id)) else if m.disabled.contains id then m.disabled else id :: m.disabled })
    d.pldmMon command 0 []
  else d.pldmMon command 0x80 []

/-- SETNUMERICSENSORENABLE: a disabled sensor raises no events. -/
def execSetnumericsensorenable (sensor : BitVec 16) (on : Bool) (s : State) : Host.Outcome State Fault Refusal :=
  onMgt s (fun d => d.sensorEnable numericSensors 0x10 sensor.toNat on)

/-- SETSTATESENSORENABLES. -/
def execSetstatesensorenables (sensor : BitVec 16) (on : Bool) (s : State) : Host.Outcome State Fault Refusal :=
  onMgt s (fun d => d.sensorEnable stateSensors 0x20 sensor.toNat on)

/-- GETPDRREPOSITORYINFO: the repository is available and holds one record for each sensor (R587). -/
def execGetpdrrepositoryinfo (s : State) : Host.Outcome State Fault Refusal :=
  onMgt s (fun d => d.pldmMon 0x50 0 (0 :: leBytes 4 (numericSensors ++ stateSensors).length))

/-- GETPDR: the record of a sensor by its handle, the sensor's number (DESIGN CHOICE, log entry 47); 0 names the first. -/
def execGetpdr (handle : BitVec 32) (s : State) : Host.Outcome State Fault Refusal :=
  onMgt s (fun d =>
    let all := numericSensors ++ stateSensors
    match all.dropWhile (fun i => decide (handle ≠ 0 ∧ i ≠ handle.toNat)) with
    | [] => d.pldmMon 0x51 0x82 []
    | i :: rest => d.mgtAnswer (.pdr i (rest.headD 0)))

/-- POLLFORPLATFORMEVENTMESSAGE: the oldest event is returned and removed, pending sensors move up, and the alert goes with the
last one (R589). -/
def execPollforplatformeventmessage (s : State) : Host.Outcome State Fault Refusal :=
  onMgt s (fun d =>
    match d.mg.events with
    | [] => d.mgtAnswer (.event none)
    | e :: rest =>
      let d := (d.upMg (fun m => { m with events := rest })).sensorRefill 169
      let d := if d.mg.events = [] then d.fset Reg.MGT_STATUS_ALERT 0 else d
      d.mgtAnswer (.event (some e)))

/-! ## Vendor commands (R590) -/

/-- A register's 4 bytes. -/
def Dev.regBytes (d : Dev) (off : Nat) : List Byte := leBytes 4 (d.regGet off).toNat

/-- Send the response of a vendor command. -/
def Dev.vendor (d : Dev) (command code : Nat) (body : List Byte) : Dev := d.mgtAnswer (.vendor command code body)

/-- GET_BST: self-test state. -/
def execGetBst (s : State) : Host.Outcome State Fault Refusal :=
  onMgt s (fun d =>
    d.vendor 1 0 (d.regBytes Reg.BST_POST_STATUS ++ d.regBytes Reg.BST_FAIL_CODE ++
      (List.range 8).flatMap (fun g => d.regBytes (Reg.BST_GROUPg g)) ++ d.regBytes Reg.BST_SVC_CODE))

/-- GET_RECORD: a record of the store, which stays unread. -/
def execGetRecord (entry : BitVec 8) (s : State) : Host.Outcome State Fault Refusal :=
  onMgt s (fun d => d.vendor 2 0 (leBytes 64 (d.ras.log.get 0 entry.toNat).toNat ++ d.regBytes Reg.RAS_REC_TOTAL))

/-- GET_STATE: identity and reset state. -/
def execGetState (s : State) : Host.Outcome State Fault Refusal :=
  onMgt s (fun d =>
    d.vendor 3 0 (d.regBytes Reg.GLB_ID ++ d.regBytes Reg.GLB_STRAPS ++ d.regBytes Reg.GLB_STRUCT_EPOCH ++ d.regBytes Reg.PWR_RESET_CAUSE ++
      d.regBytes Reg.RAS_FATAL ++ leBytes 1 d.rollback))

/-- VENDOR_WARM_RESET: OK and then a warm reset, when RESET_EN allows it and no cold reset holds. -/
def execVendorWarmReset (s : State) : Host.Outcome State Fault Refusal :=
  onMgt s (fun d =>
    if d.fon Reg.MGT_CTL_RESET_EN && !d.pw.cold then (d.vendor 4 0 []).warmReset .warmMgt else d.vendor 4 1 [])

/-- UNKNOWN_VENDOR_COMMAND. -/
def execUnknownVendorCommand (command : BitVec 8) (s : State) : Host.Outcome State Fault Refusal :=
  onMgt s (fun d => if 1 ≤ command.toNat ∧ command.toNat ≤ 4 then d else d.vendor command.toNat 2 [])

end Sys2Proof.Machine
end

