-- ==== Sys2Proof/Machine/Registers.lean ====
section
/-! DEFINITION. Accesses to BAR0: registers, their halves, and a function's own registers (R9 to R16, R448 to R450, R593, R594). -/
namespace Sys2Proof.Machine
open Sys2Proof

/-! ## What registers read as -/

/-- The index of an offset in a family of `n` registers. -/
def famIdx (off base stride n : Nat) : Option Nat :=
  if base ≤ off ∧ (off - base) % stride = 0 ∧ (off - base) / stride < n then some ((off - base) / stride) else none

/-- Word i of a 256-bit value. -/
def hashWord (h : BitVec 256) (i : Nat) : Nat := bvFld h (32 * i) 32

/-- The state that CLU_TILE_STATE shows of a tile: one that drains before it halts or stops still reads RUNNING (R136, R137). -/
def phaseCode : TilePhase → Nat
  | .idle => 0
  | .running | .halting | .stopping => 1
  | .halted => 2
  | .stopped => 3

/-- CLU_TILE_STATE of cluster c. -/
def Dev.tileStates (d : Dev) (c : Nat) : Nat :=
  (List.range 16).foldl (fun n t => n + phaseCode (d.tile (16 * c + t)).phase * 4 ^ t) 0

/-- XDU_ACTIVEd. -/
def Dev.xduActive (d : Dev) (die : Nat) : Nat :=
  let l := (d.xdu.ctxs.ents.filter (fun p => decide (p.1 / 64 = die))).map (·.2)
  l.length + (l.foldl (fun n c => n + c.batches.length) 0) % 65536 * 65536

/-- The value of the register at an offset that is shown from other state, if it is one of those. -/
def Dev.shown (d : Dev) (off : Nat) : Option Nat :=
  if off = Reg.SEC_ROLLBACK then some d.rollback
  else if off = Reg.SEC_STATUS then some (b2n d.ownerSet)
  else if off = Reg.SMV_GRP_STATE then
    let g := d.fget Reg.SMV_GRP_INDEX_GROUP
    some (d.smvState g + (d.smv.aborts.get [] g).length * 256)
  else if off = Reg.SMV_GRP_SEQ then some (d.smv.seqs.get d.smv.base (d.fget Reg.SMV_GRP_INDEX_GROUP))
  else if off = Reg.QPE_INFLIGHT then some d.inflight
  else if off = Reg.CAD_STREAMS then some d.cad.streams.ents.length
  else if off = Reg.TXS_HWM_DATA then
    let i := d.fget Reg.TXS_HWM_INDEX_SUBSCRIBER
    let m := (d.hwmNote i).txs.hwm.get (0, 0) i
    some (m.1 + m.2 * 2 ^ 32)
  else
    [(famIdx off (Reg.CLU_TILE_STATE 0) 0x100000 32).map d.tileStates,
     (famIdx off (Reg.MEM_USEp 0) 0x40 32).map d.memUse,
     (famIdx off (Reg.XDU_EPT_DATAi 0) 4 8).map (fun i =>
       hashWord (if i = 0 then d.eptEntry (d.fget Reg.XDU_EPT_INDEX_INDEX) else d.xdu.latch) i),
     (famIdx off (Reg.XDU_ACTIVEd 0) 0x100 4).map d.xduActive,
     (famIdx off (Reg.SMV_ACTIVEd 0) 0x100 4).map d.smvRunning,
     (famIdx off (Reg.ETH_PORTp_TXTS 0) 0x100 32).map (fun p => (d.txtsWord p).toNat),
     (famIdx off (Reg.SEC_IMAGE_PK_HASHi 0) 4 8).map (hashWord Config.imagePkHash),
     (famIdx off (Reg.SEC_DEBUG_PK_HASHi 0) 4 8).map (hashWord Config.debugPkHash),
     (famIdx off (Reg.SEC_DEVID_HASHi 0) 4 8).map (hashWord devidHash),
     (famIdx off (Reg.RAS_LOG_DATAi 0) 4 16).map (fun i =>
       bvFld (if i = 0 then d.ras.log.get 0 (d.fget Reg.RAS_LOG_INDEX_ENTRY) else d.ras.latch) (32 * i) 32)].findSome? id

/-- A register that counts cycles, cache misses or link-level corrections, which the model does not follow: a read of it is a free
value (log entry 4).  The time of a drain is one too, up to the moment it is stuck. -/
def Dev.timed (d : Dev) (off : Nat) : Bool :=
  (List.range 32).any (fun c =>
    (famIdx off (Reg.CLU_SP_STALLt c 0) 8 16).isSome || decide (off = Reg.CLU_CM_STALL c) || decide (off = Reg.CLU_NOC_CREDIT_STALL c)) ||
  (famIdx off (Reg.ONF_LINKn_FEC_CORR 0) 0x40 64).isSome || (famIdx off (Reg.HIF_LINKk_REPLAY 0) 0x20 8).isSome ||
  decide (off = Reg.QPE_CTX_MISS) || decide (off = Reg.DTU_MISS) ||
  (match famIdx off (Reg.VFM_FNf_DRAIN_US 0) 0x400 264 with
   | some f => decide (d.fnState f = 2) && !d.fon (Reg.VFM_FNf_STATE_DRAIN_STUCK f)
   | none => false)

/-- The value of the register at an offset. -/
def Dev.regView (d : Dev) (off : Nat) : W64 :=
  match d.shown off with
  | some v => BitVec.ofNat 64 v
  | none => if d.timed off then Config.freeValue 64 d.fresh else d.regGet off

/-! ## Reads -/

/-- What a read of a register changes: RC fields clear, a latch is taken, a timestamp leaves its FIFO (R9, R223, R526, R372, R375). -/
def Dev.readEffect (d : Dev) (off : Nat) (r : RegDef) : Dev :=
  if off = Reg.TXS_HWM_DATA then d.upTxs (fun t => { t with hwm := t.hwm.del (d.fget Reg.TXS_HWM_INDEX_SUBSCRIBER) })
  else if off = Reg.XDU_EPT_DATAi 0 then d.upXdu (fun x => { x with latch := d.eptEntry (d.fget Reg.XDU_EPT_INDEX_INDEX) })
  else if off = Reg.RAS_LOG_DATAi 0 then
    let i := d.fget Reg.RAS_LOG_INDEX_ENTRY
    d.upRas (fun x => { x with latch := x.log.get 0 i, unread := x.unread.filter (fun j => decide (j ≠ i)) })
  else
    match famIdx off (Reg.ETH_PORTp_TXTS 0) 0x100 32 with
    | some p => d.upEth (fun e => { e with txts := e.txts.set p (e.txts.get [] p).tail })
    | none =>
      if d.timed off then d.bump
      else if r.fields.any (fun f => decide (f.acc = .rc)) then
        d.regSet off (r.fields.foldl (fun v f => if f.acc = .rc then bvSet v f.lo f.w 0 else v) (d.regGet off))
      else d

/-- The low and the high half of a register's value. -/
def lowHalf (v : W64) : W32 := v.setWidth 32
/-- The high half. -/
def highHalf (v : W64) : W32 := (v >>> 32).setWidth 32

/-- The 64-bit register whose upper half lies at an offset. -/
def upperOf (off : Nat) : Option (Nat × RegDef) :=
  if off < 4 then none else ((findReg (off - 4)).filter (·.wide)).map (fun r => (off - 4, r))

/-- Function f and offset in its buffers of an offset of the VFM block: TO from 0, FROM from 0x100 (R463). -/
def mboxAt (off : Nat) : Option (Nat × Nat) :=
  let f := (off - 0x1801000) / 0x400
  let o := (off - 0x1801000) % 0x400
  if 0x1801000 ≤ off ∧ 1 ≤ f ∧ f ≤ 263 ∧ f ≠ 256 ∧ o < 0x200 then some (f, o) else none

/-- The 4 bytes at an offset of a 256-byte buffer. -/
def bufWord (b : List Byte) (o : Nat) : W32 := BitVec.ofNat 32 (leNat ((b.drop o).take 4))

/-- A 32-bit read of PF0's BAR0 (R9, R11, R16). -/
def Dev.read32 (d : Dev) (off : Nat) : Dev × W32 :=
  match findReg off with
  | some r =>
    let v := d.regView off
    let d := d.readEffect off r
    (if r.wide then d.upReg (fun x => { x with latch := x.latch.set off (highHalf v) }) else d, lowHalf v)
  | none =>
    match upperOf off with
    | some (o, _) =>
      (match d.reg.latch.find o with
       | some h => (d.upReg (fun x => { x with latch := x.latch.del o }), h)
       | none => (d, highHalf (d.regView o)))
    | none =>
      (d, match mboxAt off with
          | some (f, o) => if o < 0x100 then bufWord (d.vf.toFn.get [] f) o else bufWord (d.vf.fromFn.get [] f) (o - 0x100)
          | none => 0)

/-- A 32-bit read of a function's own BAR0 (R448). -/
def Dev.selfRead32 (d : Dev) (f off : Nat) : Dev × W32 :=
  if off = 0 then (d, BitVec.ofNat 32 (d.fnState f + d.fget (Reg.VFM_FNf_STATE_PARTITION f) * 2 ^ 8 + f * 2 ^ 16))
  else if off = 4 then
    (d, BitVec.ofNat 32 (d.fget (Reg.VFM_FNf_MBOX_CTL_FROM_FULL f) * 2 ^ 8 + d.fget (Reg.VFM_FNf_MBOX_CTL_TO_BUSY f) * 2 ^ 9))
  else if off = 8 then (d.upVf (fun v => { v with selfDrop := v.selfDrop.del f }), BitVec.ofNat 32 (d.vf.selfDrop.get 0 f))
  else if 0x100 ≤ off ∧ off < 0x200 then (d, bufWord (d.vf.fromFn.get [] f) (off - 0x100))
  else if 0x200 ≤ off ∧ off < 0x300 then (d, bufWord (d.vf.toFn.get [] f) (off - 0x200))
  else if 0x80000 ≤ off ∧ off < 0x80400 then
    (d, BitVec.ofNat 32 (bvFld (d.ev.msix.get 0 (4096 * f + (off - 0x80000) / 16)) (8 * ((off - 0x80000) % 16)) 32))
  else if off = 0x81000 ∨ off = 0x81004 then
    (d, BitVec.ofNat 32 (maskOf ((List.range 32).filter (fun i => d.ev.pba.contains (4096 * f + 8 * (off - 0x81000) + i)))))
  else (d, 0)

/-- A 32-bit read of a function's BAR0. -/
def Dev.bar0Read32 (d : Dev) (f off : Nat) : Dev × W32 := if f = 0 then d.read32 off else d.selfRead32 f off

/-- An access of R594: 4 or 8 bytes, aligned to its size. -/
def barAccess (off size : Nat) : Bool := (decide (size = 4) || decide (size = 8)) && decide (off % size = 0)

/-- A read of a function's BAR0 (R16, R593, R594). -/
def Dev.bar0Read (d : Dev) (f off size : Nat) : Dev × W64 :=
  if barAccess off size = false then (d, 0)
  else if size = 4 then
    let x := d.bar0Read32 f off
    (x.1, x.2.setWidth 64)
  else
    match (if f = 0 then (findReg off).filter (·.wide) else none) with
    | some r => (d.readEffect off r, d.regView off)
    | none =>
      let x := d.bar0Read32 f off
      let y := x.1.bar0Read32 f (off + 4)
      (y.1, x.2.setWidth 64 ||| (y.2.setWidth 64 <<< 32))

/-- What a word of BAR0 reads as while a warm reset runs: zero but for PWR_STATE and PWR_RESET_CAUSE (R551). -/
def Dev.resetWord (d : Dev) (f off : Nat) : W64 :=
  if f = 0 ∧ (off = Reg.PWR_STATE ∨ off = Reg.PWR_RESET_CAUSE) then d.regGet off else 0

/-- A function has a BAR0: a VF needs VF Enable and NumVFs (R304, R453; PRESUMED from SR-IOV, log entry 48). -/
def Dev.hasBar0 (d : Dev) (f : Nat) : Bool := d.isFn f && (!isVf f || (d.vf.vfEnable && decide (f ≤ d.vf.numVfs)))

/-- RC_READ: a read of BAR0; RC fields of what it reads are cleared. -/
def execRcRead (fn : Fin 264) (off size : Nat) (s : State) : Host.Outcome State Fault Refusal :=
  onDev s (fun d =>
    let f := fn.val
    if d.pw.cold || !d.hasBar0 f then d
    else if d.fget Reg.PWR_STATE_STATE = 4 then
      d.emit (.regRead f off size (if barAccess off size then
        d.resetWord f off ||| (if size = 8 then d.resetWord f (off + 4) <<< 32 else 0) else 0))
    else if !d.pw.initDone then d
    else
      let x := d.bar0Read f off size
      x.1.emit (.regRead f off size x.2))

/-- LOWER_HALF_READ: a 32-bit read of the lower half of a 64-bit register latches the upper half, and clears RC fields (R16). -/
def execLowerHalfRead (off : Nat) (s : State) : Host.Outcome State Fault Refusal :=
  onDev s (fun d =>
    if d.alive && ((findReg off).map (·.wide) == some true) then
      let x := d.read32 off
      x.1.emit (.regRead 0 off 4 (x.2.setWidth 64))
    else d)

/-! ## Writes -/

/-- A field after a write of a register, by its access code (R9, R10); a field whose write is a command of its own stays. -/
def FieldDef.write (f : FieldDef) (committed : Bool) (old v : W64) : W64 :=
  let x := bvFld v f.lo f.w
  let y := match f.clamp with
    | some (a, b) => max a (min b x)
    | none => x
  let o := bvFld old f.lo f.w
  if f.own then old
  else
    match f.acc with
    | .ro | .rc | .wo => old
    | .rw => bvSet old f.lo f.w y
    | .rwl => if committed then old else bvSet old f.lo f.w y
    | .w1c => bvSet old f.lo f.w (o - (o &&& x))
    | .w1s => bvSet old f.lo f.w (o ||| x)

/-- The command registers: their offset, OP's width, the first and last OP they know, and the CMD_ERR that any other sets. -/
def opTable : List (Nat × Nat × Nat × Nat × RegField) :=
  [(Reg.MEM_BLK_CMD, 2, 1, 2, Reg.MEM_BLK_STATUS_CMD_ERR), (Reg.WQS_CMD, 4, 1, 6, Reg.WQS_CMD_STATUS_CMD_ERR),
   (Reg.QPE_CMD, 4, 1, 8, Reg.QPE_CMD_STATUS_CMD_ERR), (Reg.DTU_CMD, 4, 1, 7, Reg.DTU_CMD_STATUS_CMD_ERR),
   (Reg.VFM_CMD, 4, 1, 7, Reg.VFM_CMD_STATUS_CMD_ERR), (Reg.CAD_CMD, 4, 1, 3, Reg.CAD_CMD_STATUS_CMD_ERR),
   (Reg.SEC_CMD, 4, 1, 4, Reg.SEC_CMD_STATUS_CMD_ERR), (Reg.PWR_CMD, 4, 1, 3, Reg.PWR_CMD_STATUS_CMD_ERR),
   (Reg.BST_SVC_CMD, 4, 1, 3, Reg.BST_SVC_STATUS_CMD_ERR)]

/-- What follows from the new value of a register: an unknown OP sets CMD_ERR, CAP_W rounds down, and notches, thresholds and gates follow
their registers (R535, R539, R542, R365, R589). -/
def Dev.written (d : Dev) (off : Nat) (v : W64) : Dev :=
  match opTable.find? (fun x => decide (x.1 = off)) with
  | some (_, w, a, b, err) => if a ≤ bvFld v 0 w ∧ bvFld v 0 w ≤ b then d else d.fset err 1
  | none =>
    if off = Reg.PWR_CAP then (d.fset Reg.PWR_CAP_CAP_W (d.fget Reg.PWR_CAP_CAP_W / 50 * 50)).noteLevel 51
    else if off = Reg.PWR_THERM_CTL then d.noteLevels (listOf 49 (· + 1))
    else if off = Reg.PWR_THROT_REQ ∨ off = Reg.PWR_BRAKE then d.applyNotch
    else if off = Reg.ONF_FENCE then d.fenceWrite v
    else if off = Reg.ONF_RECAL then d.recalWrite v
    else if off = Reg.ETH_PTP_ADJ then d.regSet Reg.ETH_PTP_NS (d.regGet Reg.ETH_PTP_NS + v)
    else
      match famIdx off (Reg.TXS_GATEp_CTL 0) 0x40 32 with
      | some p => d.showGates p
      | none => d

/-- Apply a write to a register. -/
def Dev.applyReg (d : Dev) (off : Nat) (r : RegDef) (v : W64) : Dev :=
  (d.regSet off (r.fields.foldl (fun o f => f.write d.committed o v) (d.regGet off))).written off v

/-- Replace 4 bytes of a 256-byte buffer. -/
def bufStore (b : List Byte) (o : Nat) (v : W32) : List Byte :=
  let b := if b = [] then List.replicate 256 0 else b
  b.take o ++ leBytes 4 v.toNat ++ b.drop (o + 4)

/-- A 32-bit write of PF0's BAR0: the lower half of a 64-bit register is staged, the upper half applies it (R16); a mailbox buffer that
waits for its function drops the write with CMD_ERR (R450). -/
def Dev.write32 (d : Dev) (off : Nat) (v : W32) : Dev :=
  match findReg off with
  | some r => if r.wide then d.upReg (fun x => { x with stage := x.stage.set off v }) else d.applyReg off r (v.setWidth 64)
  | none =>
    match upperOf off with
    | some (o, r) =>
      let lo := d.reg.stage.get (lowHalf (regReset o)) o
      d.applyReg o r (lo.setWidth 64 ||| (v.setWidth 64 <<< 32))
    | none =>
      match mboxAt off with
      | some (f, o) =>
        if 0x100 ≤ o then d
        else if d.fon (Reg.VFM_FNf_MBOX_CTL_TO_BUSY f) then d.fset Reg.VFM_CMD_STATUS_CMD_ERR 1
        else d.upVf (fun x => { x with toFn := x.toFn.set f (bufStore (x.toFn.get [] f) o v) })
      | none => d

/-- A 32-bit write of a function's own BAR0: OUT while it is free, and the MSI-X table; unmasking a vector that is pending sends it
(R327, R448, R450). -/
def Dev.selfWrite32 (d : Dev) (f off : Nat) (v : W32) : Dev :=
  if 0x100 ≤ off ∧ off < 0x200 then
    if d.mboxOpen f = false ∨ d.fon (Reg.VFM_FNf_MBOX_CTL_FROM_FULL f) = true then
      d.upVf (fun x => { x with selfDrop := x.selfDrop.upd 0 f (fun n => (n + 1) % 2 ^ 32) })
    else d.upVf (fun x => { x with fromFn := x.fromFn.set f (bufStore (x.fromFn.get [] f) (off - 0x100) v) })
  else if 0x80000 ≤ off ∧ off < 0x80400 then
    let k := (off - 0x80000) / 16
    let n := 4096 * f + k
    let d := d.upEv (fun e => { e with msix := e.msix.set n (bvSet (e.msix.get 0 n) (8 * ((off - 0x80000) % 16)) 32 v.toNat) })
    if d.ev.pba.contains n = true ∧ bvFld (d.ev.msix.get 0 n) 96 1 = 0 then
      (d.upEv (fun e => { e with pba := e.pba.filter (fun i => decide (i ≠ n)) })).sendMsix f k
    else d
  else d

/-- A 32-bit write of a function's BAR0. -/
def Dev.bar0Write32 (d : Dev) (f off : Nat) (v : W32) : Dev := if f = 0 then d.write32 off v else d.selfWrite32 f off v

/-- A write of a function's BAR0 (R16, R593, R594). -/
def Dev.bar0Write (d : Dev) (f off size : Nat) (v : W64) : Dev :=
  if barAccess off size = false then d
  else if size = 4 then d.bar0Write32 f off (lowHalf v)
  else
    match (if f = 0 then (findReg off).filter (·.wide) else none) with
    | some r => (d.upReg (fun x => { x with stage := x.stage.set off (lowHalf v) })).applyReg off r v
    | none => (d.bar0Write32 f off (lowHalf v)).bar0Write32 f (off + 4) (highHalf v)

/-- REGISTER_WRITE: a write to BAR0 acts by the access codes of the fields it reaches; those with a row of their own are left to that
row (log entry 49). -/
def execRegisterWrite (fn : Fin 264) (off size : Nat) (val : W64) (s : State) : Host.Outcome State Fault Refusal :=
  onDev s (fun d => if d.alive && d.hasBar0 fn.val then d.bar0Write fn.val off size val else d)

/-- LOWER_HALF_WRITE: goes into the staging word of a 64-bit register (R16). -/
def execLowerHalfWrite (off : Nat) (val : W32) (s : State) : Host.Outcome State Fault Refusal :=
  onDev s (fun d => if d.alive && ((findReg off).map (·.wide) == some true) then d.write32 off val else d)

/-- UPPER_HALF_WRITE: applies a 64-bit register, the staging word as its lower half (R16). -/
def execUpperHalfWrite (off : Nat) (val : W32) (s : State) : Host.Outcome State Fault Refusal :=
  onDev s (fun d => if d.alive && (upperOf off).isSome then d.write32 off val else d)

end Sys2Proof.Machine
end

