-- ==== Sys2Proof/Machine/Sanitize.lean ====
section
/-! DEFINITION. SANITIZE (R501). -/
namespace Sys2Proof.Machine
open Sys2Proof

/-- SANITIZE: SEC_CMD with OP 3.  It waits for a commit that runs; otherwise contexts, keys, memory and the image go at once. -/
def execSanitize (s : State) : Host.Outcome State Fault Refusal :=
  onSec s (fun d =>
    let d := d.fset Reg.SEC_CMD_STATUS_BUSY 1
    if d.imgState = 4 then d.upTr (fun t => { t with sanitizeDue := true }) else d.sanitizeRun)

/-- SANITIZE_DONE: every step has ended, and PF0 is told (R501, R502). -/
def execSanitizeDone (s : State) : Host.Outcome State Fault Refusal :=
  onDev s (fun d =>
    if d.tr.sanitizing then ((d.upTr (fun t => { t with sanitizing := false })).secStatus .ok).post 0 (.other 0x3E) 0 0 else d)

end Sys2Proof.Machine
end

