-- ==== Sys2Proof/Machine/Dispatch.lean ====
section
/-! DEFINITION. One arm for each command. -/
namespace Sys2Proof.Machine

/-- The effect of a command on everything but the queue. -/
def exec (i : Instr) (s : State) : Host.Outcome State Fault Refusal :=
  match i with
  | .registerWrite fn off size val => Sys2Proof.Machine.execRegisterWrite fn off size val s
  | .rcRead fn off size => Sys2Proof.Machine.execRcRead fn off size s
  | .lowerHalfWrite off val => Sys2Proof.Machine.execLowerHalfWrite off val s
  | .upperHalfWrite off val => Sys2Proof.Machine.execUpperHalfWrite off val s
  | .lowerHalfRead off => Sys2Proof.Machine.execLowerHalfRead off s
  | .load => Sys2Proof.Machine.execLoad s
  | .commit => Sys2Proof.Machine.execCommit s
  | .abort => Sys2Proof.Machine.execAbort s
  | .imageCopyDone rd => Sys2Proof.Machine.execImageCopyDone rd s
  | .imageVerifyDone => Sys2Proof.Machine.execImageVerifyDone s
  | .partitionDrainDone p => Sys2Proof.Machine.execPartitionDrainDone p s
  | .drainLimitExpiry p => Sys2Proof.Machine.execDrainLimitExpiry p s
  | .tileStart => Sys2Proof.Machine.execTileStart s
  | .add t h b => Sys2Proof.Machine.execAdd t h b s
  | .sub t h b => Sys2Proof.Machine.execSub t h b s
  | .mul t h b => Sys2Proof.Machine.execMul t h b s
  | .and t h b => Sys2Proof.Machine.execAnd t h b s
  | .or t h b => Sys2Proof.Machine.execOr t h b s
  | .xor t h b => Sys2Proof.Machine.execXor t h b s
  | .shl t h b => Sys2Proof.Machine.execShl t h b s
  | .shr t h b => Sys2Proof.Machine.execShr t h b s
  | .sra t h b => Sys2Proof.Machine.execSra t h b s
  | .min t h b => Sys2Proof.Machine.execMin t h b s
  | .max t h b => Sys2Proof.Machine.execMax t h b s
  | .minu t h b => Sys2Proof.Machine.execMinu t h b s
  | .maxu t h b => Sys2Proof.Machine.execMaxu t h b s
  | .li t h f => Sys2Proof.Machine.execLi t h f s
  | .lui t h f => Sys2Proof.Machine.execLui t h f s
  | .cmp t h b => Sys2Proof.Machine.execCmp t h b s
  | .plog t h f => Sys2Proof.Machine.execPlog t h f s
  | .ld t h f => Sys2Proof.Machine.execLd t h f s
  | .st t h f => Sys2Proof.Machine.execSt t h f s
  | .br t h f => Sys2Proof.Machine.execBr t h f s
  | .call t h f => Sys2Proof.Machine.execCall t h f s
  | .ret t h f => Sys2Proof.Machine.execRet t h f s
  | .loop t h f => Sys2Proof.Machine.execLoop t h f s
  | .vadd t h f => Sys2Proof.Machine.execVadd t h f s
  | .vsub t h f => Sys2Proof.Machine.execVsub t h f s
  | .vmul t h f => Sys2Proof.Machine.execVmul t h f s
  | .vfma t h f => Sys2Proof.Machine.execVfma t h f s
  | .vdiv t h f => Sys2Proof.Machine.execVdiv t h f s
  | .vrcp t h f => Sys2Proof.Machine.execVrcp t h f s
  | .vsqrt t h f => Sys2Proof.Machine.execVsqrt t h f s
  | .vrsq t h f => Sys2Proof.Machine.execVrsq t h f s
  | .vexp2 t h f => Sys2Proof.Machine.execVexp2 t h f s
  | .vexp t h f => Sys2Proof.Machine.execVexp t h f s
  | .vlog2 t h f => Sys2Proof.Machine.execVlog2 t h f s
  | .vlog t h f => Sys2Proof.Machine.execVlog t h f s
  | .vtanh t h f => Sys2Proof.Machine.execVtanh t h f s
  | .vsig t h f => Sys2Proof.Machine.execVsig t h f s
  | .vsilu t h f => Sys2Proof.Machine.execVsilu t h f s
  | .vmin t h f => Sys2Proof.Machine.execVmin t h f s
  | .vmax t h f => Sys2Proof.Machine.execVmax t h f s
  | .vcmp t h f => Sys2Proof.Machine.execVcmp t h f s
  | .vsel t h f => Sys2Proof.Machine.execVsel t h f s
  | .vabs t h f => Sys2Proof.Machine.execVabs t h f s
  | .vneg t h f => Sys2Proof.Machine.execVneg t h f s
  | .vcvt t h f => Sys2Proof.Machine.execVcvt t h f s
  | .viop t h f => Sys2Proof.Machine.execViop t h f s
  | .vred t h f => Sys2Proof.Machine.execVred t h f s
  | .vqmx t h f => Sys2Proof.Machine.execVqmx t h f s
  | .vdqmx t h f => Sys2Proof.Machine.execVdqmx t h f s
  | .vbcst t h f => Sys2Proof.Machine.execVbcst t h f s
  | .vld t h f => Sys2Proof.Machine.execVld t h f s
  | .vst t h f => Sys2Proof.Machine.execVst t h f s
  | .vldn t h f => Sys2Proof.Machine.execVldn t h f s
  | .vstn t h f => Sys2Proof.Machine.execVstn t h f s
  | .mma t h f => Sys2Proof.Machine.execMma t h f s
  | .accumulatorReady t acc => Sys2Proof.Machine.execAccumulatorReady t acc s
  | .mwr t h f => Sys2Proof.Machine.execMwr t h f s
  | .mld t h f => Sys2Proof.Machine.execMld t h f s
  | .mst t h f => Sys2Proof.Machine.execMst t h f s
  | .mzero t h f => Sys2Proof.Machine.execMzero t h f s
  | .smchk t h f => Sys2Proof.Machine.execSmchk t h f s
  | .bmpop t h f => Sys2Proof.Machine.execBmpop t h f s
  | .bmidx t h f => Sys2Proof.Machine.execBmidx t h f s
  | .dma t h f => Sys2Proof.Machine.execDma t h f s
  | .dmaWait t h f => Sys2Proof.Machine.execDmaWait t h f s
  | .tileDmaDone t ctx rd => Sys2Proof.Machine.execTileDmaDone t ctx rd s
  | .send t h f => Sys2Proof.Machine.execSend t h f s
  | .recv t h f => Sys2Proof.Machine.execRecv t h f s
  | .recvAny t h f => Sys2Proof.Machine.execRecvAny t h f s
  | .messageArrival t mb => Sys2Proof.Machine.execMessageArrival t mb s
  | .bar t h f => Sys2Proof.Machine.execBar t h f s
  | .fence t h f => Sys2Proof.Machine.execFence t h f s
  | .ataddI t h f => Sys2Proof.Machine.execAtaddI t h f s
  | .atminI t h f => Sys2Proof.Machine.execAtminI t h f s
  | .atmaxI t h f => Sys2Proof.Machine.execAtmaxI t h f s
  | .ataddF t h f => Sys2Proof.Machine.execAtaddF t h f s
  | .nop t h f => Sys2Proof.Machine.execNop t h f s
  | .halt t h f => Sys2Proof.Machine.execHalt t h f s
  | .tileHalted t => Sys2Proof.Machine.execTileHalted t s
  | .rdflag t h f => Sys2Proof.Machine.execRdflag t h f s
  | .clrflag t h f => Sys2Proof.Machine.execClrflag t h f s
  | .seed t h f => Sys2Proof.Machine.execSeed t h f s
  | .rdid t h f => Sys2Proof.Machine.execRdid t h f s
  | .rdcyc t h f => Sys2Proof.Machine.execRdcyc t h f s
  | .rdptime t h f => Sys2Proof.Machine.execRdptime t h f s
  | .rdtrng t h f => Sys2Proof.Machine.execRdtrng t h f s
  | .stallLimit t => Sys2Proof.Machine.execStallLimit t s
  | .tileStopped t => Sys2Proof.Machine.execTileStopped t s
  | .tileRestart c mask => Sys2Proof.Machine.execTileRestart c mask s
  | .register count => Sys2Proof.Machine.execRegister count s
  | .unregister count => Sys2Proof.Machine.execUnregister count s
  | .blockCmdDone => Sys2Proof.Machine.execBlockCmdDone s
  | .placementEpochEnd takers => Sys2Proof.Machine.execPlacementEpochEnd takers s
  | .moveStart p => Sys2Proof.Machine.execMoveStart p s
  | .copyPassDone entry => Sys2Proof.Machine.execCopyPassDone entry s
  | .moveSwitch entry => Sys2Proof.Machine.execMoveSwitch entry s
  | .lastReaderDone entry => Sys2Proof.Machine.execLastReaderDone entry s
  | .scrubPass addr => Sys2Proof.Machine.execScrubPass addr s
  | .clusterClearDone c => Sys2Proof.Machine.execClusterClearDone c s
  | .refresh => Sys2Proof.Machine.execRefresh s
  | .periodicRetraining => Sys2Proof.Machine.execPeriodicRetraining s
  | .fullRetraining => Sys2Proof.Machine.execFullRetraining s
  | .place h part layer expert rank frame => Sys2Proof.Machine.execPlace h part layer expert rank frame s
  | .placementFrameSwitch index => Sys2Proof.Machine.execPlacementFrameSwitch index s
  | .switchAcknowledgement src index => Sys2Proof.Machine.execSwitchAcknowledgement src index s
  | .zoneCounterWrite fn off size poisoned => Sys2Proof.Machine.execZoneCounterWrite fn off size poisoned s
  | .dispatchFire qid => Sys2Proof.Machine.execDispatchFire qid s
  | .batchLeave die slot expert opens => Sys2Proof.Machine.execBatchLeave die slot expert opens s
  | .doneMessage die => Sys2Proof.Machine.execDoneMessage die s
  | .batchTimeout id => Sys2Proof.Machine.execBatchTimeout id s
  | .remoteBatch src => Sys2Proof.Machine.execRemoteBatch src s
  | .remoteResult src => Sys2Proof.Machine.execRemoteResult src s
  | .resultFlag die slot => Sys2Proof.Machine.execResultFlag die slot s
  | .eptData0Read => Sys2Proof.Machine.execEptData0Read s
  | .epochNak n hdr payload => Sys2Proof.Machine.execEpochNak n hdr payload s
  | .trainingRestart n => Sys2Proof.Machine.execTrainingRestart n s
  | .trainingDone n lanes ok => Sys2Proof.Machine.execTrainingDone n lanes ok s
  | .admission n aligned => Sys2Proof.Machine.execAdmission n aligned s
  | .peerSilent n => Sys2Proof.Machine.execPeerSilent n s
  | .retrainDone n lanes => Sys2Proof.Machine.execRetrainDone n lanes s
  | .retrainLimit n => Sys2Proof.Machine.execRetrainLimit n s
  | .idle n hdr => Sys2Proof.Machine.execIdle n hdr s
  | .data n hdr payload => Sys2Proof.Machine.execData n hdr payload s
  | .linkNak n hdr => Sys2Proof.Machine.execLinkNak n hdr s
  | .ident n rank link strap leader committed podImage epoch => Sys2Proof.Machine.execIdent n rank link strap leader committed podImage epoch s
  | .echoReq n => Sys2Proof.Machine.execEchoReq n s
  | .echoRsp n rt hold => Sys2Proof.Machine.execEchoRsp n rt hold s
  | .switch h set frame epoch lost recal => Sys2Proof.Machine.execSwitch h set frame epoch lost recal s
  | .fault h reporter link state lost => Sys2Proof.Machine.execFault h reporter link state lost s
  | .fenceBroadcast h mask => Sys2Proof.Machine.execFenceBroadcast h mask s
  | .podtime h leader time frames en hops => Sys2Proof.Machine.execPodtime h leader time frames en hops s
  | .claim h rank => Sys2Proof.Machine.execClaim h rank s
  | .cmap h rank part data => Sys2Proof.Machine.execCmap h rank part data s
  | .podtimeSend => Sys2Proof.Machine.execPodtimeSend s
  | .claimSend => Sys2Proof.Machine.execClaimSend s
  | .leaderSilence => Sys2Proof.Machine.execLeaderSilence s
  | .electionClose => Sys2Proof.Machine.execElectionClose s
  | .switchFrame => Sys2Proof.Machine.execSwitchFrame s
  | .latencyRemeasure n rt hold => Sys2Proof.Machine.execLatencyRemeasure n rt hold s
  | .cmapIntervalEnd => Sys2Proof.Machine.execCmapIntervalEnd s
  | .onfFenceWrite w => Sys2Proof.Machine.execOnfFenceWrite w s
  | .onfRecal w => Sys2Proof.Machine.execOnfRecal w s
  | .routeCmdGo w => Sys2Proof.Machine.execRouteCmdGo w s
  | .retrain n w => Sys2Proof.Machine.execRetrain n w s
  | .linkDisable n w => Sys2Proof.Machine.execLinkDisable n w s
  | .collective qid => Sys2Proof.Machine.execCollective qid s
  | .gather die src => Sys2Proof.Machine.execGather die src s
  | .verdict die src => Sys2Proof.Machine.execVerdict die src s
  | .dataHdr die src => Sys2Proof.Machine.execDataHdr die src s
  | .commitReady group => Sys2Proof.Machine.execCommitReady group s
  | .collectiveCommit die src => Sys2Proof.Machine.execCollectiveCommit die src s
  | .release die src => Sys2Proof.Machine.execRelease die src s
  | .seqnumBase h group seq origin => Sys2Proof.Machine.execSeqnumBase h group seq origin s
  | .seqnumBaseAll h seq origin => Sys2Proof.Machine.execSeqnumBaseAll h seq origin s
  | .seqnumAbort h group anchor status seq members origin => Sys2Proof.Machine.execSeqnumAbort h group anchor status seq members origin s
  | .gatherHoldTimeout group => Sys2Proof.Machine.execGatherHoldTimeout group s
  | .memberWaitTimeout group => Sys2Proof.Machine.execMemberWaitTimeout group s
  | .seqBaseGo w => Sys2Proof.Machine.execSeqBaseGo w s
  | .lagClear w => Sys2Proof.Machine.execLagClear w s
  | .doorbell fn off size val => Sys2Proof.Machine.execDoorbell fn off size val s
  | .eqConsumerWord fn val => Sys2Proof.Machine.execEqConsumerWord fn val s
  | .peerWrite fn off bytes poisoned => Sys2Proof.Machine.execPeerWrite fn off bytes poisoned s
  | .bar4Read fn off => Sys2Proof.Machine.execBar4Read fn off s
  | .cxlMemAccess line data => Sys2Proof.Machine.execCxlMemAccess line data s
  | .createWq qid => Sys2Proof.Machine.execCreateWq qid s
  | .destroyWq qid => Sys2Proof.Machine.execDestroyWq qid s
  | .queryWq qid => Sys2Proof.Machine.execQueryWq qid s
  | .createEq target => Sys2Proof.Machine.execCreateEq target s
  | .destroyEq target => Sys2Proof.Machine.execDestroyEq target s
  | .queryEq target => Sys2Proof.Machine.execQueryEq target s
  | .entryFetch qid rd => Sys2Proof.Machine.execEntryFetch qid rd s
  | .refetch qid rd => Sys2Proof.Machine.execRefetch qid rd s
  | .entryCompletion qid => Sys2Proof.Machine.execEntryCompletion qid s
  | .completionWordWrite qid => Sys2Proof.Machine.execCompletionWordWrite qid s
  | .hostLinkLoss k => Sys2Proof.Machine.execHostLinkLoss k s
  | .linkRecovery k => Sys2Proof.Machine.execLinkRecovery k s
  | .cplTimeout k user => Sys2Proof.Machine.execCplTimeout k user s
  | .reinit k => Sys2Proof.Machine.execReinit k s
  | .rxFrame p bytes pcsErr corr uncorr => Sys2Proof.Machine.execRxFrame p bytes pcsErr corr uncorr s
  | .pauseExpiry p c => Sys2Proof.Machine.execPauseExpiry p c s
  | .pfcRepeat p c => Sys2Proof.Machine.execPfcRepeat p c s
  | .frameTransmit p => Sys2Proof.Machine.execFrameTransmit p s
  | .groupModeWrite val => Sys2Proof.Machine.execGroupModeWrite val s
  | .portTrainingDone p => Sys2Proof.Machine.execPortTrainingDone p s
  | .portDown p => Sys2Proof.Machine.execPortDown p s
  | .gateEntry p => Sys2Proof.Machine.execGateEntry p s
  | .gateGo p list en => Sys2Proof.Machine.execGateGo p list en s
  | .gateSwitch p => Sys2Proof.Machine.execGateSwitch p s
  | .ruleWrite => Sys2Proof.Machine.execRuleWrite s
  | .ruleRead => Sys2Proof.Machine.execRuleRead s
  | .saWrite => Sys2Proof.Machine.execSaWrite s
  | .saRead => Sys2Proof.Machine.execSaRead s
  | .ptpAdj step => Sys2Proof.Machine.execPtpAdj step s
  | .wheelSlot coarse slot => Sys2Proof.Machine.execWheelSlot coarse slot s
  | .txsSample => Sys2Proof.Machine.execTxsSample s
  | .hwmRead => Sys2Proof.Machine.execHwmRead s
  | .txtsRead p => Sys2Proof.Machine.execTxtsRead p s
  | .createQp qpn => Sys2Proof.Machine.execCreateQp qpn s
  | .modifyRtr qpn => Sys2Proof.Machine.execModifyRtr qpn s
  | .modifyRts qpn => Sys2Proof.Machine.execModifyRts qpn s
  | .toError qpn => Sys2Proof.Machine.execToError qpn s
  | .qpDrained qpn => Sys2Proof.Machine.execQpDrained qpn s
  | .destroyQp qpn => Sys2Proof.Machine.execDestroyQp qpn s
  | .queryQp qpn => Sys2Proof.Machine.execQueryQp qpn s
  | .createAh index => Sys2Proof.Machine.execCreateAh index s
  | .destroyAh index => Sys2Proof.Machine.execDestroyAh index s
  | .ctxCacheFlush => Sys2Proof.Machine.execCtxCacheFlush s
  | .qpSend qid rd => Sys2Proof.Machine.execQpSend qid rd s
  | .qpSendImm qid rd => Sys2Proof.Machine.execQpSendImm qid rd s
  | .qpWrite qid rd => Sys2Proof.Machine.execQpWrite qid rd s
  | .qpWriteImm qid rd => Sys2Proof.Machine.execQpWriteImm qid rd s
  | .qpRead qid => Sys2Proof.Machine.execQpRead qid s
  | .cmpSwap qid => Sys2Proof.Machine.execCmpSwap qid s
  | .fetchAdd qid => Sys2Proof.Machine.execFetchAdd qid s
  | .qpRecv qpn => Sys2Proof.Machine.execQpRecv qpn s
  | .triggeredStart qid rd => Sys2Proof.Machine.execTriggeredStart qid rd s
  | .requestPacket qpn => Sys2Proof.Machine.execRequestPacket qpn s
  | .triggerIncrement qpn => Sys2Proof.Machine.execTriggerIncrement qpn s
  | .readRequest qpn rd => Sys2Proof.Machine.execReadRequest qpn rd s
  | .atomicRequest qpn routed rd => Sys2Proof.Machine.execAtomicRequest qpn routed rd s
  | .acknowledge qpn => Sys2Proof.Machine.execAcknowledge qpn s
  | .sequenceErrorNak qpn => Sys2Proof.Machine.execSequenceErrorNak qpn s
  | .rnrNak qpn => Sys2Proof.Machine.execRnrNak qpn s
  | .errorNak qpn => Sys2Proof.Machine.execErrorNak qpn s
  | .readResponse qpn => Sys2Proof.Machine.execReadResponse qpn s
  | .atomicAcknowledge qpn => Sys2Proof.Machine.execAtomicAcknowledge qpn s
  | .udPacket qpn => Sys2Proof.Machine.execUdPacket qpn s
  | .cnp qpn => Sys2Proof.Machine.execCnp qpn s
  | .rttReq qpn => Sys2Proof.Machine.execRttReq qpn s
  | .rttRsp qpn => Sys2Proof.Machine.execRttRsp qpn s
  | .ackTimeout qpn => Sys2Proof.Machine.execAckTimeout qpn s
  | .rnrWaitExpiry qpn => Sys2Proof.Machine.execRnrWaitExpiry qpn s
  | .ackDelay qpn => Sys2Proof.Machine.execAckDelay qpn s
  | .unorderedGap qpn => Sys2Proof.Machine.execUnorderedGap qpn s
  | .alphaDecay qpn => Sys2Proof.Machine.execAlphaDecay qpn s
  | .timerIncrease qpn => Sys2Proof.Machine.execTimerIncrease qpn s
  | .byteIncrease qpn => Sys2Proof.Machine.execByteIncrease qpn s
  | .rttProbe qpn => Sys2Proof.Machine.execRttProbe qpn s
  | .regMr index => Sys2Proof.Machine.execRegMr index s
  | .revoke index => Sys2Proof.Machine.execRevoke index s
  | .revokeDone index => Sys2Proof.Machine.execRevokeDone index s
  | .queryMr index => Sys2Proof.Machine.execQueryMr index s
  | .setRoot target => Sys2Proof.Machine.execSetRoot target s
  | .clearRoot target => Sys2Proof.Machine.execClearRoot target s
  | .update rd => Sys2Proof.Machine.execUpdate rd s
  | .syncFence target => Sys2Proof.Machine.execSyncFence target s
  | .syncDone => Sys2Proof.Machine.execSyncDone s
  | .walkDone stream waited => Sys2Proof.Machine.execWalkDone stream waited s
  | .enable target => Sys2Proof.Machine.execEnable target s
  | .disable target => Sys2Proof.Machine.execDisable target s
  | .flr fn => Sys2Proof.Machine.execFlr fn s
  | .vfEnableClear => Sys2Proof.Machine.execVfEnableClear s
  | .fnDrainDone fn => Sys2Proof.Machine.execFnDrainDone fn s
  | .drainStuck fn => Sys2Proof.Machine.execDrainStuck fn s
  | .forceClear target => Sys2Proof.Machine.execForceClear target s
  | .freeze target => Sys2Proof.Machine.execFreeze target s
  | .freezeDone fn => Sys2Proof.Machine.execFreezeDone fn s
  | .cancel target => Sys2Proof.Machine.execCancel target s
  | .save target => Sys2Proof.Machine.execSave target s
  | .restore target rd => Sys2Proof.Machine.execRestore target rd s
  | .fnMboxSend fn => Sys2Proof.Machine.execFnMboxSend fn s
  | .fnMboxAck fn => Sys2Proof.Machine.execFnMboxAck fn s
  | .pf0MboxSend fn => Sys2Proof.Machine.execPf0MboxSend fn s
  | .pf0MboxAck fn => Sys2Proof.Machine.execPf0MboxAck fn s
  | .import slot rd => Sys2Proof.Machine.execImport slot rd s
  | .erase slot => Sys2Proof.Machine.execErase slot s
  | .keyOverwrite slot => Sys2Proof.Machine.execKeyOverwrite slot s
  | .query slot => Sys2Proof.Machine.execQuery slot s
  | .xtsEncrypt qid => Sys2Proof.Machine.execXtsEncrypt qid s
  | .xtsDecrypt qid => Sys2Proof.Machine.execXtsDecrypt qid s
  | .unitDone stream rd => Sys2Proof.Machine.execUnitDone stream rd s
  | .rngHealthFail pipe again => Sys2Proof.Machine.execRngHealthFail pipe again s
  | .advanceRollback v => Sys2Proof.Machine.execAdvanceRollback v s
  | .fuseBlowDone blown => Sys2Proof.Machine.execFuseBlowDone blown s
  | .debugToken rd => Sys2Proof.Machine.execDebugToken rd s
  | .sanitize => Sys2Proof.Machine.execSanitize s
  | .sanitizeDone => Sys2Proof.Machine.execSanitizeDone s
  | .programOwnerKey rd => Sys2Proof.Machine.execProgramOwnerKey rd s
  | .aliasCertDone => Sys2Proof.Machine.execAliasCertDone s
  | .getVersion mctp => Sys2Proof.Machine.execGetVersion mctp s
  | .getCapabilities mctp => Sys2Proof.Machine.execGetCapabilities mctp s
  | .negotiateAlgorithms mctp => Sys2Proof.Machine.execNegotiateAlgorithms mctp s
  | .getDigests mctp => Sys2Proof.Machine.execGetDigests mctp s
  | .getCertificate mctp slot off len => Sys2Proof.Machine.execGetCertificate mctp slot off len s
  | .challenge mctp slot summary nonce => Sys2Proof.Machine.execChallenge mctp slot summary nonce s
  | .getMeasurements mctp index signed nonce => Sys2Proof.Machine.execGetMeasurements mctp index signed nonce s
  | .unsupportedSpdmRequest mctp => Sys2Proof.Machine.execUnsupportedSpdmRequest mctp s
  | .signatureDone => Sys2Proof.Machine.execSignatureDone s
  | .errorDetect site => Sys2Proof.Machine.execErrorDetect site s
  | .retryDone site cls => Sys2Proof.Machine.execRetryDone site cls s
  | .dupMismatch block machine inst again => Sys2Proof.Machine.execDupMismatch block machine inst again s
  | .fenceCmd w => Sys2Proof.Machine.execFenceCmd w s
  | .logData0Read => Sys2Proof.Machine.execLogData0Read s
  | .pwrokRise => Sys2Proof.Machine.execPwrokRise s
  | .pwrokFall => Sys2Proof.Machine.execPwrokFall s
  | .coldResetRelease split cxl leader testen smb => Sys2Proof.Machine.execColdResetRelease split cxl leader testen smb s
  | .kettleLock => Sys2Proof.Machine.execKettleLock s
  | .initDone => Sys2Proof.Machine.execInitDone s
  | .coldPin => Sys2Proof.Machine.execColdPin s
  | .warmPin => Sys2Proof.Machine.execWarmPin s
  | .brownout => Sys2Proof.Machine.execBrownout s
  | .kettleLoss => Sys2Proof.Machine.execKettleLoss s
  | .thermtrip => Sys2Proof.Machine.execThermtrip s
  | .perst n => Sys2Proof.Machine.execPerst n s
  | .pwrbrakeAssert => Sys2Proof.Machine.execPwrbrakeAssert s
  | .pwrbrakeRelease => Sys2Proof.Machine.execPwrbrakeRelease s
  | .brakeStepDown => Sys2Proof.Machine.execBrakeStepDown s
  | .standby => Sys2Proof.Machine.execStandby s
  | .standbyDone => Sys2Proof.Machine.execStandbyDone s
  | .wake => Sys2Proof.Machine.execWake s
  | .wakeDone => Sys2Proof.Machine.execWakeDone s
  | .warmReset => Sys2Proof.Machine.execWarmReset s
  | .warmResetDone => Sys2Proof.Machine.execWarmResetDone s
  | .pf0Flr => Sys2Proof.Machine.execPf0Flr s
  | .powerEstimate now => Sys2Proof.Machine.execPowerEstimate now s
  | .capCheck => Sys2Proof.Machine.execCapCheck s
  | .sensorScan readings => Sys2Proof.Machine.execSensorScan readings s
  | .thermalRaise => Sys2Proof.Machine.execThermalRaise s
  | .thermalLower => Sys2Proof.Machine.execThermalLower s
  | .dividerChange => Sys2Proof.Machine.execDividerChange s
  | .bistGroupStart g => Sys2Proof.Machine.execBistGroupStart g s
  | .bistGroupDone g fails us => Sys2Proof.Machine.execBistGroupDone g fails us s
  | .svcOnaudLink index => Sys2Proof.Machine.execSvcOnaudLink index s
  | .svcD2dSpares index => Sys2Proof.Machine.execSvcD2dSpares index s
  | .svcEthPort index => Sys2Proof.Machine.execSvcEthPort index s
  | .linkQuiet n => Sys2Proof.Machine.execLinkQuiet n s
  | .quietTimeout n => Sys2Proof.Machine.execQuietTimeout n s
  | .prbsDone first again reason => Sys2Proof.Machine.execPrbsDone first again reason s
  | .svcRestoreDone n lanes lat ok => Sys2Proof.Machine.execSvcRestoreDone n lanes lat ok s
  | .setEndpointId eid => Sys2Proof.Machine.execSetEndpointId eid s
  | .getEndpointId => Sys2Proof.Machine.execGetEndpointId s
  | .getEndpointUuid => Sys2Proof.Machine.execGetEndpointUuid s
  | .getMctpVersionSupport type => Sys2Proof.Machine.execGetMctpVersionSupport type s
  | .getMessageTypeSupport => Sys2Proof.Machine.execGetMessageTypeSupport s
  | .settid tid => Sys2Proof.Machine.execSettid tid s
  | .gettid => Sys2Proof.Machine.execGettid s
  | .getpldmversion type => Sys2Proof.Machine.execGetpldmversion type s
  | .getpldmtypes => Sys2Proof.Machine.execGetpldmtypes s
  | .getpldmcommands type => Sys2Proof.Machine.execGetpldmcommands type s
  | .getsensorreading sensor => Sys2Proof.Machine.execGetsensorreading sensor s
  | .getstatesensorreadings sensor => Sys2Proof.Machine.execGetstatesensorreadings sensor s
  | .setnumericsensorenable sensor on => Sys2Proof.Machine.execSetnumericsensorenable sensor on s
  | .setstatesensorenables sensor on => Sys2Proof.Machine.execSetstatesensorenables sensor on s
  | .getpdrrepositoryinfo => Sys2Proof.Machine.execGetpdrrepositoryinfo s
  | .getpdr handle => Sys2Proof.Machine.execGetpdr handle s
  | .pollforplatformeventmessage => Sys2Proof.Machine.execPollforplatformeventmessage s
  | .unsupportedPldmCmd type command => Sys2Proof.Machine.execUnsupportedPldmCmd type command s
  | .getBst => Sys2Proof.Machine.execGetBst s
  | .getRecord entry => Sys2Proof.Machine.execGetRecord entry s
  | .getState => Sys2Proof.Machine.execGetState s
  | .vendorWarmReset => Sys2Proof.Machine.execVendorWarmReset s
  | .alertResponse => Sys2Proof.Machine.execAlertResponse s
  | .crcFailure n => Sys2Proof.Machine.execCrcFailure n s
  | .frameStart => Sys2Proof.Machine.execFrameStart s
  | .referenceClockLoss ref => Sys2Proof.Machine.execReferenceClockLoss ref s
  | .referenceClockReturn g => Sys2Proof.Machine.execReferenceClockReturn g s
  | .perstRelease n => Sys2Proof.Machine.execPerstRelease n s
  | .hostLinkUp k gen width flit cxl => Sys2Proof.Machine.execHostLinkUp k gen width flit cxl s
  | .vfEnableSet num => Sys2Proof.Machine.execVfEnableSet num s
  | .railsWithinTolerance => Sys2Proof.Machine.execRailsWithinTolerance s
  | .tapInstruction instr => Sys2Proof.Machine.execTapInstruction instr s
  | .unsupportedMessageType type => Sys2Proof.Machine.execUnsupportedMessageType type s
  | .pecError => Sys2Proof.Machine.execPecError s
  | .unknownVendorCommand command => Sys2Proof.Machine.execUnknownVendorCommand command s

end Sys2Proof.Machine
end

