-- ==== Sys2Proof/Machine/Tick.lean ====
section
/-! DEFINITION. What happens while no command waits: time passes by one TCLK cycle, and one tile issues the instruction at its PC
(DESIGN CHOICE, log entries 1 and 2). -/
namespace Sys2Proof.Machine
open Sys2Proof

/-- The PTP clock after one TCLK cycle (R373). -/
def Dev.ptpTick (d : Dev) : Dev :=
  let n := d.eth.frac + d.fget Reg.ETH_PTP_INCR_INCR
  (d.regSet Reg.ETH_PTP_NS (d.regGet Reg.ETH_PTP_NS + BitVec.ofNat 64 (n / 2 ^ 24))).upEth (fun e => { e with frac := n % 2 ^ 24 })

/-- A class whose credit is negative regains it at IDLE_SLOPE for 10 ns, unless it is paused or its gate is closed (R363). -/
def Dev.cbsTick (d : Dev) : Dev :=
  d.upTxs (fun t => { t with cbs := t.cbs.mapVal (fun k c =>
    let p := k / 8
    let open_ := (d.gatesAt p d.ptp).2.1.testBit (k % 8)
    if c < 0 ∧ d.fbit (Reg.ETH_PORTp_STATUS_PAUSED p) (k % 8) = false ∧ open_ = true then
      min 0 (c + ((d.idleSlope p (k % 8) * d.portRate p / 800 : Nat) : Int))
    else c) })

/-- One TCLK cycle, 10 ns. -/
def Dev.tick (d : Dev) : Dev :=
  let d := { d with clk := d.clk + 10 }
  if !d.alive then d
  else
    let d := (d.regSet Reg.ONF_PODTIME (d.regGet Reg.ONF_PODTIME + 10)).ptpTick.cbsTick
    if d.fget Reg.PWR_THROTTLE_NOTCH = 0 then d else d.finc Reg.PWR_THROT_TIME_COUNT

/-- The next RUNNING tile, from the one whose turn it is. -/
def Dev.turnTile (d : Dev) : Option Nat :=
  (((List.range 512).map (fun i => (d.tl.turn + i) % 512)).find? (fun t => decide ((d.tile t).phase = .running)))

/-- A tick of the idle block: time passes, and the tile whose turn it is issues its next instruction; a word that spells none raises
the illegal-instruction exception (R122). -/
def idle (s : State) : Host.Outcome State Fault Refusal :=
  let d := s.dev.tick
  match d.turnTile with
  | none => .next { s with dev := d }
  | some t =>
    let d := d.upTl (fun x => { x with turn := (t + 1) % 512 })
    match tileDecode (Fin.ofNat 512 t) (d.fetchWord t (d.tile t).pc) with
    | some i => exec i { s with dev := d }
    | none => .next { s with dev := d.tileTrap t .illegalInstruction 0 }

end Sys2Proof.Machine
end

