-- ==== Sys2Proof/Safety.lean ====
section
/-! DEFINITION. What counts as a safe step, and the vocabulary of the statements. -/
namespace Sys2Proof.Machine
open Sys2Proof

/-- A step is safe when it answers a next state whose memory keeps its canonical form. -/
def SafeStep (s : State) : Prop := ∃ t, step s = .next t ∧ t.dev.mem.ram.wf = true

/-- Run the block for `n` steps, as long as each answers a next state. -/
def runSteps : Nat → State → Host.Outcome State Fault Refusal
  | 0, s => .next s
  | n + 1, s =>
    match step s with
    | .next t => runSteps n t
    | r => r

/-- A tile is RUNNING (R136, R137). -/
def Runs (d : Dev) (t : Fin 512) : Prop := (d.tile t).phase = .running

/-- A tile is RUNNING and bit 0 of the lane mask that an instruction's head selects is 1, so that a scalar instruction
acts (R120, R123). -/
def Issues (d : Dev) (t : Fin 512) (h : Head) : Prop := Runs d t ∧ ((d.tile t).mask h).getLsbD 0 = true

/-- The state with another block. -/
def State.withDev (s : State) (d : Dev) : State := { s with dev := d }

/-- The state after an instruction of tile `t` that leaves the block `d` and goes on in sequence (R131). -/
def State.seqAfter (s : State) (t : Fin 512) (d : Dev) : State := s.withDev (d.advance t)

/-- The state after an instruction that makes tile `t` be `x`, changes nothing else and goes on in sequence.  Each issue
takes one number of the free values' count (log entry 4). -/
def State.tileDone (s : State) (t : Fin 512) (x : Tile) : State := s.seqAfter t (s.dev.bump.setTile t x)

/-- The state after an instruction of tile `t` that raises an exception (R137). -/
def State.tileTrapped (s : State) (t : Fin 512) (c : Cause) (addr : Nat) : State := s.withDev (s.dev.bump.tileTrap t c addr)

/-- The state after an instruction of tile `t` that waits. -/
def State.tileWaits (s : State) (t : Fin 512) (w : WaitKind) : State :=
  s.withDev (s.dev.bump.updTile t (fun x => { x with wait := some w }))

/-- A block takes a command: out of reset, not in STANDBY and its BUSY bit clear (R545 and each block's STATUS register). -/
def Takes (d : Dev) (busy : RegField) : Prop := d.alive = true ∧ d.inStandby = false ∧ d.fon busy = false

/-- A sequenced control cell is taken at a link: it is the cell the link expects and comes from a rank that is not fenced
(R243, R263); `e` is the block once the link has taken it. -/
def CtlTaken (d : Dev) (h : CtlHead) (e : Dev) : Prop := d.takeCell h.link.val h.hdr = (e, true) ∧ e.rankFenced (e.mapRank h.link.val) = false

/-- A packet `x` of a row of the table is taken by QP `n`, whose context is `q`: RTS, its function not frozen; `e` is the block once
the packet's ECN mark is noted (R384, R401, R414). -/
def RxTaken (d : Dev) (n row : Nat) (x : RxPkt) (q : Qp) (e : Dev) : Prop :=
  d.live = true ∧ ∃ g : Dev, d.takeRx n (fun y => decide (d.pktRow n y = row)) = some (x, g) ∧ x.rank = none ∧ g.qp n = some q ∧ q.state = 3 ∧
    g.fnState q.fn = 1 ∧ g.ecnNote n q x = e

end Sys2Proof.Machine
end

