-- ==== Sys2Proof/Certificates/Slice0/Obligations.lean ====
section
/-! DEFINITION. The statements for the provers. -/
open Sys2Proof Sys2Proof.Machine

/-- Scalar arithmetic, logic and shifts (R120, R123, R125). For a RUNNING tile whose predicate bit 0 is true, ADD to MAXU
answer the next state in which s(D) holds the operation of s(A) and "sb or imm" (shifts by bits [5:0], MIN and MAX
signed), nothing else of the tile changes but the PC, and execution goes on in sequence. -/
def Obligations.ScalarAluResults : Prop :=
  ∀ (s : State) (t : Fin 512) (h : Head) (b : SrcB), Issues s.dev t h →
    let x := s.dev.tile t
    let p := x.sr (srcA b).toNat
    let q := srcVal x b
    let put := fun v : W64 => Host.Outcome.next (s.tileDone t (x.setS (srcD b).toNat v))
    exec (.add t h b) s = put (p + q) ∧ exec (.sub t h b) s = put (p - q) ∧ exec (.mul t h b) s = put (p * q) ∧
    exec (.and t h b) s = put (p &&& q) ∧ exec (.or t h b) s = put (p ||| q) ∧ exec (.xor t h b) s = put (p ^^^ q) ∧
    exec (.shl t h b) s = put (p <<< (q.toNat % 64)) ∧ exec (.shr t h b) s = put (p >>> (q.toNat % 64)) ∧
    exec (.sra t h b) s = put (p.sshiftRight (q.toNat % 64)) ∧
    exec (.min t h b) s = put (if p.toInt < q.toInt then p else q) ∧ exec (.max t h b) s = put (if p.toInt < q.toInt then q else p) ∧
    exec (.minu t h b) s = put (if p.toNat < q.toNat then p else q) ∧ exec (.maxu t h b) s = put (if p.toNat < q.toNat then q else p)

/-- LI, LUI, CMP and PLOG (R119, R120, R125, R607). LI sign-extends, LUI replaces the upper half and keeps the lower,
CMP.cc writes all 32 bits of p(D) with the comparison that MOD[2:0] names (codes 6 and 7 raise the illegal-operand
exception), PLOG.op combines two predicates; a write to p0 changes nothing. -/
def Obligations.ScalarMoveResults : Prop :=
  ∀ (s : State) (t : Fin 512) (h : Head), Issues s.dev t h →
    let x := s.dev.tile t
    let done := fun y : Tile => Host.Outcome.next (s.tileDone t y)
    (∀ f : FmtI, exec (.li t h f) s = done (x.setS f.d.toNat (f.imm.signExtend 64))) ∧
    (∀ f : FmtI, exec (.lui t h f) s = done (x.setS f.d.toNat (f.imm ++ (x.sr f.d.toNat).extractLsb' 0 32))) ∧
    (∀ b : SrcB, (srcD b).toNat < 8 →
      let p := x.sr (srcA b).toNat
      let q := srcVal x b
      let put := fun r : Bool => exec (.cmp t h b) s = done (x.setP (srcD b).toNat (if r then 0xFFFFFFFF else 0))
      (srcMod b % 8 = 0 → put (decide (p = q))) ∧ (srcMod b % 8 = 1 → put (decide (p ≠ q))) ∧
      (srcMod b % 8 = 2 → put (decide (p.toInt < q.toInt))) ∧ (srcMod b % 8 = 3 → put (decide (p.toInt ≤ q.toInt))) ∧
      (srcMod b % 8 = 4 → put (decide (p.toNat < q.toNat))) ∧ (srcMod b % 8 = 5 → put (decide (p.toNat ≤ q.toNat)))) ∧
    (∀ b : SrcB, 6 ≤ srcMod b % 8 → exec (.cmp t h b) s = .next (s.tileTrapped t .illegalOperand 0)) ∧
    (∀ f : FmtR, f.d.toNat < 8 → f.a.toNat < 8 → f.b.toNat < 8 →
      let p := x.pr f.a.toNat
      let q := x.pr f.b.toNat
      let put := fun v : W32 => exec (.plog t h f) s = done (x.setP f.d.toNat v)
      (modR f 0 2 = 0 → put (p &&& q)) ∧ (modR f 0 2 = 1 → put (p ||| q)) ∧ (modR f 0 2 = 2 → put (p ^^^ q)) ∧
      (modR f 0 2 = 3 → put (p &&& ~~~q))) ∧
    (∀ v : W32, x.setP 0 v = x)

/-- LD and ST (R125, R134, R607). LD.w reads w bytes at s(A) + OFFSET, zero-extended, into s(D); ST.w writes the low w
bytes of s(D) there and nothing else; a misaligned address raises the illegal-operand exception and an address the
tile may not reach the exception it names, and a cluster memory being cleared is waited for. -/
def Obligations.ScalarMemoryResults : Prop :=
  ∀ (s : State) (t : Fin 512) (h : Head) (f : FmtIM), Issues s.dev t h →
    let d := s.dev.bump
    let x := d.tile t
    let n := 2 ^ modIM f 14 2
    let a := addrIM f x
    (∀ p, a % n = 0 → d.resolve t true true false a n = .ok p → d.racing p n = false →
      exec (.ld t h f) s = .next (s.seqAfter t ((d.noteAccess false p n).updTile t (fun x =>
        x.setS f.d.toNat (BitVec.ofNat 64 (leNat (d.memBytes p n))))))) ∧
    (∀ p, a % n = 0 → d.resolve t true true true a (leBytes n (x.sr f.d.toNat).toNat).length = .ok p → d.writeSpoilt p (leBytes n (x.sr f.d.toNat).toNat).length = false →
      exec (.st t h f) s = .next (s.seqAfter t (d.memWrite p (leBytes n (x.sr f.d.toNat).toNat)))) ∧
    (a % n ≠ 0 → exec (.ld t h f) s = .next (s.tileTrapped t .illegalOperand a) ∧
      exec (.st t h f) s = .next (s.tileTrapped t .illegalOperand a)) ∧
    (∀ c, a % n = 0 → d.resolve t true true false a n = .bad c → exec (.ld t h f) s = .next (s.tileTrapped t c a)) ∧
    (a % n = 0 → d.resolve t true true false a n = .busy → exec (.ld t h f) s = .next (s.tileWaits t .memory))

/-- BR, CALL, RET and LOOP (R125, R131, R132, R133). BR goes to PC + imm; CALL pushes PC + 1 and goes there, a ninth
raising the illegal-instruction exception; RET pops the return address and discards every loop of the depth it leaves,
on an empty stack raising that exception; LOOP opens a loop of the following imm instructions, skips them for a count
of 0 and is an illegal operand with 4 loops active. -/
def Obligations.FlowResults : Prop :=
  ∀ (s : State) (t : Fin 512) (h : Head), Issues s.dev t h →
    let d := s.dev.bump
    let x := d.tile t
    (∀ f : FmtI, exec (.br t h f) s = .next (s.withDev (d.branchTo t (x.pc + f.imm.toInt)))) ∧
    (∀ f : FmtI, x.calls.length < 8 →
      exec (.call t h f) s = .next (s.withDev ((d.setTile t { x with calls := (x.pc + 1) :: x.calls }).branchTo t (x.pc + f.imm.toInt)))) ∧
    (∀ f : FmtI, 8 ≤ x.calls.length → exec (.call t h f) s = .next (s.tileTrapped t .illegalInstruction 0)) ∧
    (∀ (f : FmtR) r rest, x.calls = r :: rest → exec (.ret t h f) s = .next (s.withDev
      ((d.setTile t { x with calls := rest, loops := x.loops.filter (fun l => decide (l.depth < x.calls.length)) }).seqTo t r))) ∧
    (∀ f : FmtR, x.calls = [] → exec (.ret t h f) s = .next (s.tileTrapped t .illegalInstruction 0)) ∧
    (∀ f : FmtI, 1 ≤ f.imm.toNat → f.imm.toNat ≤ 8191 → x.loops.length < 4 →
      (x.sr f.a.toNat ≠ 0 → exec (.loop t h f) s = .next (s.seqAfter t (d.setTile t { x with
        loops := ⟨x.pc + 1, x.pc + 1 + f.imm.toNat, (x.sr f.a.toNat).toNat, x.calls.length⟩ :: x.loops }))) ∧
      (x.sr f.a.toNat = 0 → exec (.loop t h f) s = .next (s.withDev (d.seqTo t (x.pc + 1 + f.imm.toNat))))) ∧
    (∀ f : FmtI, 4 ≤ x.loops.length → exec (.loop t h f) s = .next (s.tileTrapped t .illegalOperand 0))

/-- What follows an instruction (R131, R132, R133). After NOP the PC is PC + 1 where no loop of this call depth ends
there; a loop that ends there with iterations left starts again with one fewer, and one without is closed; past
CODE_LEN the tile takes the illegal-instruction exception and stops. -/
def Obligations.SequenceRules : Prop :=
  ∀ (s : State) (t : Fin 512) (h : Head) (f : FmtR), Issues s.dev t h →
    let d := s.dev.bump
    let x := d.tile t
    let n := x.pc + 1
    (n < d.codeLen t → (∀ l r, x.loops = l :: r → l.depth ≠ x.calls.length ∨ n ≠ l.stop) →
      exec (.nop t h f) s = .next (s.withDev (d.setTile t { x with pc := n, wait := none }))) ∧
    (∀ l r, x.loops = l :: r → l.depth = x.calls.length → n = l.stop → 1 < l.left → l.start < d.codeLen t →
      exec (.nop t h f) s = .next (s.withDev (d.setTile t
        { x with pc := l.start, loops := { l with left := l.left - 1 } :: r, wait := none }))) ∧
    (∀ l, x.loops = [l] → l.depth = x.calls.length → n = l.stop → l.left ≤ 1 → n < d.codeLen t →
      exec (.nop t h f) s = .next (s.withDev (d.setTile t { x with pc := n, loops := [], wait := none }))) ∧
    (d.codeLen t ≤ n → x.loops = [] → ∃ u, exec (.nop t h f) s = .next u ∧ (u.dev.tile t).phase = .stopping ∧
      u.dev.fget (Reg.CLU_TILE_CAUSEt_CAUSE (clusterOf t) (t % 16)) = 1 ∧ u.dev.mem = s.dev.mem)

/-- Lane-by-lane FP32 instructions (R110, R114, R120, R125). A RUNNING tile's VADD to VNEG answer the next state in which
each lane of v(D) whose mask bit is 1 holds the operation of that lane of va, vb and vc, every other lane its old
value, and AFLAGS has gained the flags of the lanes whose mask bit is 1. -/
def Obligations.VectorLaneResults : Prop :=
  ∀ (s : State) (t : Fin 512) (h : Head) (f : FmtR), Runs s.dev t →
    let x := s.dev.tile t
    let m := x.mask h
    let a := fun i => lane (x.vr f.a.toNat) i
    let b := fun i => lane (x.vr f.b.toNat) i
    let c := fun i => lane (x.vr f.c.toNat) i
    let put := fun g : Nat → Flagged W32 => Host.Outcome.next (s.tileDone t ((x.setV f.d.toNat
      (listOf 32 (fun i => if m.getLsbD i then (g i).val else lane (x.vr f.d.toNat) i))).raise (laneFlags m (fun i => (g i).fl))))
    exec (.vadd t h f) s = put (fun i => fAdd (a i) (b i)) ∧ exec (.vsub t h f) s = put (fun i => fAdd (a i) (b i ^^^ 0x80000000)) ∧
    exec (.vmul t h f) s = put (fun i => fMul (a i) (b i)) ∧ exec (.vfma t h f) s = put (fun i => fFma (a i) (b i) (c i)) ∧
    exec (.vdiv t h f) s = put (fun i => fDiv (a i) (b i)) ∧ exec (.vrcp t h f) s = put (fun i => fDiv 0x3F800000 (a i)) ∧
    exec (.vsqrt t h f) s = put (fun i => fSqrt (a i)) ∧ exec (.vrsq t h f) s = put (fun i => fRsqrt (a i)) ∧
    exec (.vexp2 t h f) s = put (fun i => fExp2 (a i)) ∧ exec (.vexp t h f) s = put (fun i => fExp (a i)) ∧
    exec (.vlog2 t h f) s = put (fun i => fLog2 (a i)) ∧ exec (.vlog t h f) s = put (fun i => fLog (a i)) ∧
    exec (.vtanh t h f) s = put (fun i => fTanh (a i)) ∧ exec (.vsig t h f) s = put (fun i => fSig (a i)) ∧
    exec (.vsilu t h f) s = put (fun i => fSilu (a i)) ∧ exec (.vmin t h f) s = put (fun i => fMinMax false (a i) (b i)) ∧
    exec (.vmax t h f) s = put (fun i => fMinMax true (a i) (b i)) ∧ exec (.vabs t h f) s = put (fun i => ⟨a i &&& 0x7FFFFFFF, 0⟩) ∧
    exec (.vneg t h f) s = put (fun i => ⟨a i ^^^ 0x80000000, 0⟩)

/-- VCMP, VSEL, VCVT, VIOP, VRED and VBCST (R111, R119, R120, R125, R607). VCMP puts each lane's comparison into its bit
of p(D) under the mask and VIOP the integer operation that MOD[3:0] names into the lane; VSEL takes va where the mask
bit is set and vb elsewhere; VCVT converts each lane in the direction MOD[25] under the rounding mode MOD[27:26],
counting a stochastic rounding once; VRED reduces all 32 lanes over the fixed tree into s(D); VBCST copies s(A)[31:0]
into the lanes of the mask; illegal codes raise the illegal-operand exception. -/
def Obligations.VectorMaskResults : Prop :=
  ∀ (s : State) (t : Fin 512) (h : Head) (f : FmtR), Runs s.dev t →
    let x := s.dev.tile t
    let m := x.mask h
    let a := fun i => lane (x.vr f.a.toNat) i
    let b := fun i => lane (x.vr f.b.toNat) i
    let old := fun i => lane (x.vr f.d.toNat) i
    let done := fun y : Tile => Host.Outcome.next (s.tileDone t y)
    let bad := Host.Outcome.next (s.tileTrapped t .illegalOperand 0)
    (∀ c, condOf (modR f 0 3) = some c → f.d.toNat < 8 →
      let r := fun i => if modR f 3 1 = 1 then (⟨iCmp c (a i) (b i), 0⟩ : Flagged Bool) else fCmp c (a i) (b i)
      ∃ bits : W32, (∀ i < 32, bits.getLsbD i = if m.getLsbD i then (r i).val else (x.pr f.d.toNat).getLsbD i) ∧
        exec (.vcmp t h f) s = done ((x.setP f.d.toNat bits).raise (laneFlags m (fun i => (r i).fl)))) ∧
    (condOf (modR f 0 3) = none → exec (.vcmp t h f) s = bad) ∧
    exec (.vsel t h f) s = done (x.setV f.d.toNat (listOf 32 (fun i => if m.getLsbD i then a i else b i))) ∧
    (∀ rm, rmodeOf (modR f 26 2) = some rm →
      let r := fun i => if modR f 25 1 = 1
        then encodeFloat fmtFP32 rm false (srWord x.seed x.ctr i) (.fin (decide ((a i).toInt < 0)) (a i).toInt.natAbs 0)
        else encodeInt 32 rm (srWord x.seed x.ctr i) (decode32 (a i))
      let y := (x.setV f.d.toNat (listOf 32 (fun i => if m.getLsbD i then BitVec.ofNat 32 (r i).val else old i))).raise
        (laneFlags m (fun i => (r i).fl))
      exec (.vcvt t h f) s = done (if rm = .sr then { y with ctr := y.ctr + 1 } else y)) ∧
    (rmodeOf (modR f 26 2) = none → exec (.vcvt t h f) s = bad) ∧
    (∀ o, viopOf (modR f 0 4) = some o →
      exec (.viop t h f) s = done (x.setV f.d.toNat (listOf 32 (fun i => if m.getLsbD i then intOp o (a i) (b i) else old i)))) ∧
    (viopOf (modR f 0 4) = none → exec (.viop t h f) s = bad) ∧
    (∀ g : W32 → W32 → Flagged W32, m ≠ 0 →
      (modR f 0 2 = 0 ∧ g = fAdd) ∨ (modR f 0 2 = 1 ∧ g = fMinMax false) ∨ (modR f 0 2 = 2 ∧ g = fMinMax true) →
      let r := reduceTree g 5 (listOf 32 a)
      exec (.vred t h f) s = done ((x.setS f.d.toNat (r.val.setWidth 64)).raise r.fl)) ∧
    (modR f 0 2 = 3 → exec (.vred t h f) s = bad) ∧
    exec (.vbcst t h f) s = done (x.setV f.d.toNat (listOf 32 (fun i => if m.getLsbD i then (x.sr f.a.toNat).setWidth 32 else old i)))

/-- VQMX and VDQMX (R112, R113, R125, R607). VQMX writes the packed elements of the MX block of v(D) at s(A) and its scale
at s(B), raises the block's flags and counts a stochastic rounding; VDQMX fills the lanes of v(D) under the mask from
the elements at s(A) and the scale at s(B); an illegal format code raises the illegal-operand exception. -/
def Obligations.MxBlockResults : Prop :=
  ∀ (s : State) (t : Fin 512) (h : Head) (f : FmtR), Runs s.dev t →
    let d := s.dev.bump
    let x := d.tile t
    let m := x.mask h
    let ea := (x.sr f.a.toNat).toNat
    let sa := (x.sr f.b.toNat).toNat
    (∀ fm rm p r, mxFmt (modR f 24 4) = some fm → rmodeOf (modR f 22 2) = some rm → m ≠ 0 →
      let q := quantise (modR f 24 4) fm rm x.seed x.ctr (x.vr f.d.toNat)
      let bs := packElems fm.width q.elems
      d.resolve t true false true ea bs.length = .ok p → d.resolve t true false true sa 1 = .ok r →
      exec (.vqmx t h f) s = .next (s.seqAfter t (((d.memWrite p bs).memWrite r [BitVec.ofNat 8 q.scale]).updTile t (fun x =>
        if rm = .sr then { x.raise q.fl with ctr := x.ctr + 1 } else x.raise q.fl)))) ∧
    (mxFmt (modR f 24 4) = none → exec (.vqmx t h f) s = .next (s.tileTrapped t .illegalOperand 0) ∧
      exec (.vdqmx t h f) s = .next (s.tileTrapped t .illegalOperand 0)) ∧
    (∀ fm p r, mxFmt (modR f 24 4) = some fm → d.resolve t true false false ea (4 * fm.width) = .ok p →
      (d.noteAccess false p (4 * fm.width)).resolve t true false false sa 1 = .ok r →
      let es := d.tileBytes p (4 * fm.width)
      let e := d.noteAccess false p (4 * fm.width)
      let sc := leNat (e.tileBytes r 1)
      let v := fun i => dequant fm sc (packedElem es fm.width i)
      exec (.vdqmx t h f) s = .next (s.seqAfter t ((e.noteAccess false r 1).updTile t (fun x =>
        (x.setV f.d.toNat (listOf 32 (fun i => if (x.mask h).getLsbD i then (v i).val else lane (x.vr f.d.toNat) i))).raise
          (laneFlags (x.mask h) (fun i => (v i).fl))))))

/-- VLD, VST, VLDN and VSTN (R89, R98, R120, R125). VLD fills the lanes of v(D) under the mask from 128 bytes and VLDN
from packed narrow elements; VST and VSTN store every lane when the mask is full, VSTN rounding as MOD names, raising
the lanes' flags and counting a stochastic rounding; a misaligned address raises the illegal-operand exception. -/
def Obligations.VectorMemoryResults : Prop :=
  ∀ (s : State) (t : Fin 512) (h : Head) (f : FmtIM), Runs s.dev t →
    let d := s.dev.bump
    let x := d.tile t
    let a := addrIM f x
    let full := x.mask h = 0xFFFFFFFF
    let fill := fun (p n : Nat) (w : List Byte → Nat → W32) => Host.Outcome.next (s.seqAfter t ((d.noteAccess false p n).updTile t (fun x =>
      x.setV f.d.toNat (listOf 32 (fun i => if (x.mask h).getLsbD i then w (d.tileBytes p n) i else lane (x.vr f.d.toNat) i)))))
    (∀ p, a % 128 = 0 → d.resolve t true false false a 128 = .ok p →
      exec (.vld t h f) s = fill p 128 (fun bs i => BitVec.ofNat 32 (leNat ((bs.drop (4 * i)).take 4)))) ∧
    (∀ fm w p, narrowFmt (modIM f 24 4) = some (fm, w) → a % (4 * w) = 0 → d.resolve t true false false a (4 * w) = .ok p →
      exec (.vldn t h f) s = fill p (4 * w) (fun bs i => widen fm w (packedElem bs w i))) ∧
    (∀ p, full → a % 128 = 0 →
      let bs := bytes32 (listOf 32 (fun i => lane (x.vr f.d.toNat) i))
      d.resolve t true false true a bs.length = .ok p → d.writeSpoilt p bs.length = false →
      exec (.vst t h f) s = .next (s.seqAfter t (d.memWrite p bs))) ∧
    (∀ fm w rm p, full → narrowFmt (modIM f 24 4) = some (fm, w) → rmodeOf (modIM f 22 2) = some rm → a % (4 * w) = 0 →
      let r := fun i => narrow fm w rm (decide (modIM f 21 1 = 1)) (srWord x.seed x.ctr i) (lane (x.vr f.d.toNat) i)
      let bs := packElems w (listOf 32 (fun i => (r i).val))
      d.resolve t true false true a bs.length = .ok p → d.writeSpoilt p bs.length = false →
      exec (.vstn t h f) s = .next (s.seqAfter t ((d.memWrite p bs).updTile t (fun x =>
        let y := x.raise (laneFlags 0xFFFFFFFF (fun i => (r i).fl))
        if rm = .sr then { y with ctr := y.ctr + 1 } else y)))) ∧
    (a % 128 ≠ 0 → exec (.vld t h f) s = .next (s.tileTrapped t .illegalOperand a) ∧
      exec (.vst t h f) s = .next (s.tileTrapped t .illegalOperand a))

/-- MMA, its arrival, MZERO, MLD and MST (R86, R91, R125, R126, R127, R129). An MMA whose operands pass the checks of R127
to R129 leaves its cells and flags pending on acc(ACC), starting from zero with CLR and from the old cells without;
ACCUMULATOR_READY puts them there; until then MZERO of that tile waits; MZERO, MLD and MST zero, load and store the
256 cells of a free accumulator. -/
def Obligations.MatrixResults : Prop :=
  ∀ (s : State) (t : Fin 512) (h : Head),
    (∀ f : FmtM, Issues s.dev t h → f.rsvd = 0 →
      let d := s.dev.bump
      let x := d.tile t
      let n := f.acc.toNat
      let o := d.mmaOp t f
      ∀ fa fb m, x.pend.find n = none → elemFmt f.afmt.toNat = some fa → elemFmt f.bfmt.toNat = some fb → sumMode fa fb = some m →
        kAllowed m (isMx o.aFmt || isMx o.bFmt) o.k = true → mmaRegs f = true → o.aligned = true →
        d.scratchBad t false o.ranges = none → o.metaOk = true →
        let r := o.run m (if f.clr then zeroCells else x.ar n)
        exec (.mma t h f) s = .next (s.tileDone t { x with pend := x.pend.set n ⟨r.val, r.fl, decide (m = .integer)⟩ })) ∧
    (∀ (acc : Fin 8) r, (s.dev.tile t).pend.find acc = some r →
      let x := s.dev.tile t
      exec (.accumulatorReady t acc) s = .next (s.withDev (s.dev.setTile t
        { x with acc := x.acc.set acc r.cells, aflags := x.aflags ||| r.fl, pend := x.pend.del acc, accInt := x.accInt.set acc r.isInt }))) ∧
    (∀ f : FmtR, Issues s.dev t h → f.d.toNat < 8 →
      let d := s.dev.bump
      let x := d.tile t
      let a := (x.sr f.a.toNat).toNat
      let bs := bytes32 (listOf 256 (fun i => lane (x.ar f.d.toNat) i))
      ((x.pend.find f.d.toNat).isSome → exec (.mzero t h f) s = .next (s.tileWaits t (.acc f.d.toNat))) ∧
      (x.pend.find f.d.toNat = none →
        exec (.mzero t h f) s = .next (s.tileDone t { x with acc := x.acc.set f.d.toNat (List.replicate 256 0) }) ∧
        (∀ p, d.resolve t true false false a 1024 = .ok p → exec (.mld t h f) s = .next (s.seqAfter t
          ((d.noteAccess false p 1024).updTile t (fun x => x.setA f.d.toNat (words32 (d.tileBytes p 1024) 256))))) ∧
        (∀ p, d.resolve t true false true a bs.length = .ok p → d.writeSpoilt p bs.length = false →
          exec (.mst t h f) s = .next (s.seqAfter t (d.memWrite p bs)))))

/-- MWR (R97, R98, R102, R125, R126, R130). MWR converts the 256 cells of a free accumulator to the named format and mode
and stores row i at s(A) + i × s(A+1), raises the cells' flags and counts a stochastic rounding once; a pending
accumulator is waited for and an unnamed format or mode is an illegal operand. -/
def Obligations.WriteOutResults : Prop :=
  ∀ (s : State) (t : Fin 512) (h : Head) (f : FmtR), Issues s.dev t h → f.d.toNat < 8 →
    let d := s.dev.bump
    let x := d.tile t
    let n := f.d.toNat
    let base := (x.sr f.a.toNat).toNat
    let pitch := (x.sr (f.a.toNat + 1)).toNat
    (∀ fm w rm, x.pend.find n = none → mwrFmt (modR f 24 4) = some (fm, w) → rmodeOf (modR f 22 2) = some rm →
      f.a.toNat + 1 < 32 → base % (2 * w) = 0 → pitch % (2 * w) = 0 →
      d.scratchBad t true ((List.range 16).map (fun i => (base + i * pitch, 2 * w))) = none →
      let cell := fun i => writeOutCell fm (x.accInt.get false n) rm (decide (modR f 21 1 = 1)) (srWord x.seed x.ctr i) (lane (x.ar n) i)
      let cs := listOf 256 cell
      let rows := listOf 16 (fun i => packElems w (((cs.drop (16 * i)).take 16).map (·.val)))
      exec (.mwr t h f) s = .next (s.seqAfter t ((d.storeRows (scratchBase t + fld base 0 21) pitch 0 rows).updTile t (fun x =>
        let y := x.raise (cs.foldl (fun acc c => acc ||| c.fl) 0)
        if rm = .sr then { y with ctr := y.ctr + 1 } else y)))) ∧
    ((x.pend.find n).isSome → exec (.mwr t h f) s = .next (s.tileWaits t (.acc n))) ∧
    (x.pend.find n = none → mwrFmt (modR f 24 4) = none ∨ rmodeOf (modR f 22 2) = none →
      exec (.mwr t h f) s = .next (s.tileTrapped t .illegalOperand 0))

/-- SMCHK, BMPOP and BMIDX (R106, R107, R120, R125). SMCHK sets all bits of p(D) when every nibble of the s(B) 32-byte
blocks at s(A) names two positions in rising order and clears them otherwise; BMPOP and BMIDX put the number of set
bits among the first s(B) bits of the bitmap at s(A) into s(D). -/
def Obligations.SparseMetadataResults : Prop :=
  ∀ (s : State) (t : Fin 512) (h : Head) (f : FmtR), Issues s.dev t h →
    let d := s.dev.bump
    let x := d.tile t
    let a := (x.sr f.a.toNat).toNat
    let b := (x.sr f.b.toNat).toNat
    (∀ p, f.d.toNat < 8 → 32 * b ≤ 0x200000 → d.resolve t true false false a (32 * b) = .ok p →
      exec (.smchk t h f) s = .next (s.seqAfter t ((d.noteAccess false p (32 * b)).updTile t (fun x => x.setP f.d.toNat
        (if (d.tileBytes p (32 * b)).all (fun y => decide (fld y.toNat 0 2 < fld y.toNat 2 2) && decide (fld y.toNat 4 2 < fld y.toNat 6 2))
          then 0xFFFFFFFF else 0))))) ∧
    (∀ p, b ≤ 0x1000000 → d.resolve t true false false a ((b + 7) / 8) = .ok p →
      let r := Host.Outcome.next (s.seqAfter t ((d.noteAccess false p ((b + 7) / 8)).updTile t (fun x => x.setS f.d.toNat
        (BitVec.ofNat 64 (popBits b (leNat (d.tileBytes p ((b + 7) / 8)) % 2 ^ b))))))
      exec (.bmpop t h f) s = r ∧ exec (.bmidx t h f) s = r)

/-- DMA, DMA.WAIT and the end of a transfer (R125, R141, R142, R143). DMA starts the descriptor in s(A) to s(A+7) on an
IDLE context, waits for a busy one and traps on a malformed one; DMA.WAIT waits while the context is busy and
otherwise takes its status, which is then OK; a transfer of a local copy that meets no fault lands and leaves the
context IDLE. -/
def Obligations.TileDmaResults : Prop :=
  ∀ (s : State) (t : Fin 512) (h : Head),
    (∀ f : FmtX, Issues s.dev t h → f.rsvd = 0 → f.x.toNat < 8 →
      let d := s.dev.bump
      let x := d.tile t
      let c := f.x.toNat
      let desc := x.regs512 f.a.toNat
      (f.a.toNat ≤ 24 → (x.ctx c).busy = false → descOk desc = true → d.descBad t desc = none →
        descNotify desc = false ∨ d.channelOk t (descChannel desc) = true →
        exec (.dma t h f) s = .next (s.tileDone t { x with dma := x.dma.set c ⟨true, false, desc, .ok⟩ })) ∧
      (f.a.toNat ≤ 24 → (x.ctx c).busy = true → exec (.dma t h f) s = .next (s.tileWaits t (.dmaBusy c))) ∧
      (f.a.toNat ≤ 24 → (x.ctx c).busy = false → descOk desc = false → exec (.dma t h f) s = .next (s.tileTrapped t .illegalOperand 0)) ∧
      ((x.ctx c).busy = true → exec (.dmaWait t h f) s = .next (s.tileWaits t (.dmaWait c))) ∧
      ((x.ctx c).busy = false → exec (.dmaWait t h f) s = .next (s.tileDone t
        { (x.setS f.d.toNat (BitVec.ofNat 64 (x.ctx c).status.code)) with dma := x.dma.set c ⟨false, false, 0, .ok⟩ }))) ∧
    (∀ (ctx : Fin 8) (rd : HostRead) (e : Dev),
      let c := (s.dev.tile t).ctx ctx
      c.busy = true → c.notify = false → s.dev.alive = true → s.dev.dmaWaits c.desc = false → descNotify c.desc = false →
      (s.dev.readEnd (.tileDma t ctx)).dmaMove t ((s.dev.tilePart t).getD 32) c.desc rd 0 (s.dev.dmaUnits t c.desc) = (e, none) →
      exec (.tileDmaDone t ctx rd) s = .next (s.withDev (e.updTile t (fun y => { y with dma := y.dma.set ctx ⟨false, false, 0, .ok⟩ }))))

/-- SEND, RECV, RECV.ANY and arrival (R146, R147, R148, R149). SEND takes a credit and sends the 64 bytes at s(A), waits
without a credit and traps on an undeclared channel; RECV and RECV.ANY take the oldest message of their mailboxes into
the 64 bytes at s(A), free its slot and return its credit, RECV.ANY also writing the mailbox number, and wait on empty
mailboxes; a message of the current role epoch that arrives joins its mailbox, and one of another epoch is dropped and
counted. -/
def Obligations.MessageResults : Prop :=
  ∀ (s : State) (t : Fin 512) (h : Head),
    (∀ f : FmtX, Issues s.dev t h → f.rsvd = 0 → f.x.toNat < 16 →
      let d := s.dev.bump
      let x := d.tile t
      let ch := f.x.toNat
      let a := (x.sr f.a.toNat).toNat
      (∀ p, d.channelOk t ch = true → x.credits ch ≠ 0 → a % 64 = 0 → d.resolve t true false false a 64 = .ok p →
        exec (.send t h f) s = .next (s.seqAfter t ((d.noteAccess false p 64).sendMsg t ch (BitVec.ofNat 512 (leNat (d.tileBytes p 64)))))) ∧
      (d.channelOk t ch = true → x.credits ch = 0 → exec (.send t h f) s = .next (s.tileWaits t (.credit ch))) ∧
      (d.channelOk t ch = false → exec (.send t h f) s = .next (s.tileTrapped t .access 0))) ∧
    (∀ f : FmtX, Issues s.dev t h → f.rsvd = 0 →
      let d := s.dev.bump
      let x := d.tile t
      let a := (x.sr f.a.toNat).toNat
      let take := fun (p mb : Nat) (m : Mail) =>
        ((d.memWrite p (leBytes 64 m.data.toNat)).updTile t (fun x => { x with mbox := x.mbox.set mb (x.mail mb).tail })).returnCredit t mb m.src
      (∀ mb m p, f.x.toNat < 8 → x.firstMail (1 <<< f.x.toNat) = some (mb, m) → a % 64 = 0 → d.resolve t true false true a (leBytes 64 m.data.toNat).length = .ok p →
        d.writeSpoilt p (leBytes 64 m.data.toNat).length = false → exec (.recv t h f) s = .next (s.seqAfter t ((take p mb m).updTile t (fun x => x)))) ∧
      (f.x.toNat < 8 → x.firstMail (1 <<< f.x.toNat) = none → exec (.recv t h f) s = .next (s.tileWaits t (.recv (1 <<< f.x.toNat)))) ∧
      (∀ mb m p, f.x.toNat < 256 → s.dev.variantAllowed t = true → x.firstMail f.x.toNat = some (mb, m) → a % 64 = 0 →
        d.resolve t true false true a (leBytes 64 m.data.toNat).length = .ok p → d.writeSpoilt p (leBytes 64 m.data.toNat).length = false →
        exec (.recvAny t h f) s = .next (s.seqAfter t ((take p mb m).updTile t (fun x => x.setS f.d.toNat (BitVec.ofNat 64 mb)))))) ∧
    (∀ (mb : Fin 8) m rest, takeMsg (fun m => decide (m.toTile = some (t.val, mb.val))) s.dev.tl.noc = some (m, rest) →
      let d := s.dev.upTl (fun x => { x with noc := rest })
      (m.epoch = d.roleEpoch m.part → exec (.messageArrival t mb) s = .next (s.withDev
        ((d.updTile t (fun x => { x with mbox := x.mbox.set mb (x.mail mb ++ [⟨m.src, d.tl.arrivals, m.data⟩]) })).upTl
          (fun x => { x with arrivals := d.tl.arrivals + 1 })))) ∧
      (∀ u c, m.src = .tile u c → m.epoch ≠ d.roleEpoch m.part → exec (.messageArrival t mb) s = .next (s.withDev
        (d.finc (Reg.CLU_MSG_EPOCH_DROP_COUNT (clusterOf t))))))

/-- BAR, FENCE and the atomics (R117, R125, R151, R152, R153). The last member of a barrier to arrive clears it, releases
the others and goes on, an earlier one waits and is recorded, and a tile outside the barrier traps; FENCE goes on;
each atomic replaces the aligned bytes of cluster memory with the sum, the signed minimum or maximum, or the FP32 sum,
of what they held and s(D), and a misaligned one traps. -/
def Obligations.SyncResults : Prop :=
  ∀ (s : State) (t : Fin 512) (h : Head), Issues s.dev t h →
    let d := s.dev.bump
    let x := d.tile t
    (∀ (f : FmtX) p, f.rsvd = 0 → f.x.toNat < 64 → d.tilePart t = some p → d.joinsBarrier t f.x.toNat = true →
      let b := f.x.toNat
      let old := d.tl.bars.get [] (64 * p + b)
      let arrived := if old.contains t.val then old else old ++ [t.val]
      let members := d.barrierMembers p b
      ((∀ u ∈ members, u ∈ arrived) → exec (.bar t h f) s = .next (s.seqAfter t ((members.filter (fun u => decide (u ≠ t.val))).foldl
        (fun e u => e.releaseBar b u) (d.upTl (fun y => { y with bars := y.bars.del (64 * p + b) }))))) ∧
      ((∃ u ∈ members, u ∉ arrived) → exec (.bar t h f) s = .next (s.withDev
        ((d.upTl (fun y => { y with bars := y.bars.set (64 * p + b) arrived })).updTile t (fun x => { x with wait := some (.bar b) }))))) ∧
    (∀ (f : FmtX) p, f.rsvd = 0 → f.x.toNat < 64 → d.tilePart t = some p → d.joinsBarrier t f.x.toNat = false →
      exec (.bar t h f) s = .next (s.tileTrapped t .access 0)) ∧
    (∀ f : FmtR, exec (.fence t h f) s = .next (s.seqAfter t d)) ∧
    (∀ f : FmtIM,
      let a := addrIM f x
      let v := x.sr f.d.toNat
      (∀ p, a % 8 = 0 → d.resolve t false true false a 8 = .ok p →
        let m := BitVec.ofNat 64 (leNat (d.memBytes p 8))
        exec (.ataddI t h f) s = .next (s.seqAfter t (d.memWrite p (leBytes 8 (m + v).toNat))) ∧
        exec (.atminI t h f) s = .next (s.seqAfter t (d.memWrite p (leBytes 8 (if m.toInt < v.toInt then m else v).toNat))) ∧
        exec (.atmaxI t h f) s = .next (s.seqAfter t (d.memWrite p (leBytes 8 (if m.toInt < v.toInt then v else m).toNat)))) ∧
      (∀ p, a % 4 = 0 → s.dev.variantAllowed t = true → d.resolve t false true false a 4 = .ok p →
        exec (.ataddF t h f) s = .next (s.seqAfter t (d.memWrite p (leBytes 4
          (fAdd (BitVec.ofNat 32 (leNat (d.memBytes p 4))) (v.setWidth 32)).val.toNat)))) ∧
      (a % 8 ≠ 0 → exec (.ataddI t h f) s = .next (s.tileTrapped t .illegalOperand a)))

/-- System instructions (R102, R114, R115, R125, R136). NOP only goes on; HALT stops issue and TILE_HALTED ends the drain
once no DMA context is busy; RDFLAG reads AFLAGS when no matrix operation is pending and waits otherwise; CLRFLAG
clears the bits of its mask; SEED sets the seed and clears the counter; RDID reads the tile and partition numbers;
RDPTIME reads pod time; RDCYC and RDTRNG read a free value (log entry 4). -/
def Obligations.TileSystemResults : Prop :=
  ∀ (s : State) (t : Fin 512) (h : Head), Issues s.dev t h →
    let x := s.dev.tile t
    let done := fun y : Tile => Host.Outcome.next (s.tileDone t y)
    (∀ f : FmtR, exec (.nop t h f) s = .next (s.seqAfter t s.dev.bump)) ∧
    (∀ f : FmtR, exec (.halt t h f) s = .next (s.withDev (s.dev.bump.setTile t { x with phase := .halting, wait := none }))) ∧
    (∀ f : FmtR, x.pend.ents = [] → exec (.rdflag t h f) s = done (x.setS f.d.toNat (x.aflags.setWidth 64))) ∧
    (∀ (f : FmtR) n r l, x.pend.ents = (n, r) :: l → exec (.rdflag t h f) s = .next (s.tileWaits t (.acc n))) ∧
    (∀ f : FmtI, exec (.clrflag t h f) s = done { x with aflags := x.aflags &&& ~~~f.imm }) ∧
    (∀ f : FmtR, exec (.seed t h f) s = done { x with seed := x.sr f.a.toNat, ctr := 0 }) ∧
    (∀ (f : FmtR) p, s.dev.bump.tilePart t = some p → exec (.rdid t h f) s = done (x.setS f.d.toNat (BitVec.ofNat 64 (t.val + p * 2 ^ 16)))) ∧
    (s.dev.variantAllowed t = true → ∀ f : FmtR,
      exec (.rdptime t h f) s = done (x.setS f.d.toNat (s.dev.bump.regGet Reg.ONF_PODTIME)) ∧
      (∃ v : W64, exec (.rdcyc t h f) s = done (x.setS f.d.toNat v)) ∧
      (∃ v : W64, exec (.rdtrng t h f) s = done (x.setS f.d.toNat v)))

/-- How a tile ends and starts (R119, R136, R137, R138, R140). TILE_HALTED ends the drain of a halting tile with no busy
DMA context; TILE_STOPPED ends a stopping one; a credit, barrier or DMA wait past a limit that is not 0 stops the tile
with cause 6; TILE_RESTART discards a HALTED tile's mail, returning its credits, and starts it at its ENTRY;
TILE_START starts every tile that has a program; a started tile has cleared registers, its program's PC and no cause. -/
def Obligations.TileHaltRestart : Prop :=
  ∀ (s : State) (t : Fin 512),
    let d := s.dev
    let x := d.tile t
    (x.phase = .halting → x.dmaIdle = true → exec (.tileHalted t) s = .next (s.withDev (d.setTile t { x with phase := .halted }))) ∧
    (x.phase = .stopping → x.dmaIdle = true → exec (.tileStopped t) s = .next (s.withDev (d.tileStop t))) ∧
    (∀ w, x.wait = some w → (∃ b, w = .bar b) ∨ (∃ c, w = .dmaWait c) ∨ (∃ c, w = .credit c) → x.phase = .running →
      d.fget (Reg.CLU_STALL_LIMIT_LIMIT_US (clusterOf t)) ≠ 0 → exec (.stallLimit t) s = .next (s.withDev (d.tileTrap t .stallLimit 0))) ∧
    (∀ (c : Fin 32) (i : Fin 16), t.val = 16 * c.val + i.val → x.phase = .halted ∨ x.phase = .stopped → d.tileBarred t = false →
      exec (.tileRestart c (BitVec.ofNat 16 (2 ^ i.val))) s = .next (s.withDev
        ((d.discardMail t (fun _ => true)).startTile t ((d.discardMail t (fun _ => true)).tile t).cred))) ∧
    (d.img.startDue = true → exec .tileStart s = .next (s.withDev (((List.range 512).filter (d.upImg (fun m => { m with startDue := false })).tileRuns).foldl
      (fun e u => e.startTile u ⟨[]⟩) (d.upImg (fun m => { m with startDue := false }))))) ∧
    (∀ cred,
      let y := (d.startTile t cred).tile t
      y.phase = .running ∧ y.pc = (d.sec secTilePrograms).u32 (128 * t + 4) ∧ y.aflags = 0 ∧ y.seed = 0 ∧ y.ctr = 0 ∧ y.loops = [] ∧
      y.calls = [] ∧ y.v = ⟨[]⟩ ∧ y.p = ⟨[]⟩ ∧ y.acc = ⟨[]⟩ ∧ y.dma = ⟨[]⟩ ∧ y.mbox = ⟨[]⟩ ∧ y.cred = cred ∧
      (d.startTile t cred).regGet (Reg.CLU_TILE_CAUSEt (clusterOf t) (t % 16)) = 0)

/-- Exceptions and predicates of a tile (R122, R123, R60, R137). A tile that is not RUNNING issues nothing; a variant
operation that the partition's image does not allow takes the illegal-instruction exception whatever its predicate; a
scalar instruction under a false predicate only goes on; taking an exception stops issue, records the cause and the PC
in CLU_TILE_CAUSE and leaves every other tile and, but for a spare claim and a record, everything else alone. -/
def Obligations.TileExceptions : Prop :=
  ∀ (s : State) (t : Fin 512) (h : Head),
    ((s.dev.tile t).phase ≠ .running → ∀ (b : SrcB) (f : FmtR) (g : FmtIM) (x : FmtX), exec (.add t h b) s = .next s ∧ exec (.vadd t h f) s = .next s ∧
      exec (.st t h g) s = .next s ∧ exec (.send t h x) s = .next s ∧ exec (.halt t h f) s = .next s) ∧
    (Runs s.dev t → s.dev.variantAllowed t = false → ∀ (f : FmtR) (g : FmtIM),
      let bad := Host.Outcome.next (s.tileTrapped t .illegalInstruction 0)
      exec (.rdcyc t h f) s = bad ∧ exec (.rdptime t h f) s = bad ∧ exec (.rdtrng t h f) s = bad ∧ exec (.ataddF t h g) s = bad) ∧
    (Runs s.dev t → ((s.dev.tile t).mask h).getLsbD 0 = false → ∀ (b : SrcB) (f : FmtR) (g : FmtIM),
      let skip := Host.Outcome.next (s.seqAfter t s.dev.bump)
      exec (.add t h b) s = skip ∧ exec (.st t h g) s = skip ∧ exec (.halt t h f) s = skip ∧ exec (.mzero t h f) s = skip) ∧
    (∀ c addr, c ≠ .uncorrectable → c ≠ .none →
      let u := (s.tileTrapped t c addr).dev
      (u.tile t).phase = .stopping ∧ u.fget (Reg.CLU_TILE_CAUSEt_CAUSE (clusterOf t) (t % 16)) = c.code ∧
      u.fget (Reg.CLU_TILE_CAUSEt_PC (clusterOf t) (t % 16)) = (s.dev.tile t).pc % 2 ^ (Reg.CLU_TILE_CAUSEt_PC 0 0).w ∧
      (∀ v : Nat, v ≠ t.val → u.tile v = s.dev.tile v) ∧
      u = { s.dev with reg := u.reg, tl := { s.dev.tl with tiles := u.tl.tiles }, fresh := s.dev.fresh + 1 })

/-- REGISTER, UNREGISTER and BLOCK_CMD_DONE (R177, R178, R192). REGISTER gives as many FREE entries as it names blocks to
blocks of HOME regions that hold none, SERVING as KV pages of the region's partition, and is BUSY with status OK until
BLOCK_CMD_DONE; UNREGISTER starts freeing the named entries; either refuses with ACCESS_ERROR a block outside HOME
regions, REGISTER one already registered and UNREGISTER one that is not; a COUNT of 0 sets CMD_ERR (the model's
choice: log entry 76); BLOCK_CMD_DONE clears BUSY, writes the status and posts its event once nothing is left to free. -/
def Obligations.BlockCommandResults : Prop :=
  ∀ s : State,
    let d := s.dev
    Takes d Reg.MEM_BLK_STATUS_BUSY →
    (∀ count : BitVec 16, count ≠ 0 →
      let n := count.toNat
      let bs := d.namedBlocks n
      let fr := freeEntries d.mem.blk n
      ((∀ b ∈ bs, (d.homePart b).isSome ∧ d.entryOf b = none) → n ≤ fr.length → exec (.register count) s = .next (s.withDev
        (((List.range n).foldl (fun e k => e.setBlk (fr.getD k 0)
          (bvSet (bvSet (bvSet (bvSet (0 : BitVec 128) 107 21 (bs.getD k 0)) 77 3 1) 74 1 1) 68 5 ((e.homePart (bs.getD k 0)).getD 0))) d).blkCmdStart n .ok))) ∧
      ((∃ b ∈ bs, d.homePart b = none ∨ (d.entryOf b).isSome) → exec (.register count) s = .next (s.withDev (d.blkCmdStart n .accessError))) ∧
      ((∀ b ∈ bs, (d.homePart b).isSome ∧ (d.entryOf b).isSome) → exec (.unregister count) s = .next (s.withDev
        (((bs.filterMap d.entryOf).foldl (fun e i => e.unregister i) d).blkCmdStart n .ok))) ∧
      ((∃ b ∈ bs, d.homePart b = none ∨ d.entryOf b = none) → exec (.unregister count) s = .next (s.withDev (d.blkCmdStart n .accessError)))) ∧
    exec (.register 0) s = .next (s.withDev (d.fset Reg.MEM_BLK_STATUS_CMD_ERR 1)) ∧
    exec (.unregister 0) s = .next (s.withDev (d.fset Reg.MEM_BLK_STATUS_CMD_ERR 1)) ∧
    (∀ c, d.mem.cmd = some c → d.mem.unreg = [] → exec .blockCmdDone s = .next (s.withDev
      ((((d.fset Reg.MEM_BLK_STATUS_BUSY 0).fset Reg.MEM_BLK_STATUS_STATUS c.status.code).upMem (fun m => { m with cmd := none })).post 0
        .blockCmdDone c.status.code (c.first + c.count * 2 ^ 32))))

/-- Epochs and moves (R178, R180, R184, R186, R188). An epoch's end counts the epoch, updates every score, drops the moves
that have not started and adds decided ones; a decided move that may start starts when none of its partition runs; a
copy pass that reads everything goes on to the final pass under held writes when at most 16 sub-units are dirty, makes
another pass otherwise and abandons after the third recopy; the switch of a local move updates the entry at once and
lands the held writes; the last reader of the old place frees it and the entry is SERVING, or FREE under an
UNREGISTER. -/
def Obligations.PlacementMoveResults : Prop :=
  ∀ s : State,
    let d := s.dev
    (∀ takers, d.live = true → d.committed = true → d.fget Reg.PWR_STATE_STATE = 0 → ∃ u, exec (.placementEpochEnd takers) s = .next u ∧
      u.pending = s.pending ∧ u.dev.reg = (d.finc Reg.MEM_EPOCH_COUNT_EPOCH).reg ∧
      u.dev.mem.blk = d.mem.blk.mapVal (fun _ e => (d.finc Reg.MEM_EPOCH_COUNT_EPOCH).epochEntry e) ∧
      (∃ new, u.dev.mem.moves = d.mem.moves.filter (fun m => m.started) ++ new) ∧ u.dev.mem.ram = d.mem.ram) ∧
    (∀ (p : Fin 32) m, d.live = true → d.inStandby = false →
      (d.mem.moves.filter (fun m => decide (d.movePart m = p.val))).any (fun m => m.started && !m.unreg) = false →
      (d.mem.moves.filter (fun m => decide (d.movePart m = p.val))).find?
        (fun m => !m.started && m.blocks.all (fun i => decide (blkState (d.blk i) = 1)) && d.moveReady p m) = some m →
      exec (.moveStart p) s = .next (s.withDev (d.startMove p m))) ∧
    (∀ (entry : BitVec 20) m, d.moveOf entry.toNat = some m → m.held = false → m.announced = false → d.subsBad m.todo = none →
      let e := d.copySubs m m.todo
      (m.dirty.length ≤ 16 → exec (.copyPassDone entry) s = .next (s.withDev (e.setMove { m with todo := m.dirty, dirty := [], held := true }))) ∧
      (16 < m.dirty.length → m.passes < 3 →
        exec (.copyPassDone entry) s = .next (s.withDev (e.setMove { m with todo := m.dirty, dirty := [], passes := m.passes + 1 }))) ∧
      (16 < m.dirty.length → 3 ≤ m.passes → exec (.copyPassDone entry) s = .next (s.withDev (e.abandonMove m Reg.MEM_MIG_ABANDONp_COUNT)))) ∧
    (∀ (entry : BitVec 20) m, d.moveOf entry.toNat = some m → m.held = true → m.expert = none → m.toHome = false → m.unreg = false →
      d.subsBad m.todo = none → (List.range 512).any (fun k => (d.copySubs m m.todo).subBad (m.target + 4096 * k)) = false →
      exec (.moveSwitch entry) s = .next (s.withDev ((((d.copySubs m m.todo).dropMove m).blkSwitch (m.blocks.headD 0) false m.target).landHeld m.heldWrites))) ∧
    (∀ entry : BitVec 20, blkState (d.blk entry.toNat) = 3 →
      let e := (d.upMem (fun m => { m with oldCopy := m.oldCopy.del entry.toNat })).blkSetState entry.toNat 1
      exec (.lastReaderDone entry) s = .next (s.withDev (if e.mem.unreg.contains entry.toNat then e.blkFree entry.toNat else e)))

/-- PLACE, the frame switch and its acknowledgement (R190, R253). A PLACE broadcast heard for the first time is passed on
and notes the switch and its frame; at that frame the table entry takes the new rank, and the old serving rank awaits
an acknowledgement of every other rank; with the last one it forgets what it held for the expert. -/
def Obligations.CrossDevicePlacement : Prop :=
  ∀ s : State,
    let d := s.dev
    (∀ (h : CtlHead) (part : Fin 32) (layer expert : BitVec 16) (rank : Fin 64) frame e f, CtlTaken d h e → h.scope = 2 →
      e.relay h.link.val (hdrSrc h.hdr) h.bseq.toNat (.place part layer.toNat expert.toNat rank frame) = (f, true) →
      exec (.place h part layer expert rank frame) s =
        .next (s.withDev (f.noteSwitch ((f.eptRec part).index layer.toNat expert.toNat) rank frame))) ∧
    (∀ (index : BitVec 16) w, d.mem.switches.find? (fun w => decide (w.index = index.toNat)) = some w →
      d.xdu.home.get d.rank index.toNat ≠ d.rank → eptRank (d.eptEntry index.toNat) = d.rank → w.rank ≠ d.rank →
      let e := (d.upMem (fun m => { m with switches := m.switches.filter (fun x => decide (x.index ≠ index.toNat)) })).setEptRank index.toNat w.rank
      let others := (List.range e.podSize).filter (fun r => decide (r ≠ e.rank) && !e.rankLost r)
      exec (.placementFrameSwitch index) s = .next (s.withDev (e.upMem (fun m => { m with acks := m.acks.set index.toNat others })))) ∧
    (∀ (src : Fin 64) (index : BitVec 16) rs, d.live = true → d.mem.acks.find index.toNat = some rs →
      let rest := rs.filter (fun r => decide (r ≠ src.val))
      (rest ≠ [] → exec (.switchAcknowledgement src index) s = .next (s.withDev (d.upMem (fun m => { m with acks := m.acks.set index.toNat rest })))) ∧
      (rest = [] → exec (.switchAcknowledgement src index) s = .next (s.withDev (d.upMem (fun m =>
        { m with acks := m.acks.del index.toNat, remoteHeld := m.remoteHeld.del index.toNat })))))

/-- Scrubbing, clearing, refresh and retraining (R169, R172, R173, R174). Scrubbing records a word of cluster memory or
DRAM that cannot be corrected and ends no context; the end of a cluster's clear releases the accesses that wait for it
and its bad words; refresh and periodic retraining change nothing; a full retraining follows a change of 10 °C and
starts the next change. -/
def Obligations.MemoryBackground : Prop :=
  ∀ s : State,
    let d := s.dev
    (∀ (a : BitVec 42) x, d.live = true → d.site a.toNat = some x → x.tier ≠ .scratch →
      (d.siteBad x = true → exec (.scrubPass a) s = .next (s.withDev (d.wordRecord a.toNat 4 0 0 0 0xFF 0xFFFF 0))) ∧
      (d.siteBad x = false → exec (.scrubPass a) s = .next s)) ∧
    (∀ c : Fin 32, d.fbit Reg.MEM_CLEAR_BUSY_BUSY c = true → ∃ u, exec (.clusterClearDone c) s = .next u ∧
      u.dev.reg = (d.fclr Reg.MEM_CLEAR_BUSY_BUSY (1 <<< c.val)).reg ∧
      (∀ a ∈ u.dev.mem.bad, a ∈ d.mem.bad ∧ (a < clusterBase c ∨ clusterBase c + clusterBytes ≤ a)) ∧
      u = s.withDev { d with reg := u.dev.reg, mem := { d.mem with bad := u.dev.mem.bad } }) ∧
    exec .refresh s = .next s ∧ exec .periodicRetraining s = .next s ∧
    (160 ≤ tempGap (d.fget Reg.PWR_TEMP_MAX_TEMP) d.mem.lastFullTemp →
      exec .fullRetraining s = .next (s.withDev (d.upMem (fun m => { m with lastFullTemp := d.fget Reg.PWR_TEMP_MAX_TEMP }))))

/-- Firing and batches of a dispatch (R195, R196, R197, R198, R206, R207, R223). A zone counter write by an owner of the
zone counts and a poisoned one is dropped; the oldest descriptor of a dispatch queue fires into the first free context
of its die once its counter meets the threshold and is malformed under a bad TRIGGER or body, and waits below the
threshold or with all 64 contexts taken; a batch of an expert leaves with as many tokens as its window has room for,
and a full window defers them; a read of XDU_EPT_DATA0 latches the indexed entry and answers its first word. -/
def Obligations.DispatchStartResults : Prop :=
  ∀ s : State,
    let d := s.dev
    d.live = true →
    (∀ (fn : Fin 264) (off : Nat), d.isFn fn.val = true → (fn.val < 1 ∨ 256 ≤ fn.val) → d.bar4Shut = false → off ≤ 16383 → off % 4 = 0 →
      (d.zonePart (off / 4)).isSome → d.zonePart (off / 4) = d.fnPart fn.val →
      exec (.zoneCounterWrite fn off 4 false) s = .next (s.withDev (d.finc (Reg.XDU_ZCNTz_COUNT (off / 4)))) ∧
      exec (.zoneCounterWrite fn off 4 true) s = .next (s.withDev (d.p2pDrop fn.val (255 * 134217728 + off)))) ∧
    (∀ (qid : BitVec 16) w e, d.wqFind qid.toNat = some w → w.front = some e → wqClass w.ctx = 2 → d.fnStarts (wqFn w.ctx) = true →
      (d.wqPart w).any d.partHeld = false →
      let t := xTrigger e.desc
      let die := wqBind w.ctx
      let slot := (List.range 64).find? (fun k => (d.xdu.ctxs.find (64 * die + k)).isNone)
      fld t 26 5 = 0 → fld t 0 24 < 4096 → bitAt t 31 = true → fld t 24 2 = 0 →
      let count := d.fget (Reg.XDU_ZCNTz_COUNT (fld t 0 24))
      (countMeets count (xThreshold e.desc) = false → exec (.dispatchFire qid) s = .next (s.withDev d)) ∧
      (countMeets count (xThreshold e.desc) = true → d.dispatchOk (d.wqPart w) die e.desc = true →
        (∀ k, slot = some k → exec (.dispatchFire qid) s = .next (s.withDev
          (((d.finc (Reg.XDU_FIREDd_COUNT die)).wqStart qid.toNat).xduFire (64 * die + k) qid.toNat w e ((d.wqPart w).getD 0)))) ∧
        (slot = none → exec (.dispatchFire qid) s = .next (s.withDev d))) ∧
      (countMeets count (xThreshold e.desc) = true → d.dispatchOk (d.wqPart w) die e.desc = false →
        exec (.dispatchFire qid) s = .next (s.withDev (((d.finc (Reg.XDU_FIREDd_COUNT die)).wqStart qid.toNat).wqMalformed qid.toNat e.idx)))) ∧
    (∀ (die : Fin 4) (slot : Fin 64) (x : BitVec 16) c tokens, d.xdu.ctxs.find (64 * die.val + slot.val) = some c →
      c.waiting.find? (fun p => decide (p.1 = x.toNat)) = some (x.toNat, tokens) →
      (∀ p ∈ d.xdu.ctxs.ents, ¬ p.2.order < c.order) →
      let idx := (d.eptRec c.part).index (xLayer c.desc) x.toNat
      let cap := eptCap (d.eptEntry idx)
      let e := d.upXdu (fun y => { y with window := y.window.set (65536 * die.val + idx) cap })
      d.xdu.hurt.contains idx = false →
      (min cap tokens.length = 0 → exec (.batchLeave die slot x true) s = .next (s.withDev (e.xduDefer (64 * die.val + slot.val) x.toNat tokens))) ∧
      (min cap tokens.length ≠ 0 → e.xduOutstanding die.val < 4096 → exec (.batchLeave die slot x true) s = .next (s.withDev
        (e.xduLeave (64 * die.val + slot.val) c x.toNat idx (min cap tokens.length) cap tokens)))) ∧
    (d.alive = true → exec .eptData0Read s = .next (s.withDev
      ((d.upXdu (fun x => { x with latch := d.eptEntry (d.fget Reg.XDU_EPT_INDEX_INDEX) })).emit
        (.regRead 0 (Reg.XDU_EPT_DATAi 0) 4 (BitVec.ofNat 64 (bvFld (d.eptEntry (d.fget Reg.XDU_EPT_INDEX_INDEX)) 0 32))))))

/-- Outputs, timeouts, peers and the result flag (R210, R211, R212, R214, R215, R219, R220, R222). A done message of the
context's batch brings its output rows in, one with a bad status ends the context, and one of a wrong epoch is counted
stale; a batch past the limit is counted and ends its context with FLUSHED; a batch of a peer is placed with its token
numbers and records in the dispatch area of a cluster here, whose engine tile is notified, and one that no cluster can
serve is answered MALFORMED; a peer's result brings its rows in, its bad status ends the context, and one that no
batch expects is counted stale; the result flag is written once every row has landed, and the context completes. -/
def Obligations.DispatchBatchResults : Prop :=
  ∀ s : State,
    let d := s.dev
    d.live = true →
    (∀ (die : Fin 4) m rest, takeFirst (fun (m : NocMsg) => decide (m.toEngine = some (0x40 + die.val))) d.tl.noc = some (m, rest) →
      ∀ t ch, m.src = .tile t ch →
      let e := (d.upTl (fun y => { y with noc := rest })).updTile t (fun x => { x with cred := x.cred.set ch (min 8 (x.cred.get 8 ch + 1)) })
      let mine (b : XBatch) : Bool := b.isDone (m.data.setWidth 32) (clusterOf t)
      (epochKind m.epoch (e.roleEpoch m.part) ≠ .current → exec (.doneMessage die) s = .next (s.withDev (e.finc (Reg.XDU_STALE_DROPd_COUNT die)))) ∧
      (epochKind m.epoch (e.roleEpoch m.part) = .current → ∀ key c b k u off len, e.xduFind mine = some (key, c, b) → b.site = .here k u off len →
        let n := b.tokens.length
        let a := clusterBase k + off + roundUp (4 * n) 64
        let w := n * 4 * xWidth c.desc
        (bvFld m.data 48 8 = 0 → e.memStatus false a w = .ok → exec (.doneMessage die) s = .next (s.withDev
          ((e.noteAccess false a w).xduOutputs key b (rowsOf (xWidth c.desc) n (e.memBytes a w))))) ∧
        (∀ st : Status, st ≠ .ok → st.code < 0x16 → bvFld m.data 48 8 = st.code → exec (.doneMessage die) s = .next (s.withDev (e.xduBatchFail key b st))))) ∧
    (∀ id : W32, d.fget Reg.XDU_BATCH_TIMEOUT_LIMIT_US ≠ 0 → ∀ key c b, d.xduFind (fun b => decide (b.id = id)) = some (key, c, b) →
      exec (.batchTimeout id) s = .next (s.withDev ((d.finc (Reg.XDU_TIMEOUTd_COUNT (key / 64))).xduBatchFail key b .flushed))) ∧
    (∀ (src : Fin 64) part cells rest, d.dispatchMsg src.val = some (part, cells, rest) →
      let h := ((cells.head?).getD 0).toNat
      let e := d.upOnf (fun o => { o with inbox := rest })
      let idx := (d.eptRec part).index (fld h 64 16) (fld h 80 16)
      (fld h 0 8 = 1 → d.xdu.hurt.contains idx = false → d.pickCluster (fun c => c / 8) (eptMask (d.eptEntry idx)) = none →
        exec (.remoteBatch src) s = .next (s.withDev (e.xduReturn
          ⟨src, BitVec.ofNat 32 (fld h 32 32), 0, part, fld h 96 16, fld h 112 16, (cells.head?).getD 0, 0, 0, 0, 0, 0⟩ .malformed))) ∧
      (fld h 0 8 = 1 → d.xdu.hurt.contains idx = false → ∀ k off, d.pickCluster (fun c => c / 8) (eptMask (d.eptEntry idx)) = some k →
        let n := fld h 96 16
        let w := fld h 112 16
        let fmt := fld h 128 8
        let t := 16 * k + eptTile (d.eptEntry idx)
        let mb := eptMbox (d.eptEntry idx)
        d.areaFind part k (roomServed n w fmt) = some off → d.engineCredit t mb ≠ 0 →
        let g := e.finc (Reg.XDU_REMOTE_INd_COUNT (k / 8))
        let out := off + roundUp (4 * n) 64
        let rows := out + n * 4 * w
        let x : XServed := ⟨src, BitVec.ofNat 32 (fld h 32 32), k / 8, part, n, w, (cells.head?).getD 0, k, t, off, roomServed n w fmt, clusterBase k + out⟩
        g.memStatus true (clusterBase k + off) (roomServed n w fmt) = .ok →
        let g1 := g.memWrite (clusterBase k + off) ((List.range n).flatMap (fun i => leBytes 4 i))
        let g2 := g1.memWrite (clusterBase k + rows) ((cellBytes (cells.drop 1)).take (n * trecOf fmt w))
        let note := notice (fld h 32 32) n (fld h 64 16) (fld h 80 16) fmt w (space1 k rows) (space1 k off) (space1 k out) (eptWeights (d.eptEntry idx))
        exec (.remoteBatch src) s = .next (s.withDev ((g2.upXdu (fun y => { y with served := y.served ++ [x] })).engineSend (0x40 + k / 8) t mb part note))) ∧
      (fld h 0 8 = 2 →
        let batch := e.xduFind (fun b => decide (b.id.toNat = fld h 32 32) && decide (b.site = .peer src.val))
        (batch = none → exec (.remoteResult src) s = .next (s.withDev (e.fadd (Reg.XDU_STALE_DROPd_COUNT (fld h 62 2)) cells.length))) ∧
        (∀ key c b, batch = some (key, c, b) →
          (fld h 8 8 = 0 → exec (.remoteResult src) s = .next (s.withDev
            (e.xduOutputs key b (rowsOf (xWidth c.desc) b.tokens.length (cellBytes (cells.drop 1)))))) ∧
          (∀ st : Status, st ≠ .ok → fld h 8 8 = st.code → exec (.remoteResult src) s = .next (s.withDev (e.xduBatchFail key b st)))))) ∧
    (∀ (die : Fin 4) (slot : Fin 64),
      let key := 64 * die.val + slot.val
      let e := d.xduCombineAll key
      ∀ c, e.xdu.ctxs.find key = some c → c.tokens ≠ 0 → c.rows.length = c.tokens → c.inFlight = 0 → c.flagSent = false → xPath c.desc = 1 →
      ∀ g, e.keyWrite c.user (xOutKey c.desc) (xFlagAddr c.desc) c.flag true = (g, none) →
        exec (.resultFlag die slot) s = .next (s.withDev (g.xduEnd key c.good)))

/-- States of a pod link (R225, R226, R227, R228, R244, R268). After 100 ms in DOWN a link that is not disabled trains;
training with at least 3 good lanes ends in ADMIT with LANES and LAT0 set and the identity sent, and otherwise in
DOWN; a link in ADMIT that meets every condition comes into service and otherwise shows the first condition that
fails; silence starts retraining; retraining ends UP with 4 good lanes, DEGRADED with 3 and DOWN below, the replay
buffer resent, and DOWN at its limit; writing DISABLE holds the link DISABLED and releases it to TRAINING; writing
RETRAIN retrains an open link. -/
def Obligations.LinkStateResults : Prop :=
  ∀ (s : State) (n : Fin 64),
    let d := s.dev
    let k := n.val
    d.running = true → (d.onfLink k).testing = false →
    (d.linkState k = 0 → d.fon (Reg.ONF_LINKn_CTL_DISABLE k) = false → exec (.trainingRestart n) s = .next (s.withDev (d.startTraining k))) ∧
    (d.linkState k = 1 → ∀ lanes : BitVec 4,
      let good := d.goodLanes k lanes
      let e := d.fset (Reg.ONF_LINKn_STATE_LANES k) good.toNat
      (3 ≤ popBits 4 good.toNat → exec (.trainingDone n lanes true) s = .next (s.withDev
        ((((e.fset (Reg.ONF_LINKn_LAT_LAT0 k) (e.onfLink k).echoMax).setLinkState k 2).showReason k false).emit
          (.ident k ((e.fset (Reg.ONF_LINKn_LAT_LAT0 k) (e.onfLink k).echoMax).ownIdent k))))) ∧
      (popBits 4 good.toNat < 3 → exec (.trainingDone n lanes true) s = .next (s.withDev (e.linkOut k 0))) ∧
      exec (.trainingDone n lanes false) s = .next (s.withDev (e.linkOut k 0))) ∧
    (d.linkState k = 2 → ∀ aligned,
      (d.admitReason k aligned = 0 → exec (.admission n aligned) s = .next (s.withDev (d.linkIn k))) ∧
      (d.admitReason k aligned ≠ 0 → exec (.admission n aligned) s = .next (s.withDev (d.showReason k aligned)))) ∧
    exec (.peerSilent n) s = .next (s.withDev (d.startRetrain k)) ∧
    (d.linkState k = 5 → ∀ lanes : BitVec 4,
      let good := d.goodLanes k lanes
      let e := (d.fset (Reg.ONF_LINKn_STATE_LANES k) good.toNat).fset (Reg.ONF_LINKn_CTL_RETRAIN k) 0
      let up (st : Nat) := ((e.setLinkState k st).report k st none).replayAll k
      (popBits 4 good.toNat = 4 → exec (.retrainDone n lanes) s = .next (s.withDev ((((up 3).pump k (((up 3).onfLink k).queue.length))).releaseHeld))) ∧
      (popBits 4 good.toNat = 3 → exec (.retrainDone n lanes) s = .next (s.withDev ((((up 4).pump k (((up 4).onfLink k).queue.length))).releaseHeld))) ∧
      (popBits 4 good.toNat < 3 → exec (.retrainDone n lanes) s = .next (s.withDev (e.linkOut k 0))) ∧
      exec (.retrainLimit n) s = .next (s.withDev (d.linkOut k 0))) ∧
    (∀ w : W32,
      let e := d.fset (Reg.ONF_LINKn_CTL_DISABLE k) (b2n (bitAt w.toNat 0))
      (e.onfLink k).testing = false →
      (bitAt w.toNat 0 = true → exec (.linkDisable n w) s = .next (s.withDev (e.linkOut k 6))) ∧
      (bitAt w.toNat 0 = false → e.linkState k = 6 → exec (.linkDisable n w) s = .next (s.withDev (e.startTraining k))) ∧
      (bitAt w.toNat 1 = true → d.linkOpen k = true →
        exec (.retrain n w) s = .next (s.withDev ((d.fset (Reg.ONF_LINKn_CTL_RETRAIN k) 1).startRetrain k))))

/-- Cells of a pod link (R227, R229, R232, R242, R243, R250, R255, R256). IDLE brings acknowledgements and credits;
LINK_NAK drops what it acknowledges and replays the rest; IDENT in training or ADMIT stores the peer's identity;
ECHO_REQ is answered; ECHO_RSP measures the latency, in training the calibration's and on an open link the present
one; the remeasurement of every 64th frame sends a request and measures; a bad CRC is counted; a DATA cell that the
link takes enters its burst at its destination and is forwarded at another rank; EPOCH_NAK ends the context it names. -/
def Obligations.LinkCellResults : Prop :=
  ∀ (s : State) (n : Fin 64),
    let d := s.dev
    let k := n.val
    d.live = true →
    (d.linkOpen k = true → ∀ (hdr : BitVec 96) (rt hold : Nat),
      exec (.idle n hdr) s = .next (s.withDev (d.takeReturns k hdr)) ∧
      exec (.linkNak n hdr) s = .next (s.withDev
        (((d.updLink k (fun l => { l with replay := ackCells l (hdrLack hdr) })).replayAll k).takeReturns k hdr)) ∧
      exec (.crcFailure n) s = .next (s.withDev ((d.finc (Reg.ONF_LINKn_CRC_ERR_COUNT k)).cellFailed k)) ∧
      exec (.latencyRemeasure n rt hold) s = .next (s.withDev
        ((d.emit (.plainCell k (mkHdr 6 0 0 d.rank 0 0 0 0 0 0))).measure k (latencyOf rt hold))) ∧
      (d.linkState k ≠ 1 → exec (.echoRsp n rt hold) s = .next (s.withDev (d.measure k (latencyOf rt hold))))) ∧
    (d.linkState k = 1 → ∀ (rank link : Fin 64) (leader : BitVec 8) (committed : Bool) (img : W64) (ep : W32) (rt hold : Nat),
      (let e := (((d.updLink k (fun l => { l with ident := some ⟨rank, link, false, leader.toNat, committed, img, ep⟩ })).fset
        (Reg.ONF_LINKn_STATE_PEER_RANK k) rank.val).fset (Reg.ONF_LINKn_STATE_PEER_LINK k) link.val)
      exec (.ident n rank link false leader committed img ep) s = .next (s.withDev (e.showReason k true))) ∧
      exec (.echoReq n) s = .next (s.withDev (d.emit (.echoRsp k))) ∧
      exec (.echoRsp n rt hold) s = .next (s.withDev ((d.fset (Reg.ONF_LINKn_LAT_LAT_NOW k) (latencyOf rt hold)).updLink k (fun l =>
        { l with echoes := l.echoes + 1, echoMax := max l.echoMax (latencyOf rt hold) })))) ∧
    (∀ (hdr : BitVec 96) (p : BitVec 512) e, d.takeCell k hdr = (e, true) → e.rankFenced (e.mapRank k) = false →
      (hdrDst hdr = e.rank → exec (.data n hdr p) s = .next (s.withDev (e.takeData hdr p)) ∧
        exec (.epochNak n hdr p) s = .next (s.withDev (e.nakContext p))) ∧
      (hdrDst hdr ≠ e.rank → exec (.data n hdr p) s = .next (s.withDev (e.forward ⟨hdr, .data p⟩)) ∧
        exec (.epochNak n hdr p) s = .next (s.withDev (e.forward ⟨hdr, .data p⟩)))) ∧
    (∀ (hdr : BitVec 96) (p : BitVec 512) e, d.takeCell k hdr = (e, true) → e.rankFenced (e.mapRank k) = true →
      exec (.data n hdr p) s = .next (s.withDev (e.finc Reg.ONF_FENCE_DROP_COUNT)))

/-- Control messages and the leader's registers (R252, R253, R254, R257, R258, R259, R260, R263, R266, R267). The first
copy of a SWITCH broadcast is passed on and joins the pending switches, FAULT and a part of a congestion map are taken
by the leader and passed on toward it by others, a first copy of a FENCE sets the fence mask, and of a CLAIM leaves
the lowest rank heard until the election closes; the leader's writes of ONF_FENCE and ONF_ROUTE_CMD with GO are
announced, and on others ONF_FENCE is unchanged and GO does nothing beyond SET; ONF_RECAL marks each link within P_MAX
and refuses the others with an event; the announced frame changes the route set, counts the schedule's epoch, and
recalibrates the marked links. -/
def Obligations.FabricControlResults : Prop :=
  ∀ (s : State) (h : CtlHead),
    let d := s.dev
    (∀ e, CtlTaken d h e → h.scope = 2#8 → ∀ g : CtlMsg → Dev, (∀ m, e.relay h.link.val (hdrSrc h.hdr) h.bseq.toNat m = (g m, true)) →
      (∀ (set : Fin 4) (frame : Nat) (ep : BitVec 16) (lost recal : W64),
        exec (.switch h set frame ep lost recal) s = .next (s.withDev
          ((g (.switch set.val frame ep.toNat lost recal)).takeSwitch set.val frame ep.toNat lost recal))) ∧
      (∀ mask : W64, exec (.fenceBroadcast h mask) s = .next (s.withDev ((g (.fence mask)).takeFence mask))) ∧
      (∀ rank : Fin 64, (g (.claim rank.val)).onf.closed = false → exec (.claim h rank) s = .next (s.withDev
        ((g (.claim rank.val)).upOnf (fun o => { o with claim := some (min (o.claim.getD 64) rank.val) }))))) ∧
    (∀ e, CtlTaken d h e → ∀ (r l rank : Fin 64) (st : Fin 7) (lost : Option (Fin 64)) (part : Fin 12) (bytes : BitVec 384),
      (e.leads = true → exec (.fault h r l st lost) s = .next (s.withDev (e.takeFault r.val l.val st.val (lost.map (·.val)))) ∧
        exec (.cmap h rank part bytes) s = .next (s.withDev (e.cmapPart rank.val part.val bytes))) ∧
      (e.leads = false → exec (.fault h r l st lost) s = .next (s.withDev
          (e.toLeader (hdrSrc h.hdr) (.fault r.val l.val st.val (lost.map (·.val))))) ∧
        exec (.cmap h rank part bytes) s = .next (s.withDev (e.toLeader (hdrSrc h.hdr) (.cmap rank.val part.val bytes))))) ∧
    (d.alive = true → ∀ w : W64,
      (d.leads = true → exec (.onfFenceWrite w) s = .next (s.withDev (d.announce (.fence w) (fun e => e.takeFence w)))) ∧
      (d.leads = false → exec (.onfFenceWrite w) s = .next s) ∧
      (∀ n, bitsOf 64 w.toNat = [n] →
        (d.fget (Reg.ONF_LINKn_LAT_LAT_NOW n) + d.linkG n ≤ d.linkPMax n →
          exec (.onfRecal w) s = .next (s.withDev (d.updLink n (fun l => { l with recal := true })))) ∧
        (d.linkPMax n < d.fget (Reg.ONF_LINKn_LAT_LAT_NOW n) + d.linkG n →
          exec (.onfRecal w) s = .next (s.withDev (d.post 0 .recalRefused 0 n))))) ∧
    (d.alive = true → ∀ w : W32,
      let e := d.fset Reg.ONF_ROUTE_CMD_SET (w.toNat % 4)
      (bitAt w.toNat 2 = false → exec (.routeCmdGo w) s = .next (s.withDev e)) ∧
      (bitAt w.toNat 2 = true → e.leads = true →
        let ranks := (bitsOf 64 (e.regGet Reg.ONF_LOST).toNat ++ bitsOf 64 (e.regGet Reg.ONF_FENCE).toNat).eraseDups
        exec (.routeCmdGo w) s = .next (s.withDev
          ((e.upOnf (fun o => { o with avoidRanks := ranks, avoidLinks := o.failedLinks })).announceSet (w.toNat % 4))))) ∧
    (d.live = true → ∀ x, d.onf.switches = [x] →
      let e := d.upOnf (fun o => { o with switches := [] })
      let e := e.fset Reg.ONF_ROUTE_STATUS_ACTIVE_SET x.set
      let e := e.fset Reg.ONF_ROUTE_STATUS_SCHED_EPOCH ((e.fget Reg.ONF_ROUTE_STATUS_SCHED_EPOCH + 1) % 65536)
      let e := (e.fset Reg.ONF_ROUTE_STATUS_PENDING 0).fset Reg.ONF_ROUTE_STATUS_NEXT_SET x.set
      (∀ n ∈ List.range 64, (e.onfLink n).recal = false) →
        exec .switchFrame s = .next (s.withDev ((e.post 0 .routeSwitch 0
          (x.set + x.frame % 2 ^ 32 * 2 ^ 16 + e.fget Reg.ONF_ROUTE_STATUS_SCHED_EPOCH * 2 ^ 48)).releaseHeld.review)))

/-- Pod time, leadership and congestion maps (R237, R238, R247, R248, R251, R252, R265, R266). A first PODTIME of a leader
that the device may follow makes it follow, aligns it and remembers the copy, and the broadcast is passed on one hop
further; the leader sends PODTIME; a device with its strap high claims with its own rank; after 64 silent frames the
first backup rank that is not lost leads; the election closes on the image's leader; each frame start takes pod time
to the next frame and moves the alignment offset by at most 1 toward 0; a member's interval ends with its record sent
toward the leader in 12 parts, its counters cleared and the interval counted. -/
def Obligations.PodTimeResults : Prop :=
  ∀ s : State,
    let d := s.dev
    (∀ (h : CtlHead) (leader : Fin 64) (time : W64) (frames : BitVec 16) (en : Bool) (hops : Nat) e, CtlTaken d h e →
      e.onf.seen.contains (hdrSrc h.hdr, h.bseq.toNat) = false → e.podtimeTaken leader.val = true →
      let src := e.mapRank h.link.val
      let g := ((e.takeLeader leader.val true).alignTo h.link.val time).upOnf (fun o =>
        { o with lastPod := some (h.bseq.toNat, hops, src), claim := none, cmapFrames := max 16 frames.toNat, cmapEn := en })
      exec (.podtime h leader time frames en hops) s = .next (s.withDev
        (g.relay h.link.val (hdrSrc h.hdr) h.bseq.toNat (.podtime leader.val time frames.toNat en (hops + 1))).1)) ∧
    (d.live = true → d.leads = true →
      let e := d.upOnf (fun o => { o with cmapFrames := d.cmapFrames, cmapEn := d.fon Reg.ONF_CMAP_CTL_EN })
      exec .podtimeSend s = .next (s.withDev (e.broadcast (.podtime e.rank (e.regGet Reg.ONF_PODTIME) e.onf.cmapFrames e.onf.cmapEn 0)))) ∧
    (d.live = true → d.fon Reg.GLB_STRAPS_LEADER = true → d.committed = true → d.imageLeader = 0xFF → d.onf.upSeen = true →
      d.onf.closed = false → d.onf.follows = false → d.rank ≤ d.onf.claim.getD 64 →
      exec .claimSend s = .next (s.withDev ((d.upOnf (fun o => { o with claim := some d.rank })).broadcast (.claim d.rank)))) ∧
    (d.live = true → d.committed = true → d.leads = false → d.onf.closed = true → ∀ r rest,
      (listOf 4 (fun i => (d.sec secPodTopology).u8 (8 + i))).filter (fun r => decide (r < 64) && !d.rankLost r) = r :: rest →
      exec .leaderSilence s = .next (s.withDev (d.takeLeader r (decide (r ≠ d.rank))))) ∧
    (d.live = true → d.committed = true → d.onf.upSeen = true → d.onf.closed = false → d.onf.follows = false → d.imageLeader ≠ 0xFF →
      exec .electionClose s = .next (s.withDev ((d.upOnf (fun o => { o with closed := true })).takeLeader d.imageLeader false))) ∧
    (d.live = true → d.frameAligned = true →
      let o : Int := if 0 < d.onf.offset then d.onf.offset - 1 else if d.onf.offset < 0 then d.onf.offset + 1 else d.onf.offset
      let e := (d.upOnf (fun x => { x with offset := o })).fset Reg.ONF_ALIGN_OFFSET (BitVec.ofInt 8 (max (-128) (min 127 o))).toNat
      let e := e.regSet Reg.ONF_PODTIME (BitVec.ofNat 64 ((e.podTime / 1024 + 1) * 1024))
      (∀ n ∈ List.range 64, e.linkState n ≠ 1 ∧ e.linkState n ≠ 2) → e.leads = false → exec .frameStart s = .next (s.withDev e)) ∧
    (d.live = true → d.committed = true → d.leads = false → d.onf.cmapEn = true →
      let bs := d.cmapRecord
      let cell (i : Nat) (e : Dev) : Dev := e.toLeader e.rank (.cmap e.rank i (BitVec.ofNat 384 (leNat ((bs.drop (48 * i)).take 48))))
      let e := (List.range 12).foldl (fun e i => cell i e) { d with fresh := d.fresh + 64 }
      exec .cmapIntervalEnd s = .next (s.withDev (e.upOnf (fun o =>
        { o with interval := o.interval + 1, links := o.links.mapVal (fun _ l => { l with stalls := 0, replays := 0, slip := 0 }) }))))

/-- Descriptors and cells of a collective (R274, R275, R276, R280, R281, R283, R285, R287). A slice takes the descriptor
at the front of a collective queue in its turn; GATHER reaches the collective it names, is held when its SEQ is still
to come and is counted stale otherwise; VERDICT at a ring member is passed on and taken; a data burst that the member
expects is taken once it is whole and one that is not expected is dropped and counted; a member that has every burst
becomes ready, and ROOT or member 0 commits; a COMMIT reaches a member, and back at member 0 closes the ring; RELEASE
closes the collective with OK. -/
def Obligations.CollectiveResults : Prop :=
  ∀ s : State,
    let d := s.dev
    d.live = true →
    (∀ (qid : BitVec 16) q e, d.wqFind qid.toNat = some q → q.front = some e → wqClass q.ctx = 3 →
      ∀ g f, d.wqTurn (1 + d.smvDie e) 3 qid.toNat (fun _ _ x => d.smvCan (d.smvDie e) x) = some (g, f) →
      exec (.collective qid) s = .next (s.withDev (g.smvTake qid.toNat q f))) ∧
    (∀ (die : Fin 4) (src : Fin 64) b rest, d.smvBurst die.val src.val = some (b, rest) →
      let e := d.upOnf (fun o => { o with inbox := rest })
      let p := b.cells.headD 0
      let x := smvCell p
      (x.kind = 1 →
        (∀ c, e.smvMatch die.val x = some c → exec (.gather die src) s = .next (s.withDev (e.smvGather c src.val x))) ∧
        (e.smvMatch die.val x = none →
          ((e.grpMembers x.group).head? = some x.anchor ∧ (e.grp x.group).slice = die.val ∧ e.seqAhead x.group x.seq = true →
            exec (.gather die src) s = .next (s.withDev (e.upSmv (fun y => { y with held := y.held ++ [⟨x.group, die.val, src.val, p⟩] })))) ∧
          (e.seqAhead x.group x.seq = false → exec (.gather die src) s = .next (s.withDev (e.finc (Reg.SMV_STALEd_COUNT die)))))) ∧
      (x.kind = 2 → ∀ c, e.smvMatch die.val x = some c → c.phase = 1 → opPair c.op = false → c.me ≠ 0 →
        exec (.verdict die src) s = .next (s.withDev
          ((e.smvSend (c.take x) true (c.take x).succ [{ (c.take x).cell 2 with digest := x.digest }.bits]).smvVerdict (c.take x)))) ∧
      (x.kind = 3 → ∀ c, e.smvMatch die.val x = some c →
        (opPair c.op = false → c.me ≠ 0 → exec (.collectiveCommit die src) s = .next (s.withDev (e.smvCommit { c with commitIn := true }))) ∧
        (opPair c.op = false → c.me = 0 → c.phase = 3 → exec (.collectiveCommit die src) s = .next (s.withDev
          ((e.smvSend c true c.succ [(c.cell 4).bits]).smvClose c.group .ok 0)))) ∧
      (x.kind = 4 → ∀ c, e.smvMatch die.val x = some c → c.phase = 3 →
        (opPair c.op = true ∨ c.succ = 0 → exec (.release die src) s = .next (s.withDev (e.smvClose c.group .ok 0))) ∧
        (opPair c.op = false → c.succ ≠ 0 → exec (.release die src) s = .next (s.withDev
          ((e.smvSend c true c.succ [(c.cell 4).bits]).smvClose c.group .ok 0)))) ∧
      (x.kind = 2 → e.smvMatch die.val x = none → exec (.verdict die src) s = .next (s.withDev (e.fadd (Reg.SMV_STALEd_COUNT die) b.cells.length))) ∧
      (x.kind = 5 →
        let key := (x.phase, if x.phase = 3 then x.srcMember else x.chunk)
        ∀ c, d.smvMatch die.val x = some c →
        (c.phase = 2 → c.expected.contains key = true → c.got.contains key = false →
          (x.phase ≠ 3 → c.members.getD c.pred 64 = src.val) → (x.phase = 3 → c.members.getD x.srcMember 64 = src.val) →
          let m := d.smvMessage die.val src.val (1 + c.dataCells x)
          1 + c.dataCells x ≤ m.1.length →
          exec (.dataHdr die src) s = .next (s.withDev
            (((d.upOnf (fun o => { o with inbox := m.2 })).smvPut { c with got := c.got ++ [key] }).smvTakeData
              { c with got := c.got ++ [key] } x (dataBytes m.1)))) ∧
        (c.expected.contains key = false →
          let m := d.smvMessage die.val src.val (2 ^ 64)
          exec (.dataHdr die src) s = .next (s.withDev ((d.upOnf (fun o => { o with inbox := m.2 })).fadd (Reg.SMV_STALEd_COUNT die) m.1.length))))) ∧
    (∀ (group : BitVec 8) c, d.smv.colls.find group.toNat = some c → c.phase = 2 → c.ready = false →
      (∀ k ∈ c.expected, k ∈ c.got) →
      (opPair c.op = false → c.me = 0 → exec (.commitReady group) s = .next (s.withDev
        ((d.smvPut { c with ready := true, phase := 3 }).smvSend { c with ready := true, phase := 3 } true { c with ready := true, phase := 3 }.succ
          [({ c with ready := true, phase := 3 }.cell 3).bits]))) ∧
      (opPair c.op = false → c.me ≠ 0 → exec (.commitReady group) s = .next (s.withDev (d.smvCommit { c with ready := true }))))

/-- Sequence bases, aborts, timeouts and lag (R276, R277, R292, R293, R295, R298). The first copy of a BASE sets the SEQ
of one group and of a BASE_ALL the base of all; of an ABORT it ends or records the SEQ; the leader's GO is announced;
a held GATHER past its time is answered MEMBER_LOST; a collective past its time fails with MEMBER_LOST naming the
member it waits for; CLEAR clears every lag counter. -/
def Obligations.CollectiveControlResults : Prop :=
  ∀ s : State,
    let d := s.dev
    (∀ (h : CtlHead) e, CtlTaken d h e → h.scope = 2#8 → ∀ g : CtlMsg → Dev,
      (∀ m, e.relay h.link.val (hdrSrc h.hdr) h.bseq.toNat m = (g m, true)) → ∀ (group : BitVec 8) (seq : W32) (o : Fin 64),
      exec (.seqnumBase h group seq o) s = .next (s.withDev
        ((g (.seqnum 0 group.toNat 0 0 seq 0 o.val)).upSmv (fun y => { y with seqs := y.seqs.set group.toNat seq.toNat }))) ∧
      exec (.seqnumBaseAll h seq o) s = .next (s.withDev
        ((g (.seqnum 2 0 0 0 seq 0 o.val)).upSmv (fun y => { y with started := true, base := seq.toNat, seqs := ⟨[]⟩ }))) ∧
      (∀ (anchor : Fin 64) (st : Status) (code : BitVec 8) (members : W64), code.toNat = st.code →
        exec (.seqnumAbort h group anchor code seq members o) s = .next (s.withDev
          ((g (.seqnum 1 group.toNat anchor.val code.toNat seq members o.val)).smvAbort group.toNat anchor.val seq.toNat st members)))) ∧
    (∀ w : W32, d.alive = true → bitAt w.toNat 0 = true → d.leads = true → bitAt w.toNat 1 = false →
      let b := d.fget Reg.SMV_SEQ_BASE_BASE
      exec (.seqBaseGo w) s = .next (s.withDev ((d.broadcast (.seqnum 2 0 0 0 (BitVec.ofNat 32 b) 0 d.rank)).upSmv (fun y =>
        { y with started := true, base := b, seqs := ⟨[]⟩ })))) ∧
    (∀ (group : BitVec 8) h rest, d.live = true → takeFirst (fun (h : SmvHeld) => decide (h.group = group.toNat)) d.smv.held = some (h, rest) →
      let x := smvCell h.cell
      let me := (d.grpMembers group.toNat).findIdx (fun r => decide (r = d.rank))
      exec (.gatherHoldTimeout group) s = .next (s.withDev
        ((d.upSmv (fun y => { y with held := rest })).smvTell group.toNat x.anchor x.seq .memberLost (BitVec.ofNat 64 (2 ^ me))))) ∧
    (∀ (group : BitVec 8) c k, d.live = true → d.smv.colls.find group.toNat = some c → c.waitsFor = some k →
      exec (.memberWaitTimeout group) s = .next (s.withDev (d.smvFail group.toNat .memberLost (BitVec.ofNat 64 (2 ^ k))))) ∧
    (∀ w : W32, d.alive = true → bitAt w.toNat 0 = true → ∃ u, exec (.lagClear w) s = .next u ∧ u.pending = s.pending ∧
      (∀ m < 64, u.dev.regGet (Reg.SMV_LAGm m) = 0) ∧ (∀ a, (∀ m < 64, a ≠ Reg.SMV_LAGm m) → u.dev.regGet a = d.regGet a) ∧
      u.dev.smv = d.smv ∧ u.dev.mem = d.mem ∧ u.dev.out = d.out)

/-- Doorbells, consumer words, peer writes and CXL.mem (R302, R305, R306, R308, R309, R316, R327). A doorbell that names
an active queue of its page and a tail within its ring advances the tail, one that does not is counted and reported; a
consumer word within what has been written is taken and one beyond it is dropped; a peer write through a window with a
key writes its bytes at the translated address, and is dropped and counted without a key or when poisoned; a BAR4 read
is answered Unsupported Request; a CXL.mem access reads or writes the 64-byte line of the exposed region. -/
def Obligations.HostWindowResults : Prop :=
  ∀ (s : State) (fn : Fin 264),
    let d := s.dev
    d.live = true → d.isFn fn.val = true →
    (∀ (off : Nat) (val : W64) g q, off % 8 = 0 → off ≠ 0x800 → off % 4096 ≤ 0x1F8 → d.fnState fn.val = 1 → d.pageGroup fn.val (off / 4096) = some g →
      let qid := 64 * g + off % 4096 / 8
      let tail := fld val.toNat 16 32
      fld val.toNat 2 14 = 0 → d.wqFind qid = some q →
      (fld val.toNat 48 16 = qid → dbFits q tail = true →
        exec (.doorbell fn off 8 val) s = .next (s.withDev (d.dbAccept qid tail (val.getLsbD 1) (val.getLsbD 0)))) ∧
      (dbFits q tail = false → exec (.doorbell fn off 8 val) s = .next (s.withDev
        ((d.finc Reg.WQS_DB_DROP_COUNT).post fn.val .doorbellBad 0 (qid + tail * 65536))))) ∧
    (∀ (val : W64) q, d.ev.eqs.find fn.val = some q → val.getLsbD 32 = false →
      let c := fld val.toNat 0 32
      ((4294967296 + c - q.consumed) % 4294967296 ≤ (4294967296 + q.written - q.consumed) % 4294967296 →
        exec (.eqConsumerWord fn val) s = .next (s.withDev
          ((d.upEv (fun e => { e with eqs := e.eqs.set fn.val { q with consumed := c } })).postPending fn.val 4100))) ∧
      ((4294967296 + q.written - q.consumed) % 4294967296 < (4294967296 + c - q.consumed) % 4294967296 →
        exec (.eqConsumerWord fn val) s = .next (s.withDev (d.finc Reg.WQS_DB_DROP_COUNT)))) ∧
    ((fn.val < 1 ∨ 256 ≤ fn.val) → ∀ (off : Nat) (bytes : List Byte),
      let w := off / 134217728
      let key := d.fget (Reg.HIF_WINk_w_KEY (fnLink fn.val) w)
      let a := mrBase (d.mrEntry (key / 256)) + d.fget (Reg.HIF_WINk_w_OFFSET_4K (fnLink fn.val) w) * 4096 + off % 134217728
      (d.bar4Shut = false → w < 255 → key ≠ 0 → ∀ p, d.checkKey key (d.peerUser fn.val) a bytes.length = .dev p →
        d.memStatus true p bytes.length = .ok → exec (.peerWrite fn off bytes false) s = .next (s.withDev (d.memWrite p bytes))) ∧
      (key = 0 → exec (.peerWrite fn off bytes false) s = .next (s.withDev (d.p2pDrop fn.val off))) ∧
      exec (.peerWrite fn off bytes true) s = .next (s.withDev (d.p2pDrop fn.val off))) ∧
    (∀ off, d.alive = true → exec (.bar4Read fn off) s = .next (s.withDev (d.emit (.unsupported fn.val off)))) ∧
    (∀ (line : Nat) r, d.cxlRegion = some r → 64 * line < r.len →
      let a := r.base + 64 * line
      (∀ x : BitVec 512, d.memStatus true a 64 = .ok → exec (.cxlMemAccess line (some x)) s = .next (s.withDev (d.memWrite a (leBytes 64 x.toNat)))) ∧
      (d.memStatus false a 64 = .ok → ∃ u, exec (.cxlMemAccess line none) s = .next u ∧
        u.pending = s.pending ∧ u.dev.out = (d.noteAccess false a 64).out ++ [.cxlData (d.memBytes a 64)] ∧ a ∈ u.dev.hif.hostLines))

/-- Work-queue and event-queue commands (R311, R312, R313, R326, R597, R598, R599, R602). CREATE_WQ with a context that
passes its checks makes the queue ACTIVE with empty counters and STATUS OK, and otherwise gives the first refusal;
DESTROY_WQ drains an active queue, and is OK on a queue in RESET; QUERY_WQ and QUERY_EQ return the state in the DATA
words; CREATE_EQ makes the queue and posts what waits; DESTROY_EQ removes it and keeps its pending store. -/
def Obligations.QueueCommandResults : Prop :=
  ∀ s : State,
    let d := s.dev
    Takes d Reg.WQS_CMD_STATUS_BUSY →
    (∀ qid : BitVec 16,
      (d.createWqCheck qid.toNat d.stagedWq = .ok → ∀ x : Wq, x.ctx = d.stagedWq → x.state = .active → x.tail = 0 → x.head = 0 → x.fails = 0 →
        x.next = 0 → x.fetched = [] → x.started = [] → x.finished = [] → x.complete = [] → x.tries = 0 → x.unpub = false → x.news = false →
        x.arm = false → x.quiet = false → x.events = [] →
        exec (.createWq qid) s = .next (s.withDev ((d.wqSet qid.toNat x).wqsStatus .ok))) ∧
      (d.createWqCheck qid.toNat d.stagedWq ≠ .ok →
        exec (.createWq qid) s = .next (s.withDev (d.wqsStatus (d.createWqCheck qid.toNat d.stagedWq)))) ∧
      (∀ q, d.wqFind qid.toNat = some q →
        (q.state = .active → exec (.destroyWq qid) s = .next (s.withDev
          ((((d.wqUpd qid.toNat (fun q => { q with state := .draining })).wqFlush qid.toNat 65537).wqDrained qid.toNat).wqsStatus .ok))) ∧
        exec (.queryWq qid) s = .next (s.withDev ((d.putWords Reg.WQS_CMD_DATAi 16
          (q.ctx.toNat + q.tail * 2 ^ 256 + q.head * 2 ^ 288 + q.fails * 2 ^ 320 + q.state.code * 2 ^ 352)).wqsStatus .ok))) ∧
      (d.wqFind qid.toNat = none → exec (.destroyWq qid) s = .next (s.withDev (d.wqsStatus .ok)) ∧
        exec (.queryWq qid) s = .next (s.withDev ((d.putWords Reg.WQS_CMD_DATAi 16 0).wqsStatus .ok)))) ∧
    (∀ target : BitVec 16,
      let fn := target.toNat
      let x := d.dataWords Reg.WQS_CMD_DATAi 3
      d.isFn fn = true →
      (fld x 0 64 % 4096 = 0 → fld x 64 16 < fnVectors fn → fld x 90 6 = 0 → (fn = 0 → fld x 80 10 = 0) → (d.ev.eqs.find fn).isSome = false →
        (fn ≠ 0 → (d.dtu.roots.find (fld x 80 10)).map (·.fn) = some fn) →
        exec (.createEq target) s = .next (s.withDev
          (((d.upEv (fun e => { e with eqs := e.eqs.set fn ⟨fld x 0 64, fld x 64 16, fld x 80 10, 0, 0, false, false, false⟩ })).postPending fn
            4100).wqsStatus .ok))) ∧
      ((d.ev.eqs.find fn).isSome = true → exec (.createEq target) s = .next (s.withDev (d.wqsStatus .malformed))) ∧
      exec (.destroyEq target) s = .next (s.withDev ((d.upEv (fun e => { e with eqs := e.eqs.del fn })).wqsStatus .ok)) ∧
      exec (.queryEq target) s = .next (s.withDev ((d.putWords Reg.WQS_CMD_DATAi 16 (d.eqQuery fn)).wqsStatus .ok)))

/-- Ring fetches, completions and host links (R301, R317, R321, R322, R334, R335, R336, R337). A ring fetch whose SEQ
matches adds the entry to those fetched, a first mismatch is tried again and a fetch again is counted; the entry that
an engine finished first completes; a completion word that waits is written; Recovery is counted and ends in UP, and a
link that trains shows its generation, width, FLIT and CXL and comes UP; a lost link ends everything behind it; a read
without its completion is counted and issued again once, and the second time ends its user; REINIT resets the queues,
event queues and roots of the link's functions. -/
def Obligations.EntryAndLinkResults : Prop :=
  ∀ s : State,
    let d := s.dev
    (∀ (qid : BitVec 16) q bs g p, d.wqFind qid.toNat = some q → q.state = .active → q.fetchIdx ≠ q.tail → d.live = true → q.fetched.length < 64 →
      (q.tries = 0 → (d.readEnd (.ring qid)).wqXlate qid.toNat (wqSlot q q.fetchIdx) false = (g, some p) →
        exec (.entryFetch qid (.ok bs)) s = .next (s.withDev (g.wqTake qid.toNat q (descOfBytes bs)))) ∧
      (q.tries ≠ 0 → ((d.finc Reg.WQS_REFETCH_COUNT).readEnd (.ring qid)).wqXlate qid.toNat (wqSlot q q.fetchIdx) false = (g, some p) →
        exec (.refetch qid (.ok bs)) s = .next (s.withDev (g.wqTake qid.toNat q (descOfBytes bs)))) ∧
      (∀ x : BitVec 512, descSeq x = q.fetchIdx % 65536 → g.wqTake qid.toNat q x =
        (g.wqSet qid.toNat { q with fetched := q.fetched ++ [⟨q.fetchIdx, x⟩], tries := 0 }).wqSettle qid.toNat 65537) ∧
      (∀ x : BitVec 512, descSeq x ≠ q.fetchIdx % 65536 → q.tries < 4 → g.wqTake qid.toNat q x = g.wqSet qid.toNat { q with tries := q.tries + 1 })) ∧
    (∀ (qid : BitVec 16) q, d.wqFind qid.toNat = some q →
      (∀ x rest, q.finished = x :: rest → exec (.entryCompletion qid) s = .next (s.withDev
        ((((d.wqSet qid.toNat { q with finished := rest }).wqComplete qid.toNat x).wqDrained qid.toNat).wqSettle qid.toNat 65537))) ∧
      (q.unpub = true → q.state = .active → exec (.completionWordWrite qid) s = .next (s.withDev (d.wqPublish qid.toNat)))) ∧
    (∀ k : Fin 8,
      let st := d.fget (Reg.HIF_LINKk_STATUS_STATE k)
      (st = 2 → exec (.linkRecovery k) s = .next (s.withDev ((d.finc (Reg.HIF_LINKk_RECOVERY_COUNT k)).hifState k 3))) ∧
      (d.alive = true → d.linkPresent k = true → d.pw.initDone = true → d.pw.perst.getLsbD (k.val / 2) = true →
        ∀ (gen : Fin 8) (width : BitVec 5) (flit cxl : Bool),
        (st = 3 → exec (.hostLinkUp k gen width flit cxl) s = .next (s.withDev (d.hifState k 2))) ∧
        (st ≠ 2 → st ≠ 3 → 3 ≤ gen.val → gen.val ≤ 6 → (d.linkWidths k).contains width.toNat = true →
          let e := d.fset (Reg.HIF_LINKk_STATUS_GEN k) gen.val
          let e := e.fset (Reg.HIF_LINKk_STATUS_WIDTH k) width.toNat
          let e := e.fset (Reg.HIF_LINKk_STATUS_FLIT k) (b2n (flit || decide (gen.val = 6)))
          let e := e.fset (Reg.HIF_LINKk_STATUS_CXL k) (b2n (cxl && decide (k.val = 0) && d.pw.straps.cxl))
          let tell (e : Dev) (f : Nat) : Dev := if fnLink f = k.val ∧ (e.pendStore f).ents ≠ [] then e.postPending f 4100 else e
          exec (.hostLinkUp k gen width flit cxl) s = .next (s.withDev ((List.range 264).foldl tell ((e.hifState k 2).pcieLink k))))) ∧
      (d.alive = true → d.linkUp k = true → exec (.hostLinkLoss k) s = .next (s.withDev (d.linkLoss k))) ∧
      (d.live = true → d.linkUp k = true → ∀ user, d.reads user = true →
        (d.hif.reissued.contains user = false → exec (.cplTimeout k user) s = .next (s.withDev
          ((d.finc (Reg.HIF_LINKk_CPL_TO_COUNT k)).upHif (fun h => { h with reissued := h.reissued ++ [user] })))) ∧
        (d.hif.reissued.contains user = true → exec (.cplTimeout k user) s = .next (s.withDev (d.endReader user .lost .hostLost)))) ∧
      (d.alive = true → exec (.reinit k) s = .next (s.withDev (d.reinit k)) ∧
        (d.reinit k).wq.queues = d.wq.queues.keep (fun _ q => decide (fnLink (wqFn q.ctx) ≠ k.val)) ∧
        (d.reinit k).ev.eqs = d.ev.eqs.keep (fun f _ => decide (fnLink f ≠ k.val)) ∧
        (d.reinit k).dtu.roots = d.dtu.roots.keep (fun _ r => decide (fnLink r.fn ≠ k.val)) ∧ k.val ∉ (d.reinit k).hif.lost))

/-- Regions, roots, updates and fences (R424, R425, R428, R429, R431, R434, R435, R436, R441). REG_MR registers a region
that passes the checks under the next generation and answers its key, and otherwise the first refusal; REVOKE makes
the entry REVOKING, or is held with BUSY with 64 pending, and is KEY_REVOKED on an entry that is not ACTIVE;
REVOKE_DONE frees it; QUERY_MR reads it; SET_ROOT and CLEAR_ROOT set and clear a root; UPDATE applies its records when
all lie in the pool and none otherwise; SYNC_FENCE is noted and SYNC_DONE retires the older translations, counts and
posts; WALK_DONE counts a walk that waited. -/
def Obligations.TranslationResults : Prop :=
  ∀ s : State,
    let d := s.dev
    (Takes d Reg.DTU_CMD_STATUS_BUSY →
      (∀ index : BitVec 24,
        let i := index.toNat
        let e : BitVec 256 := BitVec.ofNat 256 (d.dataWords Reg.DTU_CMD_DATAi 8)
        let g := nextGen (mrGen (d.mrEntry i))
        let e' := bvSet (bvSet (bvSet e 0 8 1) 8 8 g) 192 8 ((d.fnPart (mrFunction e)).getD 0xFF)
        (d.regMrCheck i e = .ok → exec (.regMr index) s = .next (s.withDev
          (((d.upDtu (fun x => { x with mr := x.mr.set i e', hurt := x.hurt.filter (fun y => decide (y ≠ i)) })).regSet (Reg.DTU_CMD_DATAi 0)
            (BitVec.ofNat 64 (256 * i + g))).dtuStatus .ok))) ∧
        (d.regMrCheck i e ≠ .ok → exec (.regMr index) s = .next (s.withDev (d.dtuStatus (d.regMrCheck i e)))) ∧
        (mrState (d.mrEntry i) ≠ 1 → exec (.revoke index) s = .next (s.withDev (d.dtuStatus .keyRevoked))) ∧
        (mrState (d.mrEntry i) = 1 → d.dtu.revoking.length < 64 → exec (.revoke index) s = .next (s.withDev ((d.revokePoint i).dtuStatus .ok))) ∧
        (mrState (d.mrEntry i) = 1 → 64 ≤ d.dtu.revoking.length → exec (.revoke index) s = .next (s.withDev
          ((d.fset Reg.DTU_CMD_STATUS_BUSY 1).upDtu (fun x => { x with heldRevoke := some i })))) ∧
        exec (.queryMr index) s = .next (s.withDev ((d.putWords Reg.DTU_CMD_DATAi 8 (d.mrEntry i).toNat).dtuStatus .ok))) ∧
      (∀ target : BitVec 24,
        let r := fld target.toNat 0 10
        let x := d.dataWords Reg.DTU_CMD_DATAi 4
        let table := fld x 0 64
        (d.isFn (fld x 64 16) = true → d.linkPresent (fld x 80 8) = true → fld x 88 40 = 0 → table % 4096 = 0 → poolBase ≤ table →
          table < poolEnd → d.dtu.roots.find r = none → exec (.setRoot target) s = .next (s.withDev
            ((d.upDtu (fun y => { y with roots := y.roots.set r ⟨table, fld x 64 16, fld x 80 8⟩, seq := d.dtu.seq + 1, staleRoots := d.dtu.staleRoots
              })).dtuStatus .ok))) ∧
        (exec (.clearRoot target) s = .next (s.withDev ((d.upDtu (fun y =>
          { y with roots := y.roots.del r, staleRoots := y.staleRoots.filter (fun w => decide (w.root ≠ r)) })).dtuStatus .ok))) ∧
        (target.getLsbD 23 = false → exec (.syncFence target) s = .next (s.withDev
          ((d.upDtu (fun y => { y with syncs := y.syncs ++ [(some r, d.dtu.seq)] })).dtuStatus .ok)))) ∧
      (∀ bs : List Byte,
        let n := d.fget Reg.DTU_UPDATE_COUNT_COUNT
        1 ≤ n → n ≤ 65536 →
        ((∀ r ∈ updateRecords bs n, r.1 % 8 = 0 ∧ poolBase ≤ r.1 ∧ r.1 < poolEnd) →
          exec (.update (.ok bs)) s = .next (s.withDev (d.applyUpdates (updateRecords bs n)))) ∧
        ((∃ r ∈ updateRecords bs n, ¬ (r.1 % 8 = 0 ∧ poolBase ≤ r.1 ∧ r.1 < poolEnd)) →
          exec (.update (.ok bs)) s = .next (s.withDev (d.dtuStatus .accessError))))) ∧
    (∀ index : BitVec 24, d.dtu.revoking.contains index.toNat = true → exec (.revokeDone index) s = .next (s.withDev (d.revokeEnd index.toNat))) ∧
    (∀ n rest, d.dtu.syncs = (none, n) :: rest →
      let e := (d.upDtu (fun x =>
        { x with syncs := rest, fencedAll := max n x.fencedAll, staleWords := x.staleWords.filter (fun w => decide (n < w.seq)),
                 staleRoots := x.staleRoots.filter (fun w => decide (n < w.seq)) })).finc Reg.DTU_FENCE_COUNT_COUNT
      exec .syncDone s = .next (s.withDev (e.post 0 (.other 0x24) 0 (2 ^ 23 + e.fget Reg.DTU_FENCE_COUNT_COUNT * 2 ^ 32)))) ∧
    (d.alive = true → exec (.walkDone .other true) s = .next (s.withDev (d.finc Reg.DTU_WALK_WAIT_COUNT)) ∧
      exec (.walkDone .other false) s = .next s)

/-- Frames and ports of Ethernet (R343, R344, R345, R354, R355, R361, R362, R365, R366, R367). A frame that reaches an UP
port is counted with its codewords and then dropped by the first check that fails, in the order runt, PCS error, FCS,
oversize, address, with that check's counter, and one that passes them all goes to flow control or to the rules; a
pause that runs out opens its class; a pause is repeated while the class stays above XON; the port picks and sends its
next frame; before commit a write sets the lane groups' modes; a trained port is UP and one that goes down is DOWN; GO
checks a gate list and makes it wait or sets SWITCH_ERR, and the switch makes it active. -/
def Obligations.PortFrameResults : Prop :=
  ∀ (s : State) (p : Fin 32),
    let d := s.dev
    (d.live = true → d.portExists p.val = true → d.portState p.val = 3 → ∀ (bytes : List Byte) (pcs : Bool) (corr uncorr : BitVec 32),
      let e := ((d.fadd (Reg.ETH_PORTp_FEC_CORR_COUNT p) corr.toNat).fadd (Reg.ETH_PORTp_FEC_UNCORR_COUNT p) uncorr.toNat).finc
        (Reg.ETH_PORTp_RX_FRAMES_COUNT p)
      let n := bytes.length
      let b := bytes.take (n - 4)
      (n < 64 → exec (.rxFrame p bytes pcs corr uncorr) s = .next (s.withDev (e.finc (Reg.ETH_PORTp_RX_RUNT_COUNT p)))) ∧
      (64 ≤ n → (pcs = true ∨ uncorr ≠ 0) → exec (.rxFrame p bytes pcs corr uncorr) s = .next (s.withDev (e.finc (Reg.ETH_PORTp_RX_PCS_ERR_COUNT p)))) ∧
      (64 ≤ n → pcs = false → uncorr = 0 →
        (leNat (bytes.drop (n - 4)) ≠ (crc32 b).toNat →
          exec (.rxFrame p bytes pcs corr uncorr) s = .next (s.withDev (e.finc (Reg.ETH_PORTp_RX_FCS_COUNT p)))) ∧
        (leNat (bytes.drop (n - 4)) = (crc32 b).toNat →
          (e.fget (Reg.ETH_PORTp_CTL_MTU p) < n → exec (.rxFrame p bytes pcs corr uncorr) s = .next (s.withDev (e.finc (Reg.ETH_PORTp_RX_OVERSIZE_COUNT p)))) ∧
          (n ≤ e.fget (Reg.ETH_PORTp_CTL_MTU p) →
            ((beAt bytes 0 1).testBit 0 = false → beAt bytes 0 6 ≠ e.fget (Reg.ETH_PORTp_MAC_ADDR p) → e.fon (Reg.ETH_PORTp_CTL_PROMISC p) = false →
              exec (.rxFrame p bytes pcs corr uncorr) s = .next (s.withDev (e.finc (Reg.ETH_PORTp_RX_DA_DROP_COUNT p)))) ∧
            (((beAt bytes 0 1).testBit 0 = true ∨ beAt bytes 0 6 = e.fget (Reg.ETH_PORTp_MAC_ADDR p) ∨ e.fon (Reg.ETH_PORTp_CTL_PROMISC p) = true) →
              (beAt b 12 2 = 0x8808 → beAt b 14 2 = 0x0101 → exec (.rxFrame p bytes pcs corr uncorr) s = .next (s.withDev (e.rxPause p b))) ∧
              (beAt b 12 2 ≠ 0x8808 → e.fon (Reg.ETH_PORTp_CTL_MACSEC p) = false →
                exec (.rxFrame p bytes pcs corr uncorr) s = .next (s.withDev (e.rxClassify p b)))))))) ∧
    (∀ c : Fin 8, d.fcMode p ≠ 1 → exec (.pauseExpiry p c) s = .next (s.withDev (d.fclr (Reg.ETH_PORTp_STATUS_PAUSED p) (1 <<< c.val)))) ∧
    (∀ c : Fin 8, d.live = true → d.eth.xoff.contains (8 * p.val + c.val) = true →
      d.fget (Reg.ETH_PORTp_BUFc_XON p c) < d.cellsOf p c false + d.cellsOf p c true → d.fcMode p ≠ 0 → d.portState p = 3 →
      exec (.pfcRepeat p c) s = .next (s.withDev
        ((d.emit (.pause p (decide (d.fcMode p = 2)) c 0xFFFF)).finc (Reg.ETH_PORTp_PFC_TX_COUNT p)))) ∧
    (d.live = true → d.portState p = 3 → ∀ f g, (d.noteGateWaits p).txPick p = some (f, g) → f.fin = none →
      exec (.frameTransmit p) s = .next (s.withDev
        ((((((g.unstage f).txWire f).cbsSent p f.cls (frameLen f + 20 + g.secExtra p)).pace f).finc Reg.QPE_TX_PKTS_COUNT).activate f.who))) ∧
    (d.alive = true → ∀ val : W32,
      let train (e : Dev) (q : Nat) : Dev := e.portStop q (if e.portBarred q then 1 else 2)
      let room (e : Dev) (q : Nat) : Dev :=
        (List.range 8).foldl (fun e c => e.fset (Reg.ETH_PORTp_BUFc_HEADROOM q c) (headroomDefault (e.portRate q))) (train e q)
      let one (e : Dev) (q : Nat) : Dev :=
        if d.grpMode (q / 8) = e.grpMode (q / 8) then e else if e.portExists q then room e q else e.portStop q 0
      (d.committed = false → exec (.groupModeWrite val) s = .next (s.withDev
        ((List.range 32).foldl one (d.regSet Reg.ETH_GRP_MODE (BitVec.ofNat 64 (fld val.toNat 0 16)))))) ∧
      (d.committed = true → exec (.groupModeWrite val) s = .next s)) ∧
    (d.running = true → d.portExists p = true → d.portState p = 2 → d.portBarred p = false →
      exec (.portTrainingDone p) s = .next (s.withDev (d.setPortState p 3))) ∧
    (d.alive = true → d.portState p = 3 → exec (.portDown p) s = .next (s.withDev (d.portStop p 1))) ∧
    (d.live = true →
      let g := d.gatesAt p d.ptp
      exec (.gateEntry p) s = .next (s.withDev ((d.fset (Reg.TXS_GATEp_STATUS_ENTRY p) g.1).fset (Reg.TXS_GATEp_STATUS_GATES p) g.2.1))) ∧
    (d.alive = true → ∀ list en : Bool,
      let e := (d.fset (Reg.TXS_GATEp_CTL_LIST p) (b2n list)).fset (Reg.TXS_GATEp_CTL_EN p) (b2n en)
      (e.gateListOk p (b2n list) = true → exec (.gateGo p list en) s = .next (s.withDev
        (((e.upTxs (fun t => { t with pend := t.pend.set p ⟨b2n list, e.fget (Reg.TXS_GATEp_BASE_NS p)⟩ })).fset (Reg.TXS_GATEp_CTL_PENDING p) 1).fset
          (Reg.TXS_GATEp_CTL_GO p) 1))) ∧
      (e.gateListOk p (b2n list) = false → exec (.gateGo p list en) s = .next (s.withDev
        ((e.fset (Reg.TXS_GATEp_CTL_SWITCH_ERR p) 1).fset (Reg.TXS_GATEp_CTL_GO p) 0)))) ∧
    (∀ x, d.txs.pend.find p = some x →
      let e := (d.upTxs (fun t => { t with pend := t.pend.del p, base := t.base.set p x.base })).fset (Reg.TXS_GATEp_STATUS_ACTIVE_LIST p) x.list
      exec (.gateSwitch p) s = .next (s.withDev (((e.fset (Reg.TXS_GATEp_CTL_PENDING p) 0).fset (Reg.TXS_GATEp_CTL_GO p) 0).showGates p)))

/-- Rules, SAs, the PTP clock, the wheel and observation (R350, R368, R371, R372, R373, R375, R377). A write of a rule or
SA entry replaces it by the DATA words, and a read copies it to them; a PTP adjustment adds its signed value to the
clock once; a wheel slot that becomes current releases whoever waits in it; a sample's record goes to its ring with
the count of records after it, and is counted and dropped when the ring is full; reading a high-water mark or a
transmit timestamp returns it and takes it away. -/
def Obligations.EthernetTableResults : Prop :=
  ∀ s : State,
    let d := s.dev
    d.alive = true →
    (let x : BitVec 512 := BitVec.ofNat 512 (d.ethWords Reg.ETH_STR_DATAi 16)
      let i := d.fget Reg.ETH_STR_INDEX_RULE
      (x ≠ 0 → exec .ruleWrite s = .next (s.withDev (d.upEth (fun e => { e with rules := e.rules.set i x })))) ∧
      (x = 0 → exec .ruleWrite s = .next (s.withDev (d.upEth (fun e => { e with rules := e.rules.del i })))) ∧
      exec .ruleRead s = .next (s.withDev (d.ethPut Reg.ETH_STR_DATAi 16 (d.eth.rules.get 0 i).toNat))) ∧
    (let x : BitVec 256 := BitVec.ofNat 256 (d.ethWords Reg.ETH_SA_DATAi 8)
      let i := d.fget Reg.ETH_SA_INDEX_SA
      (x ≠ 0 → exec .saWrite s = .next (s.withDev (d.upEth (fun e => { e with sas := e.sas.set i x })))) ∧
      (x = 0 → exec .saWrite s = .next (s.withDev (d.upEth (fun e => { e with sas := e.sas.del i })))) ∧
      exec .saRead s = .next (s.withDev (d.ethPut Reg.ETH_SA_DATAi 8 (d.eth.sas.get 0 i).toNat))) ∧
    (∀ v : W64, exec (.ptpAdj v) s = .next (s.withDev (d.regSet Reg.ETH_PTP_NS (d.regGet Reg.ETH_PTP_NS + v)))) ∧
    (∀ (slot : BitVec 12), d.live = true →
      let here (w : WheelEnt) : Bool := decide (w.coarse = false) && decide (w.slot = slot.toNat)
      exec (.wheelSlot false slot) s = .next (s.withDev ((d.txs.wheel.filter here).foldl (fun e w => e.activate w.who)
        (d.upTxs (fun t => { t with wheel := t.wheel.filter (fun w => !here w) }))))) ∧
    (d.live = true → d.committed = true → d.txs.ready = [] → d.fon Reg.TXS_SAMPLE_CTL_EN = true → d.subscribers ≤ 4096 →
      let e := d.upTxs (fun t => { t with samples := (t.samples + 1) % 2 ^ 32 })
      ringFull d.txs.written (e.fget Reg.TXS_SAMPLE_TAIL_TAIL) (d.fget Reg.TXS_SAMPLE_CTL_RING_LOG2) = true →
      exec .txsSample s = .next (s.withDev (e.finc Reg.TXS_SAMPLE_DROP_COUNT))) ∧
    (d.live = true → d.committed = true → d.txs.ready = [] → d.fon Reg.TXS_SAMPLE_CTL_EN = true → d.subscribers ≤ 4096 →
      let lg := d.fget Reg.TXS_SAMPLE_CTL_RING_LOG2
      let w := d.txs.written
      let root := d.fget Reg.TXS_SAMPLE_CTL_ROOT
      let e := d.upTxs (fun t => { t with samples := (t.samples + 1) % 2 ^ 32 })
      e.pf0Root root = true → ringFull w (e.fget Reg.TXS_SAMPLE_TAIL_TAIL) lg = false →
      exec .txsSample s = .next (s.withDev (sampleEnd root w
        (e.rootWrite root (e.fget Reg.TXS_SAMPLE_BASE_ADDR + (64 + 8 * d.subscribers + 63) / 64 * 64 * (w % 2 ^ lg)) d.sampleRecord false)))) ∧
    (let i := d.fget Reg.TXS_HWM_INDEX_SUBSCRIBER
      let e := d.hwmNote i
      let m := e.txs.hwm.get (0, 0) i
      exec .hwmRead s = .next (s.withDev ((e.upTxs (fun t => { t with hwm := t.hwm.del i })).emit
        (.regRead 0 Reg.TXS_HWM_DATA 8 (BitVec.ofNat 64 (m.1 + m.2 * 2 ^ 32)))))) ∧
    (∀ (p : Fin 32) tag ns rest, d.eth.txts.get [] p.val = (tag, ns) :: rest → exec (.txtsRead p) s = .next (s.withDev
      ((d.upEth (fun e => { e with txts := e.txts.set p rest })).emit
        (.regRead 0 (Reg.ETH_PORTp_TXTS p) 8 (BitVec.ofNat 64 (ns % 2 ^ 48 + tag % 2 ^ 15 * 2 ^ 48 + 2 ^ 63))))))

/-- Queue-pair and address-handle commands (R385, R386, R387, R388, R389, R421). CREATE_QP that passes its checks puts the
staged identity and path fields into state INIT (the place of its atomic cache is a free value, log entry 4) and
otherwise gives the refusal; MODIFY_RTR and MODIFY_RTS take a QP from INIT to RTR and from RTR to RTS with the fields
they may set; TO_ERROR moves it to ERROR with FLUSHED; DESTROY_QP removes one in ERROR whose flushing has ended;
QUERY_QP returns the context; CREATE_AH and DESTROY_AH write and remove a handle; CTX_CACHE_FLUSH writes every cached
context to its place in memory. -/
def Obligations.QpCommandResults : Prop :=
  ∀ s : State,
    let d := s.dev
    (Takes d Reg.QPE_CMD_STATUS_BUSY →
      (∀ qpn : BitVec 24,
        let n := qpn.toNat
        let f := Qp.fresh (BitVec.ofNat 2048 (d.stagedQp.toNat % 2 ^ 768))
        (d.createQpCheck n f = .ok → exec (.createQp qpn) s = .next (s.withDev
          ((d.bump.setQp n ((f.put 0 1 1).put 0x9C 4 (Config.freeValue 32 d.fresh).toNat)).qpeStatus .ok))) ∧
        (d.createQpCheck n f ≠ .ok → exec (.createQp qpn) s = .next (s.withDev (d.qpeStatus (d.createQpCheck n f)))) ∧
        (∀ q, d.qp n = some q →
          (q.state = 1 →
            let q := { q with ctx := bvSet q.ctx (8 * 0x10) (8 * 0x50) (bvFld d.stagedQp (8 * 0x10) (8 * 0x50)) }
            d.qpPathOk q = true → (q.prot = false ∨ q.dest ≠ n) → d.qpSlotOk q = true →
            exec (.modifyRtr qpn) s = .next (s.withDev ((d.setQp n (q.put 0 1 2)).qpeStatus .ok))) ∧
          (q.state ≠ 1 → exec (.modifyRtr qpn) s = .next (s.withDev (d.qpeStatus .accessError))) ∧
          (q.state = 2 →
            let g := d.stagedQp
            let q := { q with ctx := bvSet (bvSet (bvSet q.ctx 56 8 (bvFld g 56 8)) 112 8 (bvFld g 112 8)) 192 32 (bvFld g 192 32) }
            q.retryOk = true → q.get 0x1B 1 = 0 →
            let q := (q.put 0x90 4 q.sqPsn).fullRetries
            let r := if !q.isUd && !q.onaud && d.fon Reg.QPE_CC_EN_EN then d.portRate (q.get 0x3C 1) else 0
            exec (.modifyRts qpn) s = .next (s.withDev
              ((d.setQp n ((((q.put 0x60 4 r).put 0x64 4 r).put 0x68 2 1024).put 0 1 3)).qpeStatus .ok))) ∧
          (q.state ≠ 5 → exec (.toError qpn) s = .next (s.withDev ((d.qpError n .flushed 0 0 noOwner (fun _ => false)).qpeStatus .ok))) ∧
          (q.state = 4 → q.drained = true → exec (.destroyQp qpn) s = .next (s.withDev
            ((d.upQpe (fun x => { x with qps := x.qps.del n })).qpeStatus .ok))) ∧
          (q.state ≠ 4 → exec (.destroyQp qpn) s = .next (s.withDev (d.qpeStatus .accessError)))) ∧
        (n < 2 ^ 20 → exec (.queryQp qpn) s = .next (s.withDev ((d.putWords Reg.QPE_CMD_DATAi 64 (d.qpView n).toNat).qpeStatus .ok)))) ∧
      (∀ index : BitVec 24,
        let a := BitVec.ofNat 512 (d.dataWords Reg.QPE_CMD_DATAi 16)
        (bvFld a (8 * 0x18) 8 < 64 → bvFld a (8 * 0x1D) 8 = 0 → bvFld a (8 * 0x30) 128 = 0 → d.isFn (bvFld a (8 * 0x1E) 16) = true →
          index.toNat < 65536 → exec (.createAh index) s = .next (s.withDev
            ((d.upQpe (fun x => { x with ahs := x.ahs.set index.toNat a })).qpeStatus .ok))) ∧
        exec (.destroyAh index) s = .next (s.withDev ((d.upQpe (fun x => { x with ahs := x.ahs.del index.toNat })).qpeStatus .ok)))) ∧
    (d.live = true → exec .ctxCacheFlush s = .next (s.withDev
      (d.qpe.qps.keys.foldl (fun e n => e.rawStoreN (0x10000000000 + 256 * n) (leBytes 256 (e.qpView n).toNat)) d)))

/-- Work requests, triggers and drains (R389, R390, R391, R392, R393, R394). Each send-queue row starts the front entry of
its opcode in the queue's turn when it waits for no trigger, and TRIGGERED_START starts one that its counter lets go;
a RECV entry whose message has ended completes with its status, bytes and word; a trigger message that has passed
raises its counter by 1; a QP in ERROR whose flushes are published is drained and says so. -/
def Obligations.WorkRequestResults : Prop :=
  ∀ s : State,
    let d := s.dev
    (∀ (qid : BitVec 16) f e g, d.live = true → (d.wqFind qid.toNat).bind Wq.front = some f → d.wqTurn 0 0 qid.toNat d.qpeCan = some (g, e) →
      (d.waitsTrigger qid.toNat f.desc = false →
        (∀ rd, descOpcode f.desc = 1 → exec (.qpSend qid rd) s = .next (s.withDev (g.qpStart qid.toNat e rd))) ∧
        (∀ rd, descOpcode f.desc = 2 → exec (.qpSendImm qid rd) s = .next (s.withDev (g.qpStart qid.toNat e rd))) ∧
        (∀ rd, descOpcode f.desc = 3 → exec (.qpWrite qid rd) s = .next (s.withDev (g.qpStart qid.toNat e rd))) ∧
        (∀ rd, descOpcode f.desc = 4 → exec (.qpWriteImm qid rd) s = .next (s.withDev (g.qpStart qid.toNat e rd))) ∧
        (descOpcode f.desc = 5 → exec (.qpRead qid) s = .next (s.withDev (g.qpStart qid.toNat e .lost))) ∧
        (descOpcode f.desc = 6 → exec (.cmpSwap qid) s = .next (s.withDev (g.qpStart qid.toNat e .lost))) ∧
        (descOpcode f.desc = 7 → exec (.fetchAdd qid) s = .next (s.withDev (g.qpStart qid.toNat e .lost)))) ∧
      (d.waitsTrigger qid.toNat f.desc = true → ∀ rd, exec (.triggeredStart qid rd) s = .next (s.withDev (g.qpStart qid.toNat e rd)) ∧
        exec (.qpSend qid rd) s = .next s)) ∧
    (∀ (qpn : BitVec 20) q, d.qp qpn.toNat = some q →
      (∀ r st, q.recvs.find? (fun r => r.done.isSome) = some r → r.done = some st → exec (.qpRecv qpn) s = .next (s.withDev
        ((d.setQp qpn.toNat { q with recvs := q.recvs.filter (fun x => decide (x.idx ≠ r.idx)) }).wqFinish q.rqQid r.idx st r.bytes r.word))) ∧
      (∀ k r, q.trigs = k :: r → ∃ u, exec (.triggerIncrement qpn) s = .next u ∧ u.pending = s.pending ∧
        u.dev.qpe.trig = d.qpe.trig.set (4 * qpn.toNat + k) (BitVec.ofNat 32 (d.trigCount qpn.toNat k + 1)) ∧
        u.dev.mem = d.mem ∧ u.dev.reg = d.reg ∧ u.dev.out = d.out) ∧
      (q.state = 4 → q.drained = false → d.flushOver q.sqQid = true → d.flushOver q.rqQid = true → exec (.qpDrained qpn) s = .next (s.withDev
        ((d.setQp qpn.toNat { q with drained := true }).post q.fn (.other 0x21) 0 qpn.toNat))))

/-- Packets that arrive at a queue pair (R384, R394, R397, R398, R399, R400, R401, R402, R404, R415, R416). A request in
sequence is served, a duplicate is counted and acknowledged, answered again or replayed, and one ahead asks for a
resend; an Acknowledge advances the requester; a sequence-error NAK inside the open range retries from the PSN it
names, an RNR NAK waits with one retry less, or ends the QP with none left, and an error NAK ends it with
REMOTE_ERROR; a READ response or atomic answer that fits lands at LADDR and goes on; a UD packet with a foreign Q_Key
is dropped and counted; CNP cuts the rate; RTT_REQ is answered; RTT_RSP records the round trip. -/
def Obligations.PacketArrivalResults : Prop :=
  ∀ (s : State) (qpn : BitVec 20),
    let d := s.dev
    let n := qpn.toNat
    (∀ x q e rd, RxTaken d n 1 x q e →
      let r := parseReq q x.bytes
      (q.classify r.psn = .serve → q.unord = false → exec (.readRequest qpn rd) s = .next (s.withDev (e.serveRead n q r false rd))) ∧
      (q.classify r.psn = .duplicate → exec (.readRequest qpn rd) s = .next (s.withDev ((e.finc Reg.QPE_DUP_PKTS_COUNT).serveRead n q r true rd)))) ∧
    (∀ x q e routed rd, RxTaken d n 2 x q e →
      let r := parseReq q x.bytes
      (q.classify r.psn = .serve → exec (.atomicRequest qpn routed rd) s = .next (s.withDev (e.serveAtomic n q r x routed rd))) ∧
      (q.classify r.psn = .duplicate → ∀ a, q.atomics.find? (fun a => decide (a.1 = r.psn)) = some a →
        exec (.atomicRequest qpn routed rd) s = .next (s.withDev ((e.finc Reg.QPE_DUP_PKTS_COUNT).sendAtomicAck n r.psn a.2)))) ∧
    (∀ x q e q0, RxTaken d n 0 x q e → d.qp n = some q0 → d.recvWaits q0 = false →
      (q.classify (pktPsn x.bytes) = .serve → exec (.requestPacket qpn) s = .next (s.withDev (e.serveMode n q x))) ∧
      (q.classify (pktPsn x.bytes) = .duplicate → exec (.requestPacket qpn) s = .next (s.withDev ((e.finc Reg.QPE_DUP_PKTS_COUNT).ackNow n))) ∧
      (q.classify (pktPsn x.bytes) = .ahead → exec (.requestPacket qpn) s = .next (s.withDev (e.respAhead n)))) ∧
    (∀ x q e, RxTaken d n 3 x q e → exec (.acknowledge qpn) s = .next (s.withDev (e.qpAck n (pktPsn x.bytes)))) ∧
    (∀ x q e, RxTaken d n 4 x q e → psnSub (pktPsn x.bytes) q.una < q.open_ →
      exec (.sequenceErrorNak qpn) s = .next (s.withDev (e.qpRetry n (pktPsn x.bytes)))) ∧
    (∀ x q e, RxTaken d n 5 x q e → psnSub (pktPsn x.bytes) q.una < q.open_ → q.get 7 1 / 16 % 8 ≠ 7 →
      let f := e.finc Reg.QPE_RNR_NAK_RX_COUNT
      let p := pktPsn x.bytes
      (q.get 0x97 1 / 16 % 8 ≠ 0 → exec (.rnrNak qpn) s = .next (s.withDev
        (f.setQp n ({ q with rnrWait := some p }.put 0x97 1 (q.get 0x97 1 - 16))))) ∧
      (q.get 0x97 1 / 16 % 8 = 0 → exec (.rnrNak qpn) s = .next (s.withDev (f.qpError n .rnrExhausted p (beAt x.bytes q.hdrAt 1)
        (match q.msgAt p with | some o => isOwner o | none => noOwner) (fun _ => false))))) ∧
    (∀ x q e, RxTaken d n 6 x q e → psnSub (pktPsn x.bytes) q.una < q.open_ →
      let p := pktPsn x.bytes
      exec (.errorNak qpn) s = .next (s.withDev (e.qpError n .remoteError p (beAt x.bytes q.hdrAt 1)
        (match q.msgAt p with | some o => isOwner o | none => noOwner) (fun _ => false)))) ∧
    (∀ x q e m, RxTaken d n 7 x q e → q.answerFor true (pktPsn x.bytes) = some m → q.prot = false →
      let p := pktPsn x.bytes
      let i := psnSub p m.first
      let size := min q.mtu (q.streamLen m.len - i * q.mtu)
      let payload := e.pktData q x (q.hdrAt + (if pktOp x.bytes = 0x0E then 0 else 4)) (some size)
      payload.length = size → ∀ g, e.keyWrite q.localWrite m.lkey (m.laddr + i * q.mtu) payload false = (g, none) →
        exec (.readResponse qpn) s = .next (s.withDev (g.answerDone n q { m with got := p :: m.got } p))) ∧
    (∀ x q e m, RxTaken d n 8 x q e → q.answerFor false (pktPsn x.bytes) = some m → ∀ g,
      e.keyWrite q.localWrite m.lkey m.laddr (leBytes 8 (beAt x.bytes (q.hdrAt + 4) 8)) false = (g, none) →
        exec (.atomicAcknowledge qpn) s = .next (s.withDev (g.answerDone n q { m with got := [pktPsn x.bytes] } (pktPsn x.bytes)))) ∧
    (∀ x q e, RxTaken d n 11 x q e → q.isUd = false → exec (.rttReq qpn) s = .next (s.withDev (e.rcSend n (q.pkt 0xC1 q.dest 0 false (uph 0 false false 0) []
      (beBytes 8 (beAt x.bytes q.hdrAt 8) ++ beBytes 8 x.time ++ beBytes 8 e.ptp ++ List.replicate 8 0)) false none))) ∧
    (∀ x q e, RxTaken d n 12 x q e → q.isUd = false → e.fon Reg.QPE_CC_EN_EN = false →
      let t (k : Nat) : Nat := beAt x.bytes (q.hdrAt + 8 * k) 8
      exec (.rttRsp qpn) s = .next (s.withDev (e.setQp n (q.put 0x78 4 (min 0xFFFFFFFF ((x.time - t 0) - (t 2 - t 1))))))) ∧
    (∀ x q e q0, RxTaken d n 9 x q e → d.qp n = some q0 → d.recvWaits q0 = false →
      (x.raw = false → q.raw = false → pktOp x.bytes = 0x64 → beAt x.bytes 12 4 ≠ q.get 0x14 4 →
        exec (.udPacket qpn) s = .next (s.withDev (e.finc Reg.QPE_UD_DROP_COUNT))) ∧
      (x.raw = true → q.isUd = true → q.raw = true → x.stamp = none → ∀ g i r, e.recvTake n (pktPsn x.bytes) 0 = some (g, i) →
        (g.qp n).bind (fun q => q.recvs.find? (fun r => decide (r.idx = i))) = some r → x.bytes.length ≤ dFld r.desc 0x1C 4 →
        ∀ f, g.landUd q r.desc [(0, x.bytes), (x.bytes.length, [])] = (f, none) →
        exec (.udPacket qpn) s = .next (s.withDev (f.updQp n (fun q => q.updRecv i (fun u =>
          { u with bytes := x.bytes.length, imm := none, done := some .ok })))))) ∧
    (∀ x e q, d.live = true → d.takeRx n (fun x => decide (d.pktRow n x = 10)) = some (x, e) → e.qp n = some q → q.state = 3 → q.decAt = none →
      e.ccOn q = true →
      let a := q.get 0x68 2
      let c := (((q.put 0x64 4 q.rc).put 0x60 4 (e.clampRate q (q.rc * (2048 - a) / 2048))).put 0x68 2 (e.alphaDown a + 1024 / 2 ^ e.gShift)).put 0x6A 6 0
      exec (.cnp qpn) s = .next (s.withDev ((e.setQp n { c with decAt := some e.clk }).finc Reg.QPE_CNP_RX_COUNT)))

/-- Congestion and timers of a queue pair (R397, R398, R402, R404, R415, R416, R418). Under congestion control a decay
lowers ALPHA, a timer or byte increase counts and raises the rate; a probe goes out on a QP that measures; an
acknowledgement timeout is counted and retries from the oldest PSN; an RNR wait that ends resends; a delayed
acknowledge goes out; a gap that stays asks for a resend. -/
def Obligations.QpTimerResults : Prop :=
  ∀ (s : State) (qpn : BitVec 20) (q : Qp),
    let d := s.dev
    let n := qpn.toNat
    d.live = true → d.qp n = some q → q.state = 3 →
    (d.ccOn q = true →
      exec (.alphaDecay qpn) s = .next (s.withDev (d.setQp n (q.put 0x68 2 (d.alphaDown (q.get 0x68 2))))) ∧
      exec (.timerIncrease qpn) s = .next (s.withDev (d.setQp n (d.ccIncrease (q.put 0x6A 1 (min 255 (q.get 0x6A 1 + 1)))))) ∧
      (d.fget Reg.QPE_CC_BINC_B_INC ≤ q.get 0x6C 4 → exec (.byteIncrease qpn) s = .next (s.withDev
        (d.setQp n (d.ccIncrease ((q.put 0x6B 1 (min 255 (q.get 0x6B 1 + 1))).put 0x6C 4 0)))))) ∧
    (q.flag 7 = true → q.isUd = false → exec (.rttProbe qpn) s = .next (s.withDev
      (d.rcSend n (q.pkt 0xC0 q.dest 0 false (uph 0 false false 0) [] (beBytes 8 d.ptp ++ List.replicate 24 0)) false none))) ∧
    (q.isUd = false → q.open_ ≠ 0 → q.rnrWait = none → exec (.ackTimeout qpn) s = .next (s.withDev ((d.finc Reg.QPE_TIMEOUTS_COUNT).qpRetry n q.una))) ∧
    (∀ p, q.rnrWait = some p → exec (.rnrWaitExpiry qpn) s = .next (s.withDev ((d.setQp n { q with rnrWait := none }).qpResend n p)) ∧
      exec (.ackTimeout qpn) s = .next s) ∧
    (q.unacked ≠ 0 → exec (.ackDelay qpn) s = .next (s.withDev (d.ackNow n))) ∧
    (q.unord = true → q.bitmap ≠ [] → exec (.unorderedGap qpn) s = .next (s.withDev (d.respAhead n)))

/-- Functions, their mailboxes and their drains (R449, R450, R451, R453, R454, R455, R456). A function's SEND fills its
OUT buffer, sets its pending bit and tells PF0, and is counted dropped while the buffer is full or its mailbox closed;
PF0's SEND fills the IN buffer and tells the function, is rejected with the mailbox closed and sets CMD_ERR while
busy; each acknowledgement frees its buffer and tells the other side; ENABLE enables a bound function that may be
enabled; DISABLE and FLR start its drain, FN_DRAIN_DONE ends it, a stuck drain is reported and FORCE_CLEAR ends it at
once; VF Enable is set and cleared, the latter disabling every VF. -/
def Obligations.FunctionResults : Prop :=
  ∀ (s : State) (fn : Fin 264),
    let d := s.dev
    let f := fn.val
    d.alive = true → d.vfmFn f = true →
    (d.mboxOpen f = true →
      (d.fon (Reg.VFM_FNf_MBOX_CTL_FROM_FULL f) = false → exec (.fnMboxSend fn) s = .next (s.withDev
        (((d.fset (Reg.VFM_FNf_MBOX_CTL_FROM_FULL f) 1).forb (Reg.VFM_MBOX_PENDi_PEND (f / 32)) (2 ^ (f % 32))).post 0 (.other 0x30) 0 f))) ∧
      (d.fon (Reg.VFM_FNf_MBOX_CTL_FROM_FULL f) = true → exec (.fnMboxSend fn) s = .next (s.withDev
        (d.upVf (fun v => { v with selfDrop := v.selfDrop.upd 0 f (fun n => (n + 1) % 2 ^ 32) })))) ∧
      (d.fon (Reg.VFM_FNf_MBOX_CTL_TO_BUSY f) = false → exec (.pf0MboxSend fn) s = .next (s.withDev
        ((d.fset (Reg.VFM_FNf_MBOX_CTL_TO_BUSY f) 1).post f (.other 0x30) 0 f))) ∧
      (d.fon (Reg.VFM_FNf_MBOX_CTL_TO_BUSY f) = true → exec (.pf0MboxSend fn) s = .next (s.withDev (d.fset Reg.VFM_CMD_STATUS_CMD_ERR 1)))) ∧
    (d.mboxOpen f = false → exec (.pf0MboxSend fn) s = .next (s.withDev (d.fset (Reg.VFM_FNf_MBOX_CTL_SEND_REJECT f) 1))) ∧
    (d.fon (Reg.VFM_FNf_MBOX_CTL_TO_BUSY f) = true → exec (.fnMboxAck fn) s = .next (s.withDev
      ((d.fset (Reg.VFM_FNf_MBOX_CTL_TO_BUSY f) 0).post 0 (.other 0x31) 0 f))) ∧
    (d.fon (Reg.VFM_FNf_MBOX_CTL_FROM_FULL f) = true → exec (.pf0MboxAck fn) s = .next (s.withDev
      (((d.fset (Reg.VFM_FNf_MBOX_CTL_FROM_FULL f) 0).fclr (Reg.VFM_MBOX_PENDi_PEND (f / 32)) (2 ^ (f % 32))).post f (.other 0x31) 0 f))) ∧
    (∀ target : BitVec 9, target.toNat = f → Takes d Reg.VFM_CMD_STATUS_BUSY →
      (d.fnState f ≤ 1 → (d.fnPart f).isSome → (isVf f = true → d.vf.vfEnable = true ∧ f ≤ d.vf.numVfs) →
        exec (.enable target) s = .next (s.withDev ((d.fnSet f 1).vfmStatus .ok))) ∧
      (d.fnState f = 1 → exec (.disable target) s = .next (s.withDev ((d.startDrain f false).vfmStatus .ok))) ∧
      (d.fnState f = 0 → exec (.disable target) s = .next (s.withDev (d.vfmStatus .ok))) ∧
      (d.fnState f = 5 → exec (.disable target) s = .next (s.withDev (d.fset Reg.VFM_CMD_STATUS_CMD_ERR 1))) ∧
      (d.fnState f = 2 → d.fon (Reg.VFM_FNf_STATE_DRAIN_STUCK f) = true → exec (.forceClear target) s = .next (s.withDev
        (((d.endContexts f .flushed).finishDrain f).vfmStatus .ok))) ∧
      (d.fnState f ≠ 2 → exec (.forceClear target) s = .next (s.withDev (d.fset Reg.VFM_CMD_STATUS_CMD_ERR 1)))) ∧
    (d.fnState f = 1 → exec (.flr fn) s = .next (s.withDev (d.startDrain f true))) ∧
    (d.fnState f = 2 → exec (.fnDrainDone fn) s = .next (s.withDev (d.finishDrain f)) ∧
      (d.fon (Reg.VFM_FNf_STATE_DRAIN_STUCK f) = false → exec (.drainStuck fn) s = .next (s.withDev
        (((d.bump.fset (Reg.VFM_FNf_DRAIN_US_US f) 100000).fset (Reg.VFM_FNf_STATE_DRAIN_STUCK f) 1).post 0 (.other 0x34) 0
          (f + (Config.freeValue 32 d.fresh).toNat * 2 ^ 32))))) ∧
    (∀ num : Fin 256, exec (.vfEnableSet num) s = .next (s.withDev (d.upVf (fun v => { v with vfEnable := true, numVfs := num.val })))) ∧
    exec .vfEnableClear s = .next (s.withDev ((List.range 256).foldl
      (fun (e : Dev) g => if isVf g = true ∧ e.fnState g ≠ 0 ∧ e.fnState g ≠ 2 then e.startDrain g false else e)
      (d.upVf (fun v => { v with vfEnable := false }))))

/-- Freezing, saving and restoring a VF (R457, R459, R460, R461). FREEZE makes an ENABLED VF FREEZING and its queue pairs
remember their states; FREEZE_DONE, once nothing of it is outstanding, makes it and its queue pairs FROZEN and posts
the command's end; CANCEL returns it to service and ends FREEZE with FLUSHED; SAVE of a FROZEN VF writes its image and
posts its size, or is a length error when it does not fit; RESTORE loads an image that passes its checks, and
otherwise reports the first failure. -/
def Obligations.MigrationResults : Prop :=
  ∀ (s : State) (target : BitVec 9),
    let d := s.dev
    let f := target.toNat
    (Takes d Reg.VFM_CMD_STATUS_BUSY → isVf f = true →
      (d.fnState f = 1 → exec (.freeze target) s = .next (s.withDev
        (((d.upQpe (fun x => { x with qps := x.qps.mapVal (fun _ q => if q.fn = f then { q with frozen := q.state } else q) })).fnSet f 3).vfmStatus .ok))) ∧
      (d.fnState f ≠ 1 → exec (.freeze target) s = .next (s.withDev (d.vfmStatus .accessError))) ∧
      (d.fnState f = 3 →
        let e := ((d.fnSet f 1).fnCmdDone f 3 .flushed 0).vfmStatus .ok
        exec (.cancel target) s = .next (s.withDev ((e.fnQueues f).foldl (fun e p => e.wqSettle p.1 65537) e))) ∧
      (d.fnState f = 4 →
        let e := d.fset Reg.VFM_IMG_NEED_BYTES (d.vfSize f)
        (e.fget Reg.VFM_IMG_LEN_LEN < d.vfSize f → exec (.save target) s = .next (s.withDev (e.vfmStatus .lengthError))) ∧
        (d.vfSize f ≤ e.fget Reg.VFM_IMG_LEN_LEN → (e.fnRegions f 1).length ≤ 262144 → (e.fnRoots f).length ≤ 16 → e.linkUp 0 = true →
          let g := e.upWq (fun w =>
            { w with queues := w.queues.mapVal (fun _ q => if wqFn q.ctx = f then { q with fetched := [], tries := 0 } else q) })
          let g := g.upDtu (fun x => { x with fenced := (g.fnRoots f).foldl (fun t p => t.set p.1 x.seq) x.fenced })
          exec (.save target) s = .next (s.withDev
            (((g.hostWrite 0 (g.fget Reg.VFM_IMG_ADDR_ADDR) (g.vfImage f) false).vfmStatus .ok).fnCmdDone f 5 .ok (d.vfSize f))))) ∧
      (d.fnState f = 0 ∨ d.fnState f = 4 → ∀ b,
        (d.restoreCheck b f = .ok → exec (.restore target (.ok b)) s = .next (s.withDev ((d.restoreInto b f).vfmStatus .ok))) ∧
        (d.restoreCheck b f ≠ .ok → exec (.restore target (.ok b)) s = .next (s.withDev (d.vfmStatus (d.restoreCheck b f)))))) ∧
    (∀ fn : Fin 264, d.live = true → isVf fn.val = true → d.fnState fn.val = 3 → d.fnQuiet fn.val = true →
      exec (.freezeDone fn) s = .next (s.withDev
        ((((d.upQpe (fun x => { x with qps := x.qps.mapVal (fun _ q => if q.fn = fn.val then { (q.put 0 1 5) with frozen := q.state } else q) })).fnSet
          fn.val 4).vfmStatus .ok).fnCmdDone fn.val 3 .ok 0)))

/-- Key slots and CIPHER streams (R466, R472, R474, R475, R476, R479). IMPORT into an EMPTY slot of the policy unwraps the
record with its parent's key and, when it names the slot and its mode, loads key and salt and counts the import; a
record that does not verify is counted and AUTH_FAIL; ERASE empties a slot, its material kept while a unit uses it and
overwritten when the last one ends; QUERY reports the slot; XTS_ENCRYPT and XTS_DECRYPT start the front entry of their
opcode in the queue's turn; the last unit of a stream is read, ciphered under its key and tweak and written, and the
stream ends with OK. -/
def Obligations.CipherResults : Prop :=
  ∀ s : State,
    let d := s.dev
    (Takes d Reg.CAD_CMD_STATUS_BUSY → ∀ slot : Fin 16384,
      let n := slot.val
      (d.committed = true → d.slotMode n ≠ 0 → (d.slot n).loaded = false → (d.slot n).old = false → d.linkUp 0 = true → ∀ k bs, d.parentKey n = some k →
        exec (.import slot (.ok bs)) s = .next (s.withDev (match kwUnwrap k (sliceOf bs 0 88) with
          | none => (d.finc Reg.CAD_AUTH_FAIL_COUNT).cadStatus .authFail
          | some r =>
            if recordOk r n (d.slotMode n) = true then
              (d.updSlot n (fun x => { x with loaded := true, key := BitVec.ofNat 512 (leNat (r.take 64)), salt := BitVec.ofNat 96 (leNat ((r.drop 0x40).take 12)),
                                              imports := min 255 (x.imports + 1) })).cadStatus .ok
            else d.cadStatus .malformed))) ∧
      ((d.slot n).loaded = true → ∀ rd, exec (.import slot rd) s = .next (s.withDev (d.cadStatus .accessError))) ∧
      ((d.slot n).loaded = true →
        (d.keyInUse n = false → exec (.erase slot) s = .next (s.withDev ((d.updSlot n (fun x => { x with loaded := false, key := 0, salt := 0 })).cadStatus .ok))) ∧
        (d.keyInUse n = true → exec (.erase slot) s = .next (s.withDev ((d.updSlot n (fun x => { x with loaded := false, old := true })).cadStatus .ok)))) ∧
      (
        let check := if (d.slot n).loaded then (kcv (keyK1 (d.slot n).key)).toNat else 0
        exec (.query slot) s = .next (s.withDev ((d.regSet Reg.CAD_SLOT_INFO (BitVec.ofNat 64 (b2n (d.slot n).loaded + d.slotMode n * 2 +
          (d.slot n).imports * 2 ^ 8 + d.slotOwner n * 2 ^ 16 + d.slotParent n * 2 ^ 24 + check * 2 ^ 40))).cadStatus .ok)))) ∧
    (∀ slot : Fin 16384, d.running = true → (d.slot slot.val).old = true → d.keyInUse slot.val = false → d.cad.waiting = none →
      exec (.keyOverwrite slot) s = .next (s.withDev (d.updSlot slot.val (fun x => { x with key := 0, salt := 0, old := false })))) ∧
    (∀ (qid : BitVec 16) q e g h, d.live = true → d.wqFind qid.toNat = some q → q.front = some e → wqClass q.ctx = 4 → d.cad.streams.ents.length < 256 →
      d.wqTurn 5 4 qid.toNat (fun _ _ _ => true) = some (g, h) →
      (descOpcode e.desc = 0x70 → exec (.xtsEncrypt qid) s = .next (s.withDev (g.streamStart qid.toNat q h))) ∧
      (descOpcode e.desc = 0x71 → exec (.xtsDecrypt qid) s = .next (s.withDev (g.streamStart qid.toNat q h)))) ∧
    (∀ (stream : Fin 256) rd x u key, d.live = true → d.cad.streams.find stream.val = some x → x.running = [(u, key)] → x.ended = none →
      let k := stream.val
      let n := 2 ^ cShift x.desc
      ∀ e bs, (d.readEnd (.stream stream)).keyRead (x.user false) (cSrcKey x.desc) (cSrc x.desc + u * n) n rd = (e, bs, none) → e.cipherOverlap x.desc = false →
      let tweak := BitVec.ofNat 128 (cTweak x.desc + u)
      let out := if descOpcode x.desc = 0x70 then xtsEncrypt key tweak bs else xtsDecrypt key tweak bs
      ∀ g, e.keyWrite (x.user true) (cDstKey x.desc) (cDst x.desc + u * n) (sliceOf out 0 n) false = (g, none) → cLen x.desc / n ≤ x.next →
      exec (.unitDone stream rd) s = .next (s.withDev
        (((g.cadBlocks 3 (xtsBlocks n)).upCad (fun c => { c with streams := c.streams.set k { x with running := [] } })).streamEnd k .ok)))

/-- Anti-rollback, tokens, keys and the SPDM responder (R491, R492, R494, R495, R496, R498, R500, R502). ADVANCE_ROLLBACK
to a version that the committed image has starts the blow of its fuses and a lower one is done at once; each fuse read
back blown is counted and the last ends the advance; a debug token that passes its checks sets the level and posts,
and every token draws a new nonce (a free value, log entry 4); the owner key is programmed once; the alias certificate
clears its wait; each SPDM request is answered in its connection state, and a request for a signature waits for
SIGNATURE_DONE. -/
def Obligations.TrustResults : Prop :=
  ∀ s : State,
    let d := s.dev
    (d.alive = true → d.fon Reg.SEC_CMD_STATUS_BUSY = false →
      (∀ v : BitVec 7,
        (v.toNat ≤ d.rollback → exec (.advanceRollback v) s = .next (s.withDev (d.rollbackDone .ok))) ∧
        (d.rollback < v.toNat → d.committed = true → v.toNat ≤ d.fget Reg.GLB_IMAGE_INFO_SECURITY_VERSION → v.toNat ≤ 64 → d.fget Reg.IMG_STATUS_STATE = 0 →
          exec (.advanceRollback v) s = .next (s.withDev
            ((d.fset Reg.SEC_CMD_STATUS_BUSY 1).upTr (fun t => { t with blow := some (d.rollback, v.toNat, false) }))))) ∧
      (∀ rd, d.linkUp 0 = true →
        let e := (d.regSet Reg.SEC_DEBUG_NONCE (Config.freeValue 64 d.fresh)).bump
        exec (.debugToken rd) s = .next (s.withDev (match d.tokenStatus rd with
          | (.ok, level) => (((e.fset Reg.SEC_DEBUG_LEVEL level).upTr (fun t => { t with token := true })).post 0 (.other 0x3D) 0 level).secStatus .ok
          | (st, _) => e.secStatus st))) ∧
      (∀ bs, d.linkUp 0 = true → d.ownerSet = false → exec (.programOwnerKey (.ok bs)) s = .next (s.withDev
        (((d.upTr (fun t => { t with owner := some (BitVec.ofNat 256 (leNat (sliceOf bs 0 32))) })).fset Reg.SEC_STATUS_OWNER_SET 1).secStatus .ok))) ∧
      (∀ rd, d.ownerSet = true → exec (.programOwnerKey rd) s = .next (s.withDev (d.secStatus .accessError)))) ∧
    (∀ i v second, d.alive = true → d.tr.blow = some (i, v, second) →
      let e := (d.upTr (fun t => { t with fuses := t.fuses ||| BitVec.ofNat 64 (2 ^ i), blow := some (i + 1, v, false) }))
      let e := e.fset Reg.SEC_ROLLBACK_COUNT e.rollback
      (i + 1 < v → exec (.fuseBlowDone true) s = .next (s.withDev e)) ∧
      (v ≤ i + 1 → exec (.fuseBlowDone true) s = .next (s.withDev (e.rollbackDone .ok))) ∧
      (second = true → exec (.fuseBlowDone false) s = .next (s.withDev (d.rollbackDone .uncorrectable)))) ∧
    (d.pw.cold = false → exec .aliasCertDone s = .next (s.withDev (d.upTr (fun t => { t with aliasBusy := false })))) ∧
    (∀ mctp : Bool, d.spdmUp mctp = true →
      exec (.getVersion mctp) s = .next (s.withDev ((d.spdmSet mctp 1).spdmSend mctp .version)) ∧
      exec (.unsupportedSpdmRequest mctp) s = .next (s.withDev (d.spdmSend mctp (.error 7))) ∧
      (d.spdmState mctp = 3 →
        exec (.getCapabilities mctp) s = .next (s.withDev ((d.spdmSet mctp 3).spdmSend mctp (.capabilities 16))) ∧
        exec (.negotiateAlgorithms mctp) s = .next (s.withDev ((d.spdmSet mctp 3).spdmSend mctp (.algorithms 0x1E7B 1))) ∧
        exec (.getDigests mctp) s = .next (s.withDev (d.spdmSend mctp (.digests (sha256 d.certChain)))) ∧
        (∀ off len : BitVec 16, off.toNat < d.certChain.length → exec (.getCertificate mctp 0 off len) s = .next (s.withDev (d.spdmSend mctp
          (.certificate ((d.certChain.drop off.toNat).take len.toNat) (d.certChain.length - (off.toNat + len.toNat)))))) ∧
        (∀ (summary : Bool) (nonce : BitVec 256),
          (d.canSign = true → exec (.challenge mctp 0 summary nonce) s = .next (s.withDev
            (d.upTr (fun t => { t with signing := some (.challenge mctp summary nonce) })))) ∧
          (d.canSign = false → exec (.challenge mctp 0 summary nonce) s = .next (s.withDev (d.spdmSend mctp (.error 3))))) ∧
        (∀ (i : BitVec 8) (nonce : BitVec 256), i.toNat ≤ 5 →
          exec (.getMeasurements mctp i false nonce) s = .next (s.withDev (d.spdmSend mctp (.measurements 5 (d.blocks i.toNat) none))) ∧
          (d.canSign = true → exec (.getMeasurements mctp i true nonce) s = .next (s.withDev
            (d.upTr (fun t => { t with signing := some (.measurements mctp (d.blocks i.toNat) nonce) })))))) ∧
      (d.spdmState mctp < 3 → exec (.getDigests mctp) s = .next (s.withDev (d.spdmSend mctp (.error 4))))) ∧
    (∀ mctp blocks nonce, d.pw.cold = false → d.tr.signing = some (.measurements mctp blocks nonce) →
      let e := d.upTr (fun t => { t with signing := none })
      exec .signatureDone s = .next (s.withDev (e.spdmSend mctp (.measurements 5 blocks (some (e.aliasPk, nonce))))))

/-- Images and SANITIZE (R63, R64, R68, R70, R71, R72, R74, R77, R78, R501). LOAD starts a copy from EMPTY or REJECTED;
the end of the copy runs the first four checks and goes on to VERIFYING or rejects with the reason and section;
verification ends in VERIFIED only when the signature and the security version hold; COMMIT refuses an image of
variance where the policy says so and a stale epoch, commits a whole image at once, and starts the drain of a
partition-scoped one, which goes on when the partition's contexts are gone or is abandoned at the limit; ABORT
discards the staged image; SANITIZE runs at once or after a running commit, and its end is posted. -/
def Obligations.ImageResults : Prop :=
  ∀ s : State,
    let d := s.dev
    (d.alive = true → d.inStandby = false →
      (d.imgState = 0 ∨ d.imgState = 5 → exec .load s = .next (s.withDev (d.fset Reg.IMG_STATUS_STATE 1))) ∧
      (d.imgState = 1 ∨ d.imgState = 2 ∨ d.imgState = 3 ∨ d.imgState = 5 →
        exec .abort s = .next (s.withDev ((d.upImg (fun i => { i with staged := none })).fset Reg.IMG_STATUS_STATE 0))) ∧
      (d.imgState = 4 → exec .abort s = .next (s.withDev (d.fset Reg.IMG_STATUS_CMD_ERR 1))) ∧
      (d.imgState = 3 → ∀ x, d.img.staged = some x →
        let b := x.bytes
        let refused := imgVariant b && d.fon Reg.IMG_POLICY_REFUSE_VARIANT
        let stale := imgScoped b && !d.epochsMatch b (imgPart b)
        (refused = true → exec .commit s = .next (s.withDev (d.imgReject .varianceRefused 0x09 0xFF))) ∧
        (refused = false → stale = true → exec .commit s = .next (s.withDev (d.imgReject .roleEpochMismatch 0x0A 0xFF))) ∧
        (refused = false → stale = false → d.stageBad 0 b.len = false →
          (imgScoped b = true → exec .commit s = .next (s.withDev ((d.upImg (fun i => { i with committing := some ⟨imgPart b⟩ })).fset Reg.IMG_STATUS_STATE 4))) ∧
          (imgScoped b = false →
            match firstFail (d.wholeCandidate b).wholeChecks with
            | some t => exec .commit s = .next (s.withDev (d.imgReject .malformed 0x0B (errSection b t)))
            | none => exec .commit s = .next (s.withDev (d.commitWhole b)) ∧ ∃ e : Dev, d.commitWhole b = e.imgDone 0 .ok 0 0)))) ∧
    (d.live = true → d.imgState = 1 → ∀ b : Blob,
      let e := d.readEnd .command
      let len := e.fget Reg.IMG_STAGE_LEN_LEN
      exec (.imageCopyDone (.ok b)) s = .next (s.withDev (match e.imgLoadFault len (b.sub 0 len) with
        | none => ((e.stageHeal len).upImg (fun i => { i with staged := some ⟨b.sub 0 len⟩ })).fset Reg.IMG_STATUS_STATE 2
        | some (r, i) => e.imgReject (if r = 6 then .authFail else .malformed) r i))) ∧
    (d.live = true → d.imgState = 2 → ∀ x, d.img.staged = some x →
      let b := x.bytes
      d.stageBad 0 4096 = false → d.stageBad (b.len - 7856) 7856 = false →
      let signed := imagePkOk && Config.slhVerify Config.imagePk (imgHeader b) (b.bytes (b.len - 7856) 7856)
      exec .imageVerifyDone s = .next (s.withDev
        (if signed = false then d.imgReject .authFail 7 0xFF
         else if imgSecurity b < d.rollback then d.imgReject .authFail 8 0xFF
         else d.imgDone 3 .ok 0 0))) ∧
    (∀ (p : Fin 32) x, d.live = true → d.partHeld p.val = true → d.img.staged = some x →
      (d.partBusy p.val = false → exec (.partitionDrainDone p) s = .next (s.withDev ((d.stopPart p.val).finishScoped x.bytes p.val).sanitizeAfter)) ∧
      (d.partBusy p.val = true → exec (.drainLimitExpiry p) s = .next (s.withDev (d.imgReject .flushed 0x0C 0xFF).sanitizeAfter))) ∧
    (d.alive = true → d.fon Reg.SEC_CMD_STATUS_BUSY = false →
      let e := d.fset Reg.SEC_CMD_STATUS_BUSY 1
      (e.imgState = 4 → exec .sanitize s = .next (s.withDev (e.upTr (fun t => { t with sanitizeDue := true })))) ∧
      (e.imgState ≠ 4 → exec .sanitize s = .next (s.withDev e.sanitizeRun))) ∧
    (d.tr.sanitizing = true → exec .sanitizeDone s = .next (s.withDev
      (((d.upTr (fun t => { t with sanitizing := false })).secStatus .ok).post 0 (.other 0x3E) 0 0)))

/-- Errors, fences and the record store (R504, R505, R506, R507, R509, R510, R516, R517, R518, R519, R520, R487). a
detected error waits for its one retry; the retry classifies it: a corrected transient only counts, a corrected
lasting one in an HBM3E row queues the row for repair and is recorded with severity 2 and action 5, a transient is
recorded with severity 3, a lasting channel failure with severity 4 and the channel is fenced; a repeated transition
of a duplicated control machine is counted and recorded, and a shared one that still differs ends in device fatal; a
pipeline whose randomness fails twice is recorded and fenced; a fence of a unit that is already fenced or is no unit
changes nothing, one of a channel sets its bit and posts FENCED; a read of RAS_LOG_DATA0 latches the record and marks
it read. -/
def Obligations.ErrorResults : Prop :=
  ∀ s : State,
    let d := s.dev
    (d.running = true →
      (∀ site, d.ras.pending.contains site = false →
        exec (.errorDetect site) s = .next (s.withDev (d.upRas (fun r => { r with pending := r.pending ++ [site] })))) ∧
      (∀ site, d.ras.pending.contains site = true →
        let e := d.upRas (fun r => { r with pending := r.pending.erase site })
        let u := e.siteUnit site
        exec (.retryDone site .correctedTransient) s = .next (s.withDev (e.finc Reg.RAS_CORR_TRANSIENT_COUNT)) ∧
        (u.1 ≠ 4 → exec (.retryDone site .correctedLasting) s = .next (s.withDev
          (e.rasRecord { sev := 2, unit := u.1, action := 0, status := 0, loc := u.2.1, detail := u.2.2, kind := 0, part := 0xFF, fn := 0xFFFF, ctx := 0 }).bump)) ∧
        (u.1 = 4 → repeatsOf e.ras.repeats (4, u.2.1) ≠ 0 → exec (.retryDone site .correctedLasting) s = .next (s.withDev
          (e.rasRecord { sev := 2, unit := 4, action := 5, status := 0, loc := u.2.1, detail := u.2.2, kind := 0, part := 0xFF, fn := 0xFFFF, ctx := 0 }).bump)) ∧
        exec (.retryDone site .transient) s = .next (s.withDev
          (e.rasRecord { sev := 3, unit := u.1, action := 0, status := 0, loc := u.2.1, detail := u.2.2, kind := 0, part := 0xFF, fn := 0xFFFF, ctx := 0 }).bump) ∧
        (∀ h c, site = .hbmTraining h c → exec (.retryDone site .lasting) s = .next (s.withDev
          ((e.rasRecord { sev := 4, unit := 5, action := 3, status := 0, loc := h.val + c.val * 256, detail := u.2.2, kind := 0, part := 0xFF, fn := 0xFFFF, ctx := 0 }).bump.fenceUnit 3 (16 * h.val + c.val))))) ∧
      (∀ (block machine : BitVec 8) (inst : BitVec 16),
        let e := d.finc Reg.RAS_DUP_MISMATCH_COUNT
        let detail := machine.toNat + inst.toNat * 65536
        exec (.dupMismatch block machine inst false) s = .next (s.withDev
          (e.rasRecord { sev := 3, unit := 0x13, action := 0, status := 0, loc := block.toNat, detail := detail })) ∧
        (block = 9 → exec (.dupMismatch block machine inst true) s = .next (s.withDev (e.goFatal 9 detail)))) ∧
      (∀ pipe : Fin 96, d.cad.fenced.contains pipe.val = false →
        exec (.rngHealthFail pipe false) s = .next (s.withDev (d.finc Reg.CAD_RNG_RETRY_COUNT)) ∧
        exec (.rngHealthFail pipe true) s = .next (s.withDev
          ((d.rasRecord { sev := 4, unit := 0x14, action := 3, status := 0, loc := pipe.val, detail := 0 }).fenceUnit 5 pipe.val))) ∧
      (∀ w : W32, d.inStandby = false →
        let kind := fld w.toNat 0 4
        let index := fld w.toNat 16 16
        (fenceNames kind index = false ∨ d.isFenced kind index = true → exec (.fenceCmd w) s = .next (s.withDev d)) ∧
        (kind = 3 → index < 128 → d.isFenced 3 index = false → exec (.fenceCmd w) s = .next (s.withDev
          ((d.forb (Reg.RAS_FENCED_HBMs_CHANNELS (index / 16)) (2 ^ (index % 16))).post 0 (.other 0x39) 0 (3 + index * 65536)))))) ∧
    (d.alive = true →
      let i := d.fget Reg.RAS_LOG_INDEX_ENTRY
      let r := d.ras.log.get 0 i
      exec .logData0Read s = .next (s.withDev
        ((d.upRas (fun x => { x with latch := r, unread := x.unread.filter (fun j => decide (j ≠ i)) })).emit
          (.regRead 0 (Reg.RAS_LOG_DATAi 0) 4 (BitVec.ofNat 64 (bvFld r 0 32))))))

/-- Self-test at power-on and in service (R557, R558, R559, R560, R561, R562, R563, R564, R565, R566). a power-on group
starts in its turn; a group that ends without a lasting failure is shown PASSED with its time, and a lasting failure
of an HBM3E channel is a power-on failure whose code is kept; an in-service test of an idle pod link withdraws it, one
of spare lanes or of a DOWN port starts at once, any other is refused; a link that becomes quiet is saved and tested
in DISABLED, one that does not returns; a test without failures ends with OK, and the link trains again and resumes
where it was. -/
def Obligations.SelfTestResults : Prop :=
  ∀ s : State,
    let d := s.dev
    (∀ g : Fin 8, d.pw.cold = false → d.pw.kettle = true → d.pw.initDone = false → d.fon Reg.BST_POST_STATUS_FAIL = false →
      g.val = 0 ∨ d.bst.started.getLsbD (g.val - 1) = true →
      exec (.bistGroupStart g) s = .next (s.withDev (d.upBst (fun b => { b with started := b.started ||| BitVec.ofNat 8 (2 ^ g.val) })))) ∧
    (∀ (g : Fin 8) (us : BitVec 16), d.bst.started.getLsbD g.val = true → d.bst.ended.getLsbD g.val = false → d.pw.initDone = false →
      exec (.bistGroupDone g [] us) s = .next (s.withDev
        (((d.fset (Reg.BST_GROUPg_TIME_US g.val) us.toNat).forb Reg.BST_POST_STATUS_PASSED (2 ^ g.val)).upBst
          (fun b => { b with ended := b.ended ||| BitVec.ofNat 8 (2 ^ g.val) })).bistSettle)) ∧
    (∀ (h : Fin 8) (c : Fin 16) (r : BitVec 4) (us : BitVec 16), d.bst.started.getLsbD 3 = true → d.bst.ended.getLsbD 3 = false → d.pw.initDone = false →
      d.fon Reg.BST_POST_STATUS_FAIL = false → d.fget (Reg.BST_GROUPg_LASTING 3) < 255 →
      let e := (d.finc (Reg.BST_GROUPg_LASTING 3)).bistFailure (3 * 2 ^ 28 + r.toNat * 2 ^ 24 + (h.val * 16 + c.val))
      exec (.bistGroupDone 3 [⟨.hbm h c, r, true⟩] us) s = .next (s.withDev
        ((e.fset (Reg.BST_GROUPg_TIME_US 3) us.toNat).upBst (fun b => { b with ended := b.ended ||| BitVec.ofNat 8 (2 ^ 3) })).bistSettle)) ∧
    (Takes d Reg.BST_SVC_STATUS_BUSY → ∀ index : BitVec 16,
      let n := index.toNat
      let refused := d.fset Reg.BST_SVC_STATUS_STATUS Status.accessError.code
      let busy (e : Dev) (kind : Nat) (st : SvcStage) : Dev := (e.fset Reg.BST_SVC_STATUS_BUSY 1).upBst (fun b => { b with svc := some ⟨kind, n, st, 0⟩ })
      (d.svcLinkIdle n = true → exec (.svcOnaudLink index) s = .next (s.withDev (busy (d.updLink n (fun l => { l with testing := true })) 1 .quiet))) ∧
      (d.svcLinkIdle n = false → exec (.svcOnaudLink index) s = .next (s.withDev refused)) ∧
      (n < 8 → exec (.svcD2dSpares index) s = .next (s.withDev (busy d 2 .prbs))) ∧
      (8 ≤ n → exec (.svcD2dSpares index) s = .next (s.withDev refused)) ∧
      (n < 32 → d.portExists n = true → d.portState n = 1 → exec (.svcEthPort index) s = .next (s.withDev (busy d 3 .prbs))) ∧
      (32 ≤ n → exec (.svcEthPort index) s = .next (s.withDev refused))) ∧
    (∀ (n : Fin 64) t, d.running = true → d.svcLink n.val .quiet = some t →
      (d.linkQuiet n.val = true →
        let l := d.onfLink n.val
        exec (.linkQuiet n) s = .next (s.withDev
          (((d.updLink n.val (fun l' => { l' with saved := some ⟨l.txSeq, l.rxSeq, l.credits, d.fget (Reg.ONF_LINKn_LAT_LAT0 n.val)⟩ })).setLinkState n.val 6).upBst
            (fun b => { b with svc := some { t with stage := .prbs } })))) ∧
      exec (.quietTimeout n) s = .next (s.withDev ((d.updLink n.val (fun l => { l with testing := false })).svcDone t .accessError 0).releaseHeld)) ∧
    (∀ t (reason : BitVec 4), d.running = true → d.bst.svc = some t → t.stage = .prbs →
      let e := d.fadd Reg.BST_TRANSIENT_COUNT 0
      (t.kind = 1 → exec (.prbsDone 0 0 reason) s = .next (s.withDev
        ((e.setLinkState t.index 1).upBst (fun b => { b with svc := some { t with stage := .restore, result := 0 } })))) ∧
      (t.kind ≠ 1 → exec (.prbsDone 0 0 reason) s = .next (s.withDev (e.svcDone t .ok 0)))) ∧
    (∀ (n : Fin 64) (lanes : BitVec 4) (lat : BitVec 8) t, d.running = true → d.svcLink n.val .restore = some t →
      let e := (d.fset (Reg.ONF_LINKn_STATE_LANES n.val) (d.goodLanes n.val lanes).toNat).updLink n.val (fun l => { l with testing := false, saved := none })
      (e.fon (Reg.ONF_LINKn_CTL_DISABLE n.val) = true → ∀ ok, exec (.svcRestoreDone n lanes lat ok) s = .next (s.withDev ((e.linkOut n.val 6).svcDone t .ok t.result))) ∧
      (e.fon (Reg.ONF_LINKn_CTL_DISABLE n.val) = false →
        exec (.svcRestoreDone n lanes lat false) s = .next (s.withDev (((e.linkOut n.val 0).report n.val 0 none).svcDone t .ok t.result))) ∧
      (e.fon (Reg.ONF_LINKn_CTL_DISABLE n.val) = false → 3 ≤ popBits 4 (d.goodLanes n.val lanes).toNat → ∀ v, (d.onfLink n.val).saved = some v →
        let g := (e.updLink n.val (fun l => { l with txSeq := v.txSeq, rxSeq := v.rxSeq, credits := v.credits })).fset (Reg.ONF_LINKn_LAT_LAT0 n.val) v.lat0
        let k := (g.fset (Reg.ONF_LINKn_LAT_LAT_NOW n.val) lat.toNat).setLinkState n.val (if popBits 4 (d.goodLanes n.val lanes).toNat = 4 then 3 else 4)
        exec (.svcRestoreDone n lanes lat true) s = .next (s.withDev ((k.pump n.val (k.onfLink n.val).queue.length).releaseHeld.svcDone t .ok t.result))))

/-- Notches, the cap, temperature, STANDBY and WAKE (R534, R535, R537, R538, R540, R541, R542, R544, R545, R546, R556).
asserting the brake marks and counts it, applies its notch and posts POWER, and its release lets the applied notch
fall one step at a time; a new estimate moves the average; the cap raises its notch while the average exceeds CAP_W; a
scan stores 48 temperatures and the hottest; the thermal notch rises while it is too hot and falls when it is 3 °C
below the threshold; the divider follows the applied notch up to 3; STANDBY is accepted only when nothing runs and
ends in STATE 2 with a cleared SRAM, and WAKE only from STANDBY, each with its event. -/
def Obligations.PowerControlResults : Prop :=
  ∀ s : State,
    let d := s.dev
    (d.pw.brakePin = false →
      let e := d.upPw (fun p => { p with brakePin := true })
      (e.alive = true → exec .pwrbrakeAssert s = .next (s.withDev
        ((((e.fset Reg.PWR_BRAKE_ACTIVE 1).finc Reg.PWR_BRAKE_COUNT_COUNT).upPw (fun p => { p with falling := none })).applyNotch.powerEvent 6 .ok 0))) ∧
      (e.alive = false → exec .pwrbrakeAssert s = .next (s.withDev e))) ∧
    (
      let e := d.upPw (fun p => { p with brakePin := false })
      (e.alive = true → e.fon Reg.PWR_BRAKE_ACTIVE = true →
        let g := e.fset Reg.PWR_BRAKE_ACTIVE 0
        let n := g.fget Reg.PWR_THROTTLE_NOTCH
        exec .pwrbrakeRelease s = .next (s.withDev
          ((g.upPw (fun p => { p with falling := if g.topNotch < n then some n else none })).applyNotch.powerEvent 7 .ok 0))) ∧
      (e.fon Reg.PWR_BRAKE_ACTIVE = false → exec .pwrbrakeRelease s = .next (s.withDev e))) ∧
    (∀ n, d.pw.falling = some n → exec .brakeStepDown s = .next (s.withDev
      (d.upPw (fun p => { p with falling := if n - 1 ≤ d.topNotch then none else some (n - 1) })).applyNotch)) ∧
    (d.alive = true → exec .dividerChange s = .next (s.withDev (d.upPw (fun p => { p with divider := min 3 (d.fget Reg.PWR_THROTTLE_NOTCH) })))) ∧
    (∀ now : BitVec 16, d.sensed = true →
      let e := d.upPw (fun p => { p with estimates := (now.toNat :: p.estimates).take 10000 })
      let l := e.pw.estimates.take (100 * e.fget Reg.PWR_CAP_WINDOW_MS)
      exec (.powerEstimate now) s = .next (s.withDev
        (((e.fset Reg.PWR_EST_NOW_W now.toNat).fset Reg.PWR_EST_AVG_W (l.foldl (· + ·) 0 / l.length)).noteLevel 51))) ∧
    (d.alive = true → d.fget Reg.PWR_CAP_CAP_W < d.fget Reg.PWR_EST_AVG_W → d.pw.cap < 6 → 1 ≤ d.fget Reg.PWR_CAP_WINDOW_MS →
      exec .capCheck s = .next (s.withDev
        (d.upPw (fun p => { p with cap := d.pw.cap + 1, atSix := 0, sinceLower := min 1000 (d.pw.sinceLower + 1) })).applyNotch)) ∧
    (∀ r : BitVec 768, d.sensed = true →
      let e := (List.range 48).foldl (fun (d : Dev) i => d.fset (Reg.PWR_TEMPi_TEMP i) (bvFld r (16 * i) 16)) d
      let m := e.hottest (List.range 48)
      let g := ((e.fset Reg.PWR_TEMP_MAX_SENSOR m).fset Reg.PWR_TEMP_MAX_TEMP (e.fget (Reg.PWR_TEMPi_TEMP m))).noteLevels (listOf 49 (· + 1))
      g.temp g.hotSensor < 16 * 105 → g.alive = true →
      exec (.sensorScan r) s = .next (s.withDev (g.upPw (fun p => { p with hot := p.hot && g.tooHot, tjmax := false })).applyNotch)) ∧
    (d.alive = true →
      (d.tooHot = true → d.pw.thermal < 6 →
        let e := (d.upPw (fun p => { p with thermal := p.thermal + 1, hot := true })).applyNotch
        (d.pw.hot = true → exec .thermalRaise s = .next (s.withDev e)) ∧
        (d.pw.hot = false → exec .thermalRaise s = .next (s.withDev (e.powerEvent 3 .ok e.hotReading)))) ∧
      (d.tooHot = false → d.temp d.hotSensor < d.throt - 48 →
        exec .thermalLower s = .next (s.withDev (d.upPw (fun p => { p with thermal := p.thermal - 1 })).applyNotch))) ∧
    (d.alive = true → d.fon Reg.PWR_CMD_STATUS_BUSY = false →
      let refused := d.fset Reg.PWR_CMD_STATUS_STATUS Status.accessError.code
      (d.canStandby = true →
        let e := ((d.fset Reg.PWR_CMD_STATUS_BUSY 1).fset Reg.PWR_STATE_STATE 1).svcAbandon.upMem (fun m => { m with moves := [] })
        let g := (e.mem.blk.keys.foldl (fun (d : Dev) i => d.bringHome i) e).linksDown
        exec .standby s = .next (s.withDev ((List.range 32).foldl (fun (d : Dev) p => if d.portExists p then d.portStop p 1 else d) g))) ∧
      (d.canStandby = false → exec .standby s = .next (s.withDev refused)) ∧
      (d.inStandby = true →
        let e := ((d.fset Reg.PWR_CMD_STATUS_BUSY 1).fset Reg.PWR_STATE_STATE 3).noteState 168 d.deviceState
        let g := (List.range 32).foldl (fun (d : Dev) c => if d.clusterOff c then d else d.clearCluster c) e
        let k := (List.range 32).foldl (fun (d : Dev) p => if d.portExists p && !d.portBarred p then d.setPortState p 2 else d) g
        exec .wake s = .next (s.withDev ((List.range 64).foldl (fun (d : Dev) n => if d.linkState n = 0 then d.startTraining n else d) k))) ∧
      (d.inStandby = false → exec .wake s = .next (s.withDev refused))) ∧
    (d.fget Reg.PWR_STATE_STATE = 1 →
      let e := d.clearSram.upTl (fun _ => Tiles.reset)
      exec .standbyDone s = .next (s.withDev
        (((((e.fset Reg.PWR_STATE_STATE 2).fset Reg.PWR_CMD_STATUS_BUSY 0).fset Reg.PWR_CMD_STATUS_STATUS 0).noteState 168 d.deviceState).powerEvent 1 .ok 0))) ∧
    (d.fget Reg.PWR_STATE_STATE = 3 →
      exec .wakeDone s = .next (s.withDev
        (((((d.upImg (fun i => { i with startDue := d.committed })).fset Reg.PWR_STATE_STATE 0).fset Reg.PWR_CMD_STATUS_BUSY 0).fset
          Reg.PWR_CMD_STATUS_STATUS 0).powerEvent 2 .ok 0)))

/-- Resets, start-up, pins and the TAP (R530, R531, R532, R543, R548, R549, R551, R552, R574, R577, R578, R499). a rise of
PWROK records POWER_ON and a fall is a cold reset; a low COLD_RST_N, a brownout, a loss of Kettle and a thermal trip
are cold resets with their cause alone in PWR_RESET_CAUSE; the release samples the straps; start-up ends with
INIT_DONE once all eight self-test groups have ended without a failure; the warm reset of the pin, of PWR_CMD and of
the management interface all add their cause and show RESETTING; a lost reference clock stops its ports or retrains
its links, and its return trains the ports; the TAP acts as BYPASS on an instruction that the debug level does not
reach. -/
def Obligations.ResetResults : Prop :=
  ∀ s : State,
    let d := s.dev
    exec .railsWithinTolerance s = .next (s.withDev (d.upPw (fun p => { p with rails := true }))) ∧
    (d.pw.pwrok = false → exec .pwrokRise s = .next (s.withDev ((d.upPw (fun p => { p with pwrok := true })).regSet Reg.PWR_RESET_CAUSE 1))) ∧
    exec .pwrokFall s = .next (s.withDev ((d.upPw (fun p => { p with pwrok := false, thermtrip := false })).coldReset none)) ∧
    (
      let e := d.upPw (fun p => { p with coldPin := true })
      (d.pw.cold = false → exec .coldPin s = .next (s.withDev (e.coldReset (some .coldPin))) ∧ (e.coldReset (some .coldPin)).regGet Reg.PWR_RESET_CAUSE = 4) ∧
      (d.pw.cold = true → exec .coldPin s = .next (s.withDev e))) ∧
    (d.pw.pwrok = true → exec .brownout s = .next (s.withDev (d.coldReset (some .brownout))) ∧
      (d.coldReset (some .brownout)).regGet Reg.PWR_RESET_CAUSE = 8) ∧
    (d.pw.kettle = true → exec .kettleLoss s = .next (s.withDev (d.coldReset (some .kettleLoss))) ∧
      (d.coldReset (some .kettleLoss)).regGet Reg.PWR_RESET_CAUSE = 16) ∧
    (∀ i, i < 48 → d.pw.pwrok = true → d.pw.thermtrip = false → 16 * 125 ≤ d.temp i →
      let e := (d.upPw (fun p => { p with thermtrip := true })).coldReset (some .thermtrip)
      exec .thermtrip s = .next (s.withDev e) ∧ e.pw.thermtrip = true ∧ e.regGet Reg.PWR_RESET_CAUSE = 32) ∧
    (∀ split cxl leader testen smb, d.pw.pwrok = true → d.pw.thermtrip = false → d.pw.cold = true →
      let x : Straps := ⟨split, cxl, leader, smb⟩
      let e := (d.upPw (fun p => { p with coldPin := false, cold := testen, straps := x })).showStraps x
      exec (.coldResetRelease split cxl leader testen smb) s = .next (s.withDev
        ((List.range 8).foldl (fun (d : Dev) k => d.fset (Reg.HIF_LINKk_STATUS_STATE k) (b2n (d.linkPresent k))) e))) ∧
    (d.pw.cold = false → d.pw.kettle = false →
      let e := ((d.upPw (fun p => { p with kettle := true })).keyRecord imagePkOk).keyRecord debugPkOk
      exec .kettleLock s = .next (s.withDev (e.regSet Reg.SEC_DEBUG_NONCE (Config.freeValue 64 e.fresh)).bump.freeze.deriveAlias)) ∧
    (d.pw.cold = false → d.pw.kettle = true → d.pw.initDone = false → d.bst.ended = 0xFF → d.fon Reg.BST_POST_STATUS_FAIL = false →
      (d.fget Reg.PWR_STATE_STATE ≠ 4 → exec .initDone s = .next (s.withDev d.startUp)) ∧
      (d.fget Reg.PWR_STATE_STATE = 4 → exec .warmResetDone s = .next (s.withDev d.startUp))) ∧
    (d.pw.cold = false → exec .warmPin s = .next (s.withDev (d.warmReset .warmPin))) ∧
    (d.alive = true →
      (d.fon Reg.PWR_CMD_STATUS_BUSY = false → exec .warmReset s = .next (s.withDev (d.warmReset .warmCmd))) ∧
      exec .pf0Flr s = .next (s.withDev ((d.drainPoint 0).drainEnd 0).disableVfs) ∧
      (∀ x : Fin 4, exec (.referenceClockLoss (.oref x)) s = .next (s.withDev
        ((List.range 16).foldl (fun (d : Dev) i => d.startRetrain (16 * x.val + i)) d)))) ∧
    (∀ g : Fin 4,
      let e := d.upPw (fun p => { p with erefLost := p.erefLost ||| BitVec.ofNat 4 (2 ^ g.val) })
      let k := d.upPw (fun p => { p with erefLost := p.erefLost &&& ~~~(BitVec.ofNat 4 (2 ^ g.val)) })
      (d.alive = true →
        exec (.referenceClockLoss (.eref g)) s = .next (s.withDev
          ([0, 1, 2, 3, 4, 5, 6, 7].foldl (fun (d : Dev) i => if d.portExists (8 * g.val + i) then d.portStop (8 * g.val + i) 1 else d) e)) ∧
        exec (.referenceClockReturn g) s = .next (s.withDev
          ([0, 1, 2, 3, 4, 5, 6, 7].foldl (fun (d : Dev) i =>
            if d.portExists (8 * g.val + i) && !d.portBarred (8 * g.val + i) && decide (d.portState (8 * g.val + i) = 1) then d.setPortState (8 * g.val + i) 2
            else d) k))) ∧
      (d.alive = false → exec (.referenceClockLoss (.eref g)) s = .next (s.withDev e) ∧ exec (.referenceClockReturn g) s = .next (s.withDev k))) ∧
    (∀ n : Fin 4, exec (.perstRelease n) s = .next (s.withDev (d.upPw (fun p => { p with perst := p.perst ||| BitVec.ofNat 4 (2 ^ n.val) })))) ∧
    (∀ i : TapInstr, i ≠ .idcode →
      let lv := tapLevel i
      (lv = 0 ∨ (d.pw.initDone = true ∧ lv ≤ d.fget Reg.SEC_DEBUG_LEVEL) → exec (.tapInstruction i) s = .next (s.withDev (d.upPw (fun p => { p with tap := i })))) ∧
      (lv ≠ 0 → d.pw.initDone = false ∨ d.fget Reg.SEC_DEBUG_LEVEL < lv →
        exec (.tapInstruction i) s = .next (s.withDev (d.upPw (fun p => { p with tap := .bypass }))))) ∧
    exec (.tapInstruction .idcode) s = .next (s.withDev ((d.upPw (fun p => { p with tap := .idcode })).emit (.tapIdcode 0xB64005CB)))

/-- The management interface (R585, R586, R587, R588, R589, R590, R592). while its rails and PWROK hold, every request of
the management interface is answered and counted: MCTP control gives and reports the endpoint's number, UUID and
message types; PLDM gives its terminus, types and commands, reads the sensors of R588, enables and disables them,
serves one PDR for each sensor and hands out sensor events oldest first; vendor commands give self-test, record and
reset state and a warm reset when allowed; a bad PEC only counts. Codes and bodies that R586 and R587 leave to the
MCTP and PLDM standards are the model's (log entry 47), unstated versions are free values (log entry 4). -/
def Obligations.ManagementResults : Prop :=
  ∀ s : State,
    let d := s.dev
    d.mgtUp = true →
    let ans (e : Dev) (r : MgtRsp) : Host.Outcome State Fault Refusal := .next (s.withDev ((e.finc Reg.MGT_REQ_COUNT_COUNT).emit (.mctp r)))
    (∀ eid : BitVec 8, eid ≠ 0 → eid ≠ 0xFF →
      exec (.setEndpointId eid) s = ans ((d.fset Reg.MGT_STATUS_EID eid.toNat).fset Reg.MGT_STATUS_EID_SET 1) (.control 1 0 [0, eid, 0])) ∧
    exec .getEndpointId s = ans d (.control 2 0 [BitVec.ofNat 8 (d.fget Reg.MGT_STATUS_EID), 0, 0]) ∧
    exec .getEndpointUuid s = ans d (.control 3 0 ((bytes256 devidHash).take 16)) ∧
    (∀ t : BitVec 8, t = 0 ∨ t = 1 ∨ t = 5 ∨ t = 0x7E → exec (.getMctpVersionSupport t) s = .next (s.withDev
      ((d.finc Reg.MGT_REQ_COUNT_COUNT).emit (.mctp (.control 4 0 (1 :: leBytes 4 (Config.freeValue 32 d.fresh).toNat)))).bump)) ∧
    exec .getMessageTypeSupport s = ans d (.control 5 0 [4, 0x00, 0x01, 0x05, 0x7E]) ∧
    (∀ t : BitVec 8, ¬ (t = 0 ∨ t = 1 ∨ t = 5 ∨ t = 0x7E) → exec (.unsupportedMessageType t) s = ans d (.badType t.toNat)) ∧
    exec .pecError s = .next (s.withDev (d.finc Reg.MGT_PEC_ERR_COUNT)) ∧
    (d.fon Reg.MGT_STATUS_ALERT = true → exec .alertResponse s = .next (s.withDev (d.emit (.alertAddress (0x60 + d.fget Reg.GLB_STRAPS_SMB_ADDR))))) ∧
    (∀ tid : BitVec 8, tid ≠ 0 → tid ≠ 0xFF → exec (.settid tid) s = ans (d.fset Reg.MGT_STATUS_TID tid.toNat) (.pldm 0 1 0 [])) ∧
    exec .gettid s = ans d (.pldm 0 2 0 [BitVec.ofNat 8 (d.fget Reg.MGT_STATUS_TID)]) ∧
    exec (.getpldmversion 2) s = ans d (.pldm 0 3 0 [0x00, 0xF0, 0xF2, 0xF1]) ∧
    exec .getpldmtypes s = ans d (.pldm 0 4 0 [5, 0, 0, 0, 0, 0, 0, 0]) ∧
    exec (.getpldmcommands 0) s = ans d (.pldm 0 5 0 (0x3E :: List.replicate 31 0)) ∧
    (∀ c : BitVec 8, 6 ≤ c.toNat → exec (.unsupportedPldmCmd 0 c) s = ans d (.pldm 0 c.toNat 5 [])) ∧
    (∀ id : BitVec 16, 1 ≤ id.toNat → id.toNat ≤ 55 →
      let n := id.toNat
      (d.sensorOp n ≠ 2 → exec (.getsensorreading id) s = ans d (.reading n (d.sensorOp n) (d.sensorReading n) (d.sensorLevel n))) ∧
      exec (.setnumericsensorenable id true) s = ans (d.upMg (fun m => { m with disabled := m.disabled.filter (fun i => decide (i ≠ n)) })) (.pldm 2 0x10 0 []) ∧
      (d.mg.disabled.contains n = false → exec (.setnumericsensorenable id false) s = ans (d.upMg (fun m => { m with disabled := n :: m.disabled }))
        (.pldm 2 0x10 0 []))) ∧
    (∀ id : BitVec 16,
      let n := id.toNat
      (64 ≤ n ∧ n < 128) ∨ (128 ≤ n ∧ n < 160) ∨ (160 ≤ n ∧ n ≤ 168) →
      exec (.getstatesensorreadings id) s = ans d (.state n (b2n (d.mg.disabled.contains n)) (d.sensorReading n)) ∧
      exec (.setstatesensorenables id true) s = ans (d.upMg (fun m => { m with disabled := m.disabled.filter (fun i => decide (i ≠ n)) })) (.pldm 2 0x20 0 [])) ∧
    exec .getpdrrepositoryinfo s = ans d (.pldm 2 0x50 0 [0, 160, 0, 0, 0]) ∧
    exec (.getpdr 0) s = ans d (.pdr 1 2) ∧ exec (.getpdr 55) s = ans d (.pdr 55 64) ∧ exec (.getpdr 168) s = ans d (.pdr 168 0) ∧
    exec (.getpdr 60) s = ans d (.pldm 2 0x51 0x82 []) ∧
    (d.mg.events = [] → exec .pollforplatformeventmessage s = ans d (.event none)) ∧
    (∀ e, d.mg.events = [e] → d.mg.pend = [] →
      exec .pollforplatformeventmessage s = ans ((d.upMg (fun m => { m with events := [] })).fset Reg.MGT_STATUS_ALERT 0) (.event (some e))) ∧
    exec .getBst s = ans d (.vendor 1 0 (d.regBytes Reg.BST_POST_STATUS ++ d.regBytes Reg.BST_FAIL_CODE ++
      (List.range 8).flatMap (fun g => d.regBytes (Reg.BST_GROUPg g)) ++ d.regBytes Reg.BST_SVC_CODE)) ∧
    (∀ entry : BitVec 8, exec (.getRecord entry) s = ans d (.vendor 2 0 (leBytes 64 (d.ras.log.get 0 entry.toNat).toNat ++ d.regBytes Reg.RAS_REC_TOTAL))) ∧
    exec .getState s = ans d (.vendor 3 0 (d.regBytes Reg.GLB_ID ++ d.regBytes Reg.GLB_STRAPS ++ d.regBytes Reg.GLB_STRUCT_EPOCH ++
      d.regBytes Reg.PWR_RESET_CAUSE ++ d.regBytes Reg.RAS_FATAL ++ leBytes 1 d.rollback)) ∧
    (d.fon Reg.MGT_CTL_RESET_EN = true → d.pw.cold = false → exec .vendorWarmReset s = .next (s.withDev
      (((d.finc Reg.MGT_REQ_COUNT_COUNT).emit (.mctp (.vendor 4 0 []))).warmReset .warmMgt))) ∧
    (d.fon Reg.MGT_CTL_RESET_EN = false → exec .vendorWarmReset s = ans d (.vendor 4 1 [])) ∧
    (∀ c : BitVec 8, c = 0 ∨ 5 ≤ c.toNat → exec (.unknownVendorCommand c) s = ans d (.vendor c.toNat 2 []))

/-- Accesses to BAR0 (R9, R10, R11, R16, R551, R593, R594). a field that is written changes by its access code within its
own bits and every other bit of the register stays; a 4-byte write of a register of PF0 applies each field's code, the
lower half of a 64-bit register is staged and the upper half applies both; a read answers the value and then takes the
read's effect, a lower-half read latches the upper half for the next read; an offset that no table defines reads zero
and ignores writes; a misaligned access reads zero and changes nothing. What a write of a command register does beyond
its fields is its row's own (log entry 49). -/
def Obligations.RegisterAccessResults : Prop :=
  (∀ (f : FieldDef) (committed : Bool) (old v : W64), f.own = false → f.lo + f.w ≤ 64 →
      let x := bvFld v f.lo f.w
      let o := bvFld old f.lo f.w
      let kept := match f.clamp with
        | some (a, b) => max a (min b x) % 2 ^ f.w
        | none => x
      (∀ i, i < 64 → i < f.lo ∨ f.lo + f.w ≤ i → (f.write committed old v).getLsbD i = old.getLsbD i) ∧
      (f.acc = .ro ∨ f.acc = .rc ∨ f.acc = .wo → f.write committed old v = old) ∧
      (f.acc = .rw → bvFld (f.write committed old v) f.lo f.w = kept) ∧
      (f.acc = .rwl → bvFld (f.write committed old v) f.lo f.w = if committed then o else kept) ∧
      (f.acc = .w1c → ∀ i, i < f.w → (bvFld (f.write committed old v) f.lo f.w).testBit i = (o.testBit i && !x.testBit i)) ∧
      (f.acc = .w1s → ∀ i, i < f.w → (bvFld (f.write committed old v) f.lo f.w).testBit i = (o.testBit i || x.testBit i))) ∧
    (∀ s : State,
      let d := s.dev
      d.alive = true →
      (∀ off r, findReg off = some r → r.wide = false → off % 4 = 0 → ∀ v : W64,
        let x : W64 := (lowHalf v).setWidth 64
        exec (.registerWrite 0 off 4 v) s = .next (s.withDev
          ((d.regSet off (r.fields.foldl (fun o f => f.write d.committed o x) (d.regGet off))).written off x)) ∧
        exec (.rcRead 0 off 4) s = .next (s.withDev ((d.readEffect off r).emit (.regRead 0 off 4 ((lowHalf (d.regView off)).setWidth 64))))) ∧
      (∀ off r, findReg off = some r → r.wide = true → ∀ lo : W32,
        let e := d.upReg (fun x => { x with stage := x.stage.set off lo })
        let v := d.regView off
        exec (.lowerHalfWrite off lo) s = .next (s.withDev e) ∧
        (findReg (off + 4) = none → ∀ hi : W32, exec (.upperHalfWrite (off + 4) hi) (s.withDev e) =
          .next (s.withDev (e.applyReg off r (lo.setWidth 64 ||| (hi.setWidth 64 <<< 32))))) ∧
        exec (.lowerHalfRead off) s = .next (s.withDev
          (((d.readEffect off r).upReg (fun x => { x with latch := x.latch.set off (highHalf v) })).emit (.regRead 0 off 4 ((lowHalf v).setWidth 64))))) ∧
      (∀ off, findReg off = none → upperOf off = none → mboxAt off = none → off % 4 = 0 → ∀ v : W64,
        exec (.registerWrite 0 off 4 v) s = .next s ∧ exec (.rcRead 0 off 4) s = .next (s.withDev (d.emit (.regRead 0 off 4 0)))) ∧
      (∀ off size, barAccess off size = false → ∀ v : W64,
        exec (.registerWrite 0 off size v) s = .next s ∧ exec (.rcRead 0 off size) s = .next (s.withDev (d.emit (.regRead 0 off size 0)))))

/-- What a step runs (95_what_each_step_holds, R131). with a command at the front of its queue a step is that command's
effect with the rest of the queue; on an empty queue a block whose tiles all stand still lets one TCLK cycle pass (the
model's choice, log entry 1), and one with a RUNNING tile also issues the next instruction of the tile whose turn it
is (log entry 2). -/
def Obligations.StepRunsFront : Prop :=
  ∀ s : State,
    (∀ c rest, s.pending = c :: rest → step s = exec c { s with pending := rest }) ∧
    (s.pending = [] →
      let d := s.dev.tick
      (d.turnTile = none → step s = .next (s.withDev d)) ∧
      (∀ t, d.turnTile = some t →
        let e := d.upTl (fun x => { x with turn := (t + 1) % 512 })
        let w := tileDecode (Fin.ofNat 512 t) (e.fetchWord t (e.tile t).pc)
        (∀ i, w = some i → step s = exec i (s.withDev e)) ∧
        (w = none → step s = .next (s.withDev (e.tileTrap t .illegalInstruction 0)))))

/-- Every command completes and leaves the queue alone (95_what_each_step_holds). from every state every command of the
table answers a next state; what it makes of the block does not depend on the commands that wait, and it takes and
adds none. -/
def Obligations.CommandsAlwaysComplete : Prop :=
  ∀ (i : Instr) (d : Dev), ∃ e : Dev, ∀ q : List Instr, exec i ⟨q, d⟩ = .next ⟨q, e⟩

/-- Commands run first in, first out (95_what_each_step_holds). as many steps as a queue holds commands run exactly those,
in their order, whatever waits behind them; the block that they leave is that of running the two parts of the queue
one after the other. -/
def Obligations.QueueInOrder : Prop :=
  ∀ (a b : List Instr) (d : Dev), ∃ e f : Dev, ∀ q : List Instr,
      runSteps a.length ⟨a ++ (b ++ q), d⟩ = .next ⟨b ++ q, e⟩ ∧ runSteps b.length ⟨b ++ q, e⟩ = .next ⟨q, f⟩ ∧
      runSteps (a.length + b.length) ⟨a ++ b ++ q, d⟩ = .next ⟨q, f⟩ ∧
      ∀ c, runSteps 1 ⟨c :: q, d⟩ = exec c ⟨q, d⟩

/-- Instruction words of tiles (R121, R122, R125, R607). every word that decodes to an instruction for a tile is the word
that the encoder writes for it, and the encoder's word of every tile instruction, with every operand at every value,
decodes to that instruction on its tile: no bit of a word is dropped. -/
def Obligations.TileWordRoundTrip : Prop :=
  (∀ (t : Fin 512) (w : W64) i, tileDecode t w = some i → tileEncode i = some w ∧ instrTile i = some t) ∧
    (∀ (t : Fin 512) (w : W64) i, tileEncode i = some w → instrTile i = some t → tileDecode t w = some i) ∧
    (∀ i, (tileEncode i).isSome = (instrTile i).isSome)

/-- Memory keeps its canonical form (R5, R159, R160). a step of a state whose memory lists its bytes by strictly rising
address and lists no byte that an unlisted address reads as leaves a memory of that form, whatever command stands at
the front and whatever instruction a tile issues. -/
def Obligations.MemoryStaysCanonical : Prop :=
  ∀ s t : State, s.dev.mem.ram.wf = true → step s = .next t → t.dev.mem.ram.wf = true

/-- The machine right after reset (R472, R549, R552, R539, R542, R2, R136). at reset cold reset holds, no register has
been written and each holds its Reset value (GLB_ID 0x6400B010, CAP_W 1,400, T_THROT 100, and the fields below), no
image is loaded or committed, every tile is IDLE, every key slot EMPTY, every pod link DOWN, no command waits and
memory is canonical. That the machine starts there, and what an unlisted byte reads as, are the model's choices (log
entries 3 and 5). -/
def Obligations.ResetState : Prop :=
  let s := State.reset
    let d := s.dev
    s.pending = [] ∧ d.pw.cold = true ∧ d.pw.initDone = false ∧ d.mem.ram.wf = true ∧ d.mem.ram.cells = [] ∧
    (∀ off, d.regGet off = regReset off) ∧ d.regGet Reg.GLB_ID = 0x6400B010 ∧ d.fget Reg.PWR_CAP_CAP_W = 1400 ∧ d.fget Reg.PWR_THERM_CTL_T_THROT = 100 ∧
    d.fget Reg.IMG_STATUS_STATE = 0 ∧ d.committed = false ∧ d.fget Reg.PWR_STATE_STATE = 0 ∧
    (∀ t, (d.tile t).phase = .idle) ∧ (∀ n, (d.slot n).loaded = false) ∧ (∀ n, n < 64 → d.linkState n = 0) ∧
    d.alive = false ∧ (∀ w : W32, exec (.fenceCmd w) s = .next s)

/-- What a store to device memory changes (R160, R170, R176, R185). a store leaves every place of memory as it was that is
not where a stored byte is served now (in an encrypted region: where a byte of its data unit is); in sound memory
outside encrypted regions each stored byte is then what its place holds; a store to a block whose final copy holds
writes changes no byte and waits with the move. -/
def Obligations.StoreFrame : Prop :=
  ∀ (d : Dev) (a : Nat) (bs : List Byte),
    let together (x y : Nat) : Prop := match d.cryptAt x with
      | some r => x >>> r.duShift = y >>> r.duShift
      | none => x = y
    (∀ p, (∀ i y st, i < bs.length → together (a + i) y → d.site (d.serve y) = some st → st.place ≠ p) →
      (d.memWrite a bs).mem.ram.read p = d.mem.ram.read p) ∧
    (d.holdingMove a = false → d.mem.bad = [] → (∀ i, i < bs.length → d.cryptAt (a + i) = none) →
      ∀ i st, i < bs.length → d.site (d.serve (a + i)) = some st →
        (∀ j y, j < bs.length → j ≠ i → d.site (d.serve (a + j)) = some y → y.place ≠ st.place) →
        (d.memWrite a bs).mem.ram.read st.place = bs.getD i 0) ∧
    (d.holdingMove a = true → (d.memWrite a bs).mem.ram = d.mem.ram)

/-- The IDCODE register of the TAP (R578). IDCODE shifts out 0xB64005CB from every state, whose four fields are the
version, the part, the manufacturer and 1. -/
def Obligations.TapIdcode : Prop :=
  ∀ s : State, ∃ w : W32,
    exec (.tapInstruction .idcode) s = .next (s.withDev ((s.dev.upPw (fun p => { p with tap := .idcode })).emit (.tapIdcode w))) ∧
    w = 0xB64005CB ∧ w.extractLsb' 28 4 = 0xB ∧ w.extractLsb' 12 16 = 0x6400 ∧ w.extractLsb' 1 11 = 0x2E5 ∧ w.getLsbD 0 = true

/-- The anti-rollback count (R491). a read of SEC_ROLLBACK answers the number of the 64 rollback fuses that are blown, and
the verification of an image whose signature holds refuses it exactly when its security version is below that number. -/
def Obligations.RollbackCount : Prop :=
  ∀ s : State,
    let d := s.dev
    let count := ((List.range 64).filter (fun i => d.tr.fuses.getLsbD i)).length
    (d.alive = true → exec (.rcRead 0 Reg.SEC_ROLLBACK 4) s = .next (s.withDev (d.emit (.regRead 0 Reg.SEC_ROLLBACK 4 (BitVec.ofNat 64 count))))) ∧
    (d.live = true → d.imgState = 2 → ∀ x, d.img.staged = some x →
      let b := x.bytes
      d.stageBad 0 4096 = false → d.stageBad (b.len - 7856) 7856 = false →
      let signed := imagePkOk && Config.slhVerify Config.imagePk (imgHeader b) (b.bytes (b.len - 7856) 7856)
      exec .imageVerifyDone s = .next (s.withDev
        (if signed = true then (if imgSecurity b < count then d.imgReject .authFail 8 0xFF else d.imgDone 3 .ok 0 0) else d.imgReject .authFail 7 0xFF)))
end

