-- ==== Sys2Proof/Laws/Containers.lean ====
section
/-! SUPPORT. The laws of sparse tables, memories and bit fields. -/
namespace Sys2Proof

/-! ## Tables -/

theorem tabFindL_insert_same {α : Type} (l : List (Nat × α)) (k : Nat) (a : α) : tabFindL (tabInsertL l k a) k = some a := by
  induction l with
  | nil => simp [tabInsertL, tabFindL]
  | cons p r ih =>
    obtain ⟨j, b⟩ := p
    by_cases h1 : k < j
    · simp [tabInsertL, tabFindL, h1]
    · by_cases h2 : j = k
      · simp [tabInsertL, tabFindL, h2]
      · simp [tabInsertL, tabFindL, h1, h2, ih]

theorem tabFindL_insert_other {α : Type} (l : List (Nat × α)) (k i : Nat) (a : α) (h : i ≠ k) :
    tabFindL (tabInsertL l k a) i = tabFindL l i := by
  induction l with
  | nil => simp [tabInsertL, tabFindL, Ne.symm h]
  | cons p r ih =>
    obtain ⟨j, b⟩ := p
    by_cases h1 : k < j
    · simp [tabInsertL, tabFindL, h1, Ne.symm h]
    · by_cases h2 : j = k
      · subst h2
        simp [tabInsertL, tabFindL, Ne.symm h]
      · simp [tabInsertL, tabFindL, h1, h2, ih]

theorem tabFindL_filter_other {α : Type} (l : List (Nat × α)) (k i : Nat) (h : i ≠ k) :
    tabFindL (l.filter (fun p => decide (p.1 ≠ k))) i = tabFindL l i := by
  induction l with
  | nil => rfl
  | cons p r ih =>
    obtain ⟨j, b⟩ := p
    by_cases h1 : j = k
    · subst h1
      simpa [tabFindL, Ne.symm h] using ih
    · simp only [List.filter, h1, ne_eq, not_false_eq_true, decide_true, tabFindL]
      split <;> [rfl; simpa using ih]

theorem tabFindL_filter_same {α : Type} (l : List (Nat × α)) (k : Nat) :
    tabFindL (l.filter (fun p => decide (p.1 ≠ k))) k = none := by
  induction l with
  | nil => rfl
  | cons p r ih =>
    obtain ⟨j, b⟩ := p
    by_cases h1 : j = k
    · subst h1
      simpa using ih
    · simp only [List.filter, h1, ne_eq, not_false_eq_true, decide_true, tabFindL, if_false]
      simpa using ih

@[simp] theorem Tab.find_set_same {α : Type} (t : Tab α) (k : Nat) (a : α) : (t.set k a).find k = some a :=
  tabFindL_insert_same _ _ _

theorem Tab.find_set_other {α : Type} (t : Tab α) (k i : Nat) (a : α) (h : i ≠ k) : (t.set k a).find i = t.find i :=
  tabFindL_insert_other _ _ _ _ h

@[simp] theorem Tab.get_set_same {α : Type} (t : Tab α) (d : α) (k : Nat) (a : α) : (t.set k a).get d k = a := by
  simp [Tab.get, Tab.set, tabFindL_insert_same]

theorem Tab.get_set_other {α : Type} (t : Tab α) (d : α) (k i : Nat) (a : α) (h : i ≠ k) : (t.set k a).get d i = t.get d i := by
  simp [Tab.get, Tab.set, tabFindL_insert_other _ _ _ _ h]

@[simp] theorem Tab.find_del_same {α : Type} (t : Tab α) (k : Nat) : (t.del k).find k = none := tabFindL_filter_same _ _

theorem Tab.find_del_other {α : Type} (t : Tab α) (k i : Nat) (h : i ≠ k) : (t.del k).find i = t.find i :=
  tabFindL_filter_other _ _ _ h

/-! ## Memories -/

@[simp] theorem Mem.read_write_same (m : Mem) (a : Nat) (b : Byte) : (m.write a b).read a = b := by
  unfold Mem.write Mem.read
  by_cases h : b = 0
  · simp only [h, if_true, tabFindL_filter_same]
    rfl
  · simp only [h, if_false, tabFindL_insert_same]
    rfl

theorem Mem.read_write_other (m : Mem) (a i : Nat) (b : Byte) (h : i ≠ a) : (m.write a b).read i = m.read i := by
  have e := tabFindL_filter_other m.cells a i h
  unfold Mem.write Mem.read
  by_cases hb : b = 0
  · simp only [hb, if_true, e]
  · simp only [hb, if_false, tabFindL_insert_other _ _ _ _ h, e]

/-- Addresses strictly rise from an address on. -/
theorem cellsSorted_iff (l : List Host.Cell) : cellsSorted l = true ↔ l.Pairwise (fun p q => p.1 < q.1) := by
  induction l with
  | nil => simp [cellsSorted]
  | cons p r ih =>
    cases r with
    | nil => simp [cellsSorted]
    | cons q r =>
      simp only [cellsSorted, Bool.and_eq_true, decide_eq_true_eq, ih]
      constructor
      · rintro ⟨h, hp⟩
        refine List.pairwise_cons.2 ⟨fun x hx => ?_, hp⟩
        rcases List.mem_cons.1 hx with rfl | hx
        · exact h
        · exact lt_trans h ((List.pairwise_cons.1 hp).1 x hx)
      · intro hp
        exact ⟨(List.pairwise_cons.1 hp).1 q (by simp), (List.pairwise_cons.1 hp).2⟩

theorem mem_tabInsertL {α : Type} (l : List (Nat × α)) (k : Nat) (a : α) (x : Nat × α) (hx : x ∈ tabInsertL l k a) :
    x = (k, a) ∨ x ∈ l := by
  induction l with
  | nil => simpa [tabInsertL] using hx
  | cons p r ih =>
    obtain ⟨j, b⟩ := p
    unfold tabInsertL at hx
    split at hx
    · simpa using hx
    · split at hx
      · rcases List.mem_cons.1 hx with h | h
        · exact Or.inl h
        · exact Or.inr (List.mem_cons_of_mem _ h)
      · rcases List.mem_cons.1 hx with h | h
        · exact Or.inr (by simp [h])
        · rcases ih h with h | h
          · exact Or.inl h
          · exact Or.inr (List.mem_cons_of_mem _ h)

theorem pairwise_tabInsertL {α : Type} (l : List (Nat × α)) (k : Nat) (a : α) (h : l.Pairwise (fun p q => p.1 < q.1)) :
    (tabInsertL l k a).Pairwise (fun p q => p.1 < q.1) := by
  induction l with
  | nil => simp [tabInsertL]
  | cons p r ih =>
    obtain ⟨j, b⟩ := p
    obtain ⟨h1, h2⟩ := List.pairwise_cons.1 h
    unfold tabInsertL
    split
    · rename_i hk
      refine List.pairwise_cons.2 ⟨fun x hx => ?_, h⟩
      rcases List.mem_cons.1 hx with rfl | hx
      · exact hk
      · exact lt_trans hk (h1 x hx)
    · split
      · rename_i hk
        subst hk
        exact List.pairwise_cons.2 ⟨h1, h2⟩
      · refine List.pairwise_cons.2 ⟨fun x hx => ?_, ih h2⟩
        rcases mem_tabInsertL _ _ _ _ hx with rfl | hx
        · simp only; omega
        · exact h1 x hx

/-- The canonical form, as propositions. -/
theorem Mem.wf_iff (m : Mem) : m.wf = true ↔ m.cells.Pairwise (fun p q => p.1 < q.1) ∧ ∀ p ∈ m.cells, p.2 ≠ 0 := by
  simp [Mem.wf, cellsSorted_iff]

theorem Mem.empty_wf : Mem.empty.wf = true := by decide

/-- Storing a byte keeps the canonical form. -/
theorem Mem.write_wf (m : Mem) (a : Nat) (b : Byte) (h : m.wf = true) : (m.write a b).wf = true := by
  rw [Mem.wf_iff] at h ⊢
  have hf : (m.cells.filter (fun p => decide (p.1 ≠ a))).Pairwise (fun p q => p.1 < q.1) := h.1.filter _
  have hz : ∀ p ∈ m.cells.filter (fun p => decide (p.1 ≠ a)), p.2 ≠ 0 := fun p hp => h.2 p (List.mem_filter.1 hp).1
  unfold Mem.write
  by_cases hb : b = 0
  · simp only [hb, if_true]
    exact ⟨hf, hz⟩
  · simp only [hb, if_false]
    refine ⟨pairwise_tabInsertL _ _ _ hf, fun p hp => ?_⟩
    rcases mem_tabInsertL _ _ _ _ hp with rfl | hp
    · exact hb
    · exact hz p hp

/-- Storing bytes keeps the canonical form. -/
theorem Mem.writeN_wf (m : Mem) (a : Nat) (l : List Byte) (h : m.wf = true) : (m.writeN a l).wf = true := by
  induction l generalizing m a with
  | nil => exact h
  | cons b r ih => exact ih _ _ (Mem.write_wf m a b h)

/-- Clearing a range keeps the canonical form. -/
theorem Mem.clear_wf (m : Mem) (a n : Nat) (h : m.wf = true) : (m.clear a n).wf = true := by
  rw [Mem.wf_iff] at h ⊢
  exact ⟨h.1.filter _, fun p hp => h.2 p (List.mem_filter.1 hp).1⟩

/-- Storing a number keeps the canonical form. -/
theorem Mem.writeLE_wf (m : Mem) (a n x : Nat) (h : m.wf = true) : (m.writeLE a n x).wf = true := Mem.writeN_wf _ _ _ h

/-- Copying a range keeps the canonical form. -/
theorem Mem.copyFrom_wf (t f : Mem) (src dst n : Nat) (h : t.wf = true) : (t.copyFrom f src dst n).wf = true :=
  Mem.writeN_wf _ _ _ h

/-- Storing bytes leaves every address outside them alone. -/
theorem Mem.read_writeN_other (m : Mem) (a i : Nat) (l : List Byte) (h : i < a ∨ a + l.length ≤ i) :
    (m.writeN a l).read i = m.read i := by
  induction l generalizing m a with
  | nil => rfl
  | cons b r ih =>
    simp only [List.length_cons] at h
    rw [Mem.writeN, ih _ _ (by omega), Mem.read_write_other _ _ _ _ (by omega)]

/-! ## Bit fields -/

/-- Setting a field of a word gives it the value, cut to its width. -/
theorem bvFld_bvSet_same {n : Nat} (x : BitVec n) (lo w v : Nat) (h : lo + w ≤ n) : bvFld (bvSet x lo w v) lo w = v % 2 ^ w := by
  have hx := x.isLt
  have h2 : 2 ^ n = 2 ^ lo * 2 ^ w * 2 ^ (n - (lo + w)) := by rw [← pow_add, ← pow_add]; congr 1; omega
  have h3 : x.toNat / 2 ^ (lo + w) < 2 ^ (n - (lo + w)) := by
    apply Nat.div_lt_of_lt_mul
    rw [← pow_add]
    convert hx using 2
    omega
  have hlo : x.toNat % 2 ^ lo < 2 ^ lo := Nat.mod_lt _ (by positivity)
  have hv : v % 2 ^ w < 2 ^ w := Nat.mod_lt _ (by positivity)
  unfold bvFld bvSet setFld
  simp only [BitVec.toNat_ofNat, Nat.shiftRight_eq_div_pow]
  have e : x.toNat % 2 ^ lo + v % 2 ^ w * 2 ^ lo + x.toNat / 2 ^ (lo + w) * 2 ^ (lo + w) =
      x.toNat % 2 ^ lo + 2 ^ lo * (v % 2 ^ w + 2 ^ w * (x.toNat / 2 ^ (lo + w))) := by
    rw [pow_add]; ring
  have hlt : x.toNat % 2 ^ lo + 2 ^ lo * (v % 2 ^ w + 2 ^ w * (x.toNat / 2 ^ (lo + w))) < 2 ^ n := by
    have a1 : v % 2 ^ w + 2 ^ w * (x.toNat / 2 ^ (lo + w)) + 1 ≤ 2 ^ w * 2 ^ (n - (lo + w)) := by
      calc v % 2 ^ w + 2 ^ w * (x.toNat / 2 ^ (lo + w)) + 1
          ≤ 2 ^ w + 2 ^ w * (x.toNat / 2 ^ (lo + w)) := by omega
        _ = 2 ^ w * (x.toNat / 2 ^ (lo + w) + 1) := by ring
        _ ≤ _ := Nat.mul_le_mul_left _ h3
    calc _ < 2 ^ lo + 2 ^ lo * (v % 2 ^ w + 2 ^ w * (x.toNat / 2 ^ (lo + w))) := by omega
      _ = 2 ^ lo * (v % 2 ^ w + 2 ^ w * (x.toNat / 2 ^ (lo + w)) + 1) := by ring
      _ ≤ 2 ^ lo * (2 ^ w * 2 ^ (n - (lo + w))) := Nat.mul_le_mul_left _ a1
      _ = 2 ^ n := by rw [h2]; ring
  rw [e, Nat.mod_eq_of_lt hlt, Nat.add_mul_div_left _ _ (by positivity), Nat.div_eq_of_lt hlo, Nat.zero_add, Nat.add_mul_mod_self_left,
    Nat.mod_eq_of_lt hv]

/-- A bit of a word after a field is set. -/
theorem getLsbD_bvSet {n : Nat} (x : BitVec n) (lo w v i : Nat) (h : i < n) :
    (bvSet x lo w v).getLsbD i = if lo ≤ i ∧ i < lo + w then v.testBit (i - lo) else x.getLsbD i := by
  have e : setFld x.toNat lo w v = x.toNat % 2 ^ lo + 2 ^ lo * (v % 2 ^ w + 2 ^ w * (x.toNat >>> (lo + w))) := by
    unfold setFld
    rw [pow_add]; ring
  unfold bvSet
  rw [e]
  simp only [BitVec.getLsbD_ofNat, h, decide_true, Bool.true_and]
  rw [Nat.add_comm, Nat.testBit_two_pow_mul_add _ (Nat.mod_lt _ (by positivity))]
  by_cases h1 : i < lo
  · simp [h1, Nat.not_le.2 h1, Nat.testBit_mod_two_pow, BitVec.getLsbD]
  · rw [if_neg h1, Nat.add_comm (v % 2 ^ w), Nat.testBit_two_pow_mul_add _ (Nat.mod_lt _ (by positivity))]
    by_cases h2 : i < lo + w
    · have : i - lo < w := by omega
      simp [this, Nat.not_lt.1 h1, h2, Nat.testBit_mod_two_pow]
    · have h3 : ¬ i - lo < w := by omega
      simp only [h3, if_false, h2, and_false, Nat.testBit_shiftRight, BitVec.getLsbD]
      congr 1; omega

/-- Setting a field leaves a field of other bits alone. -/
theorem bvFld_bvSet_disjoint {n : Nat} (x : BitVec n) (lo w v lo' w' : Nat) (h : lo' + w' ≤ n) (hd : lo' + w' ≤ lo ∨ lo + w ≤ lo') :
    bvFld (bvSet x lo w v) lo' w' = bvFld x lo' w' := by
  unfold bvFld
  apply Nat.eq_of_testBit_eq
  intro i
  simp only [Nat.testBit_mod_two_pow, Nat.testBit_shiftRight]
  by_cases hi : i < w'
  · have e := getLsbD_bvSet x lo w v (lo' + i) (by omega)
    rw [if_neg (by omega)] at e
    simpa [hi, BitVec.getLsbD] using e
  · simp [hi]

end Sys2Proof
end

