-- ==== Sys2Proof/Laws/State.lean ====
section
/-! SUPPORT. What each update of the block leaves alone: one lemma for each field and update, true by definition. -/
namespace Sys2Proof.Machine
open Sys2Proof

/-! ## `reg` -/

@[simp] theorem Dev.upReg_out (d : Dev) (f : RegFile → RegFile) : (d.upReg f).out = d.out := rfl
@[simp] theorem Dev.upReg_fresh (d : Dev) (f : RegFile → RegFile) : (d.upReg f).fresh = d.fresh := rfl
@[simp] theorem Dev.upReg_reg (d : Dev) (f : RegFile → RegFile) : (d.upReg f).reg = f d.reg := rfl
@[simp] theorem Dev.upReg_img (d : Dev) (f : RegFile → RegFile) : (d.upReg f).img = d.img := rfl
@[simp] theorem Dev.upReg_tl (d : Dev) (f : RegFile → RegFile) : (d.upReg f).tl = d.tl := rfl
@[simp] theorem Dev.upReg_mem (d : Dev) (f : RegFile → RegFile) : (d.upReg f).mem = d.mem := rfl
@[simp] theorem Dev.upReg_cad (d : Dev) (f : RegFile → RegFile) : (d.upReg f).cad = d.cad := rfl
@[simp] theorem Dev.upReg_ev (d : Dev) (f : RegFile → RegFile) : (d.upReg f).ev = d.ev := rfl
@[simp] theorem Dev.upReg_dtu (d : Dev) (f : RegFile → RegFile) : (d.upReg f).dtu = d.dtu := rfl
@[simp] theorem Dev.upReg_pw (d : Dev) (f : RegFile → RegFile) : (d.upReg f).pw = d.pw := rfl
@[simp] theorem Dev.upReg_bst (d : Dev) (f : RegFile → RegFile) : (d.upReg f).bst = d.bst := rfl
@[simp] theorem Dev.upReg_hif (d : Dev) (f : RegFile → RegFile) : (d.upReg f).hif = d.hif := rfl
@[simp] theorem Dev.upReg_wq (d : Dev) (f : RegFile → RegFile) : (d.upReg f).wq = d.wq := rfl
@[simp] theorem Dev.upReg_ras (d : Dev) (f : RegFile → RegFile) : (d.upReg f).ras = d.ras := rfl
@[simp] theorem Dev.upReg_mg (d : Dev) (f : RegFile → RegFile) : (d.upReg f).mg = d.mg := rfl
@[simp] theorem Dev.upReg_onf (d : Dev) (f : RegFile → RegFile) : (d.upReg f).onf = d.onf := rfl
@[simp] theorem Dev.upReg_xdu (d : Dev) (f : RegFile → RegFile) : (d.upReg f).xdu = d.xdu := rfl
@[simp] theorem Dev.upReg_clk (d : Dev) (f : RegFile → RegFile) : (d.upReg f).clk = d.clk := rfl
@[simp] theorem Dev.upReg_eth (d : Dev) (f : RegFile → RegFile) : (d.upReg f).eth = d.eth := rfl
@[simp] theorem Dev.upReg_txs (d : Dev) (f : RegFile → RegFile) : (d.upReg f).txs = d.txs := rfl
@[simp] theorem Dev.upReg_qpe (d : Dev) (f : RegFile → RegFile) : (d.upReg f).qpe = d.qpe := rfl
@[simp] theorem Dev.upReg_smv (d : Dev) (f : RegFile → RegFile) : (d.upReg f).smv = d.smv := rfl
@[simp] theorem Dev.upReg_tr (d : Dev) (f : RegFile → RegFile) : (d.upReg f).tr = d.tr := rfl
@[simp] theorem Dev.upReg_vf (d : Dev) (f : RegFile → RegFile) : (d.upReg f).vf = d.vf := rfl

/-! ## `img` -/

@[simp] theorem Dev.upImg_out (d : Dev) (f : Img → Img) : (d.upImg f).out = d.out := rfl
@[simp] theorem Dev.upImg_fresh (d : Dev) (f : Img → Img) : (d.upImg f).fresh = d.fresh := rfl
@[simp] theorem Dev.upImg_reg (d : Dev) (f : Img → Img) : (d.upImg f).reg = d.reg := rfl
@[simp] theorem Dev.upImg_img (d : Dev) (f : Img → Img) : (d.upImg f).img = f d.img := rfl
@[simp] theorem Dev.upImg_tl (d : Dev) (f : Img → Img) : (d.upImg f).tl = d.tl := rfl
@[simp] theorem Dev.upImg_mem (d : Dev) (f : Img → Img) : (d.upImg f).mem = d.mem := rfl
@[simp] theorem Dev.upImg_cad (d : Dev) (f : Img → Img) : (d.upImg f).cad = d.cad := rfl
@[simp] theorem Dev.upImg_ev (d : Dev) (f : Img → Img) : (d.upImg f).ev = d.ev := rfl
@[simp] theorem Dev.upImg_dtu (d : Dev) (f : Img → Img) : (d.upImg f).dtu = d.dtu := rfl
@[simp] theorem Dev.upImg_pw (d : Dev) (f : Img → Img) : (d.upImg f).pw = d.pw := rfl
@[simp] theorem Dev.upImg_bst (d : Dev) (f : Img → Img) : (d.upImg f).bst = d.bst := rfl
@[simp] theorem Dev.upImg_hif (d : Dev) (f : Img → Img) : (d.upImg f).hif = d.hif := rfl
@[simp] theorem Dev.upImg_wq (d : Dev) (f : Img → Img) : (d.upImg f).wq = d.wq := rfl
@[simp] theorem Dev.upImg_ras (d : Dev) (f : Img → Img) : (d.upImg f).ras = d.ras := rfl
@[simp] theorem Dev.upImg_mg (d : Dev) (f : Img → Img) : (d.upImg f).mg = d.mg := rfl
@[simp] theorem Dev.upImg_onf (d : Dev) (f : Img → Img) : (d.upImg f).onf = d.onf := rfl
@[simp] theorem Dev.upImg_xdu (d : Dev) (f : Img → Img) : (d.upImg f).xdu = d.xdu := rfl
@[simp] theorem Dev.upImg_clk (d : Dev) (f : Img → Img) : (d.upImg f).clk = d.clk := rfl
@[simp] theorem Dev.upImg_eth (d : Dev) (f : Img → Img) : (d.upImg f).eth = d.eth := rfl
@[simp] theorem Dev.upImg_txs (d : Dev) (f : Img → Img) : (d.upImg f).txs = d.txs := rfl
@[simp] theorem Dev.upImg_qpe (d : Dev) (f : Img → Img) : (d.upImg f).qpe = d.qpe := rfl
@[simp] theorem Dev.upImg_smv (d : Dev) (f : Img → Img) : (d.upImg f).smv = d.smv := rfl
@[simp] theorem Dev.upImg_tr (d : Dev) (f : Img → Img) : (d.upImg f).tr = d.tr := rfl
@[simp] theorem Dev.upImg_vf (d : Dev) (f : Img → Img) : (d.upImg f).vf = d.vf := rfl

/-! ## `tl` -/

@[simp] theorem Dev.upTl_out (d : Dev) (f : Tiles → Tiles) : (d.upTl f).out = d.out := rfl
@[simp] theorem Dev.upTl_fresh (d : Dev) (f : Tiles → Tiles) : (d.upTl f).fresh = d.fresh := rfl
@[simp] theorem Dev.upTl_reg (d : Dev) (f : Tiles → Tiles) : (d.upTl f).reg = d.reg := rfl
@[simp] theorem Dev.upTl_img (d : Dev) (f : Tiles → Tiles) : (d.upTl f).img = d.img := rfl
@[simp] theorem Dev.upTl_tl (d : Dev) (f : Tiles → Tiles) : (d.upTl f).tl = f d.tl := rfl
@[simp] theorem Dev.upTl_mem (d : Dev) (f : Tiles → Tiles) : (d.upTl f).mem = d.mem := rfl
@[simp] theorem Dev.upTl_cad (d : Dev) (f : Tiles → Tiles) : (d.upTl f).cad = d.cad := rfl
@[simp] theorem Dev.upTl_ev (d : Dev) (f : Tiles → Tiles) : (d.upTl f).ev = d.ev := rfl
@[simp] theorem Dev.upTl_dtu (d : Dev) (f : Tiles → Tiles) : (d.upTl f).dtu = d.dtu := rfl
@[simp] theorem Dev.upTl_pw (d : Dev) (f : Tiles → Tiles) : (d.upTl f).pw = d.pw := rfl
@[simp] theorem Dev.upTl_bst (d : Dev) (f : Tiles → Tiles) : (d.upTl f).bst = d.bst := rfl
@[simp] theorem Dev.upTl_hif (d : Dev) (f : Tiles → Tiles) : (d.upTl f).hif = d.hif := rfl
@[simp] theorem Dev.upTl_wq (d : Dev) (f : Tiles → Tiles) : (d.upTl f).wq = d.wq := rfl
@[simp] theorem Dev.upTl_ras (d : Dev) (f : Tiles → Tiles) : (d.upTl f).ras = d.ras := rfl
@[simp] theorem Dev.upTl_mg (d : Dev) (f : Tiles → Tiles) : (d.upTl f).mg = d.mg := rfl
@[simp] theorem Dev.upTl_onf (d : Dev) (f : Tiles → Tiles) : (d.upTl f).onf = d.onf := rfl
@[simp] theorem Dev.upTl_xdu (d : Dev) (f : Tiles → Tiles) : (d.upTl f).xdu = d.xdu := rfl
@[simp] theorem Dev.upTl_clk (d : Dev) (f : Tiles → Tiles) : (d.upTl f).clk = d.clk := rfl
@[simp] theorem Dev.upTl_eth (d : Dev) (f : Tiles → Tiles) : (d.upTl f).eth = d.eth := rfl
@[simp] theorem Dev.upTl_txs (d : Dev) (f : Tiles → Tiles) : (d.upTl f).txs = d.txs := rfl
@[simp] theorem Dev.upTl_qpe (d : Dev) (f : Tiles → Tiles) : (d.upTl f).qpe = d.qpe := rfl
@[simp] theorem Dev.upTl_smv (d : Dev) (f : Tiles → Tiles) : (d.upTl f).smv = d.smv := rfl
@[simp] theorem Dev.upTl_tr (d : Dev) (f : Tiles → Tiles) : (d.upTl f).tr = d.tr := rfl
@[simp] theorem Dev.upTl_vf (d : Dev) (f : Tiles → Tiles) : (d.upTl f).vf = d.vf := rfl

/-! ## `mem` -/

@[simp] theorem Dev.upMem_out (d : Dev) (f : MemSt → MemSt) : (d.upMem f).out = d.out := rfl
@[simp] theorem Dev.upMem_fresh (d : Dev) (f : MemSt → MemSt) : (d.upMem f).fresh = d.fresh := rfl
@[simp] theorem Dev.upMem_reg (d : Dev) (f : MemSt → MemSt) : (d.upMem f).reg = d.reg := rfl
@[simp] theorem Dev.upMem_img (d : Dev) (f : MemSt → MemSt) : (d.upMem f).img = d.img := rfl
@[simp] theorem Dev.upMem_tl (d : Dev) (f : MemSt → MemSt) : (d.upMem f).tl = d.tl := rfl
@[simp] theorem Dev.upMem_mem (d : Dev) (f : MemSt → MemSt) : (d.upMem f).mem = f d.mem := rfl
@[simp] theorem Dev.upMem_cad (d : Dev) (f : MemSt → MemSt) : (d.upMem f).cad = d.cad := rfl
@[simp] theorem Dev.upMem_ev (d : Dev) (f : MemSt → MemSt) : (d.upMem f).ev = d.ev := rfl
@[simp] theorem Dev.upMem_dtu (d : Dev) (f : MemSt → MemSt) : (d.upMem f).dtu = d.dtu := rfl
@[simp] theorem Dev.upMem_pw (d : Dev) (f : MemSt → MemSt) : (d.upMem f).pw = d.pw := rfl
@[simp] theorem Dev.upMem_bst (d : Dev) (f : MemSt → MemSt) : (d.upMem f).bst = d.bst := rfl
@[simp] theorem Dev.upMem_hif (d : Dev) (f : MemSt → MemSt) : (d.upMem f).hif = d.hif := rfl
@[simp] theorem Dev.upMem_wq (d : Dev) (f : MemSt → MemSt) : (d.upMem f).wq = d.wq := rfl
@[simp] theorem Dev.upMem_ras (d : Dev) (f : MemSt → MemSt) : (d.upMem f).ras = d.ras := rfl
@[simp] theorem Dev.upMem_mg (d : Dev) (f : MemSt → MemSt) : (d.upMem f).mg = d.mg := rfl
@[simp] theorem Dev.upMem_onf (d : Dev) (f : MemSt → MemSt) : (d.upMem f).onf = d.onf := rfl
@[simp] theorem Dev.upMem_xdu (d : Dev) (f : MemSt → MemSt) : (d.upMem f).xdu = d.xdu := rfl
@[simp] theorem Dev.upMem_clk (d : Dev) (f : MemSt → MemSt) : (d.upMem f).clk = d.clk := rfl
@[simp] theorem Dev.upMem_eth (d : Dev) (f : MemSt → MemSt) : (d.upMem f).eth = d.eth := rfl
@[simp] theorem Dev.upMem_txs (d : Dev) (f : MemSt → MemSt) : (d.upMem f).txs = d.txs := rfl
@[simp] theorem Dev.upMem_qpe (d : Dev) (f : MemSt → MemSt) : (d.upMem f).qpe = d.qpe := rfl
@[simp] theorem Dev.upMem_smv (d : Dev) (f : MemSt → MemSt) : (d.upMem f).smv = d.smv := rfl
@[simp] theorem Dev.upMem_tr (d : Dev) (f : MemSt → MemSt) : (d.upMem f).tr = d.tr := rfl
@[simp] theorem Dev.upMem_vf (d : Dev) (f : MemSt → MemSt) : (d.upMem f).vf = d.vf := rfl

/-! ## `cad` -/

@[simp] theorem Dev.upCad_out (d : Dev) (f : Cad → Cad) : (d.upCad f).out = d.out := rfl
@[simp] theorem Dev.upCad_fresh (d : Dev) (f : Cad → Cad) : (d.upCad f).fresh = d.fresh := rfl
@[simp] theorem Dev.upCad_reg (d : Dev) (f : Cad → Cad) : (d.upCad f).reg = d.reg := rfl
@[simp] theorem Dev.upCad_img (d : Dev) (f : Cad → Cad) : (d.upCad f).img = d.img := rfl
@[simp] theorem Dev.upCad_tl (d : Dev) (f : Cad → Cad) : (d.upCad f).tl = d.tl := rfl
@[simp] theorem Dev.upCad_mem (d : Dev) (f : Cad → Cad) : (d.upCad f).mem = d.mem := rfl
@[simp] theorem Dev.upCad_cad (d : Dev) (f : Cad → Cad) : (d.upCad f).cad = f d.cad := rfl
@[simp] theorem Dev.upCad_ev (d : Dev) (f : Cad → Cad) : (d.upCad f).ev = d.ev := rfl
@[simp] theorem Dev.upCad_dtu (d : Dev) (f : Cad → Cad) : (d.upCad f).dtu = d.dtu := rfl
@[simp] theorem Dev.upCad_pw (d : Dev) (f : Cad → Cad) : (d.upCad f).pw = d.pw := rfl
@[simp] theorem Dev.upCad_bst (d : Dev) (f : Cad → Cad) : (d.upCad f).bst = d.bst := rfl
@[simp] theorem Dev.upCad_hif (d : Dev) (f : Cad → Cad) : (d.upCad f).hif = d.hif := rfl
@[simp] theorem Dev.upCad_wq (d : Dev) (f : Cad → Cad) : (d.upCad f).wq = d.wq := rfl
@[simp] theorem Dev.upCad_ras (d : Dev) (f : Cad → Cad) : (d.upCad f).ras = d.ras := rfl
@[simp] theorem Dev.upCad_mg (d : Dev) (f : Cad → Cad) : (d.upCad f).mg = d.mg := rfl
@[simp] theorem Dev.upCad_onf (d : Dev) (f : Cad → Cad) : (d.upCad f).onf = d.onf := rfl
@[simp] theorem Dev.upCad_xdu (d : Dev) (f : Cad → Cad) : (d.upCad f).xdu = d.xdu := rfl
@[simp] theorem Dev.upCad_clk (d : Dev) (f : Cad → Cad) : (d.upCad f).clk = d.clk := rfl
@[simp] theorem Dev.upCad_eth (d : Dev) (f : Cad → Cad) : (d.upCad f).eth = d.eth := rfl
@[simp] theorem Dev.upCad_txs (d : Dev) (f : Cad → Cad) : (d.upCad f).txs = d.txs := rfl
@[simp] theorem Dev.upCad_qpe (d : Dev) (f : Cad → Cad) : (d.upCad f).qpe = d.qpe := rfl
@[simp] theorem Dev.upCad_smv (d : Dev) (f : Cad → Cad) : (d.upCad f).smv = d.smv := rfl
@[simp] theorem Dev.upCad_tr (d : Dev) (f : Cad → Cad) : (d.upCad f).tr = d.tr := rfl
@[simp] theorem Dev.upCad_vf (d : Dev) (f : Cad → Cad) : (d.upCad f).vf = d.vf := rfl

/-! ## `ev` -/

@[simp] theorem Dev.upEv_out (d : Dev) (f : Events → Events) : (d.upEv f).out = d.out := rfl
@[simp] theorem Dev.upEv_fresh (d : Dev) (f : Events → Events) : (d.upEv f).fresh = d.fresh := rfl
@[simp] theorem Dev.upEv_reg (d : Dev) (f : Events → Events) : (d.upEv f).reg = d.reg := rfl
@[simp] theorem Dev.upEv_img (d : Dev) (f : Events → Events) : (d.upEv f).img = d.img := rfl
@[simp] theorem Dev.upEv_tl (d : Dev) (f : Events → Events) : (d.upEv f).tl = d.tl := rfl
@[simp] theorem Dev.upEv_mem (d : Dev) (f : Events → Events) : (d.upEv f).mem = d.mem := rfl
@[simp] theorem Dev.upEv_cad (d : Dev) (f : Events → Events) : (d.upEv f).cad = d.cad := rfl
@[simp] theorem Dev.upEv_ev (d : Dev) (f : Events → Events) : (d.upEv f).ev = f d.ev := rfl
@[simp] theorem Dev.upEv_dtu (d : Dev) (f : Events → Events) : (d.upEv f).dtu = d.dtu := rfl
@[simp] theorem Dev.upEv_pw (d : Dev) (f : Events → Events) : (d.upEv f).pw = d.pw := rfl
@[simp] theorem Dev.upEv_bst (d : Dev) (f : Events → Events) : (d.upEv f).bst = d.bst := rfl
@[simp] theorem Dev.upEv_hif (d : Dev) (f : Events → Events) : (d.upEv f).hif = d.hif := rfl
@[simp] theorem Dev.upEv_wq (d : Dev) (f : Events → Events) : (d.upEv f).wq = d.wq := rfl
@[simp] theorem Dev.upEv_ras (d : Dev) (f : Events → Events) : (d.upEv f).ras = d.ras := rfl
@[simp] theorem Dev.upEv_mg (d : Dev) (f : Events → Events) : (d.upEv f).mg = d.mg := rfl
@[simp] theorem Dev.upEv_onf (d : Dev) (f : Events → Events) : (d.upEv f).onf = d.onf := rfl
@[simp] theorem Dev.upEv_xdu (d : Dev) (f : Events → Events) : (d.upEv f).xdu = d.xdu := rfl
@[simp] theorem Dev.upEv_clk (d : Dev) (f : Events → Events) : (d.upEv f).clk = d.clk := rfl
@[simp] theorem Dev.upEv_eth (d : Dev) (f : Events → Events) : (d.upEv f).eth = d.eth := rfl
@[simp] theorem Dev.upEv_txs (d : Dev) (f : Events → Events) : (d.upEv f).txs = d.txs := rfl
@[simp] theorem Dev.upEv_qpe (d : Dev) (f : Events → Events) : (d.upEv f).qpe = d.qpe := rfl
@[simp] theorem Dev.upEv_smv (d : Dev) (f : Events → Events) : (d.upEv f).smv = d.smv := rfl
@[simp] theorem Dev.upEv_tr (d : Dev) (f : Events → Events) : (d.upEv f).tr = d.tr := rfl
@[simp] theorem Dev.upEv_vf (d : Dev) (f : Events → Events) : (d.upEv f).vf = d.vf := rfl

/-! ## `dtu` -/

@[simp] theorem Dev.upDtu_out (d : Dev) (f : Dtu → Dtu) : (d.upDtu f).out = d.out := rfl
@[simp] theorem Dev.upDtu_fresh (d : Dev) (f : Dtu → Dtu) : (d.upDtu f).fresh = d.fresh := rfl
@[simp] theorem Dev.upDtu_reg (d : Dev) (f : Dtu → Dtu) : (d.upDtu f).reg = d.reg := rfl
@[simp] theorem Dev.upDtu_img (d : Dev) (f : Dtu → Dtu) : (d.upDtu f).img = d.img := rfl
@[simp] theorem Dev.upDtu_tl (d : Dev) (f : Dtu → Dtu) : (d.upDtu f).tl = d.tl := rfl
@[simp] theorem Dev.upDtu_mem (d : Dev) (f : Dtu → Dtu) : (d.upDtu f).mem = d.mem := rfl
@[simp] theorem Dev.upDtu_cad (d : Dev) (f : Dtu → Dtu) : (d.upDtu f).cad = d.cad := rfl
@[simp] theorem Dev.upDtu_ev (d : Dev) (f : Dtu → Dtu) : (d.upDtu f).ev = d.ev := rfl
@[simp] theorem Dev.upDtu_dtu (d : Dev) (f : Dtu → Dtu) : (d.upDtu f).dtu = f d.dtu := rfl
@[simp] theorem Dev.upDtu_pw (d : Dev) (f : Dtu → Dtu) : (d.upDtu f).pw = d.pw := rfl
@[simp] theorem Dev.upDtu_bst (d : Dev) (f : Dtu → Dtu) : (d.upDtu f).bst = d.bst := rfl
@[simp] theorem Dev.upDtu_hif (d : Dev) (f : Dtu → Dtu) : (d.upDtu f).hif = d.hif := rfl
@[simp] theorem Dev.upDtu_wq (d : Dev) (f : Dtu → Dtu) : (d.upDtu f).wq = d.wq := rfl
@[simp] theorem Dev.upDtu_ras (d : Dev) (f : Dtu → Dtu) : (d.upDtu f).ras = d.ras := rfl
@[simp] theorem Dev.upDtu_mg (d : Dev) (f : Dtu → Dtu) : (d.upDtu f).mg = d.mg := rfl
@[simp] theorem Dev.upDtu_onf (d : Dev) (f : Dtu → Dtu) : (d.upDtu f).onf = d.onf := rfl
@[simp] theorem Dev.upDtu_xdu (d : Dev) (f : Dtu → Dtu) : (d.upDtu f).xdu = d.xdu := rfl
@[simp] theorem Dev.upDtu_clk (d : Dev) (f : Dtu → Dtu) : (d.upDtu f).clk = d.clk := rfl
@[simp] theorem Dev.upDtu_eth (d : Dev) (f : Dtu → Dtu) : (d.upDtu f).eth = d.eth := rfl
@[simp] theorem Dev.upDtu_txs (d : Dev) (f : Dtu → Dtu) : (d.upDtu f).txs = d.txs := rfl
@[simp] theorem Dev.upDtu_qpe (d : Dev) (f : Dtu → Dtu) : (d.upDtu f).qpe = d.qpe := rfl
@[simp] theorem Dev.upDtu_smv (d : Dev) (f : Dtu → Dtu) : (d.upDtu f).smv = d.smv := rfl
@[simp] theorem Dev.upDtu_tr (d : Dev) (f : Dtu → Dtu) : (d.upDtu f).tr = d.tr := rfl
@[simp] theorem Dev.upDtu_vf (d : Dev) (f : Dtu → Dtu) : (d.upDtu f).vf = d.vf := rfl

/-! ## `pw` -/

@[simp] theorem Dev.upPw_out (d : Dev) (f : Power → Power) : (d.upPw f).out = d.out := rfl
@[simp] theorem Dev.upPw_fresh (d : Dev) (f : Power → Power) : (d.upPw f).fresh = d.fresh := rfl
@[simp] theorem Dev.upPw_reg (d : Dev) (f : Power → Power) : (d.upPw f).reg = d.reg := rfl
@[simp] theorem Dev.upPw_img (d : Dev) (f : Power → Power) : (d.upPw f).img = d.img := rfl
@[simp] theorem Dev.upPw_tl (d : Dev) (f : Power → Power) : (d.upPw f).tl = d.tl := rfl
@[simp] theorem Dev.upPw_mem (d : Dev) (f : Power → Power) : (d.upPw f).mem = d.mem := rfl
@[simp] theorem Dev.upPw_cad (d : Dev) (f : Power → Power) : (d.upPw f).cad = d.cad := rfl
@[simp] theorem Dev.upPw_ev (d : Dev) (f : Power → Power) : (d.upPw f).ev = d.ev := rfl
@[simp] theorem Dev.upPw_dtu (d : Dev) (f : Power → Power) : (d.upPw f).dtu = d.dtu := rfl
@[simp] theorem Dev.upPw_pw (d : Dev) (f : Power → Power) : (d.upPw f).pw = f d.pw := rfl
@[simp] theorem Dev.upPw_bst (d : Dev) (f : Power → Power) : (d.upPw f).bst = d.bst := rfl
@[simp] theorem Dev.upPw_hif (d : Dev) (f : Power → Power) : (d.upPw f).hif = d.hif := rfl
@[simp] theorem Dev.upPw_wq (d : Dev) (f : Power → Power) : (d.upPw f).wq = d.wq := rfl
@[simp] theorem Dev.upPw_ras (d : Dev) (f : Power → Power) : (d.upPw f).ras = d.ras := rfl
@[simp] theorem Dev.upPw_mg (d : Dev) (f : Power → Power) : (d.upPw f).mg = d.mg := rfl
@[simp] theorem Dev.upPw_onf (d : Dev) (f : Power → Power) : (d.upPw f).onf = d.onf := rfl
@[simp] theorem Dev.upPw_xdu (d : Dev) (f : Power → Power) : (d.upPw f).xdu = d.xdu := rfl
@[simp] theorem Dev.upPw_clk (d : Dev) (f : Power → Power) : (d.upPw f).clk = d.clk := rfl
@[simp] theorem Dev.upPw_eth (d : Dev) (f : Power → Power) : (d.upPw f).eth = d.eth := rfl
@[simp] theorem Dev.upPw_txs (d : Dev) (f : Power → Power) : (d.upPw f).txs = d.txs := rfl
@[simp] theorem Dev.upPw_qpe (d : Dev) (f : Power → Power) : (d.upPw f).qpe = d.qpe := rfl
@[simp] theorem Dev.upPw_smv (d : Dev) (f : Power → Power) : (d.upPw f).smv = d.smv := rfl
@[simp] theorem Dev.upPw_tr (d : Dev) (f : Power → Power) : (d.upPw f).tr = d.tr := rfl
@[simp] theorem Dev.upPw_vf (d : Dev) (f : Power → Power) : (d.upPw f).vf = d.vf := rfl

/-! ## `bst` -/

@[simp] theorem Dev.upBst_out (d : Dev) (f : Bst → Bst) : (d.upBst f).out = d.out := rfl
@[simp] theorem Dev.upBst_fresh (d : Dev) (f : Bst → Bst) : (d.upBst f).fresh = d.fresh := rfl
@[simp] theorem Dev.upBst_reg (d : Dev) (f : Bst → Bst) : (d.upBst f).reg = d.reg := rfl
@[simp] theorem Dev.upBst_img (d : Dev) (f : Bst → Bst) : (d.upBst f).img = d.img := rfl
@[simp] theorem Dev.upBst_tl (d : Dev) (f : Bst → Bst) : (d.upBst f).tl = d.tl := rfl
@[simp] theorem Dev.upBst_mem (d : Dev) (f : Bst → Bst) : (d.upBst f).mem = d.mem := rfl
@[simp] theorem Dev.upBst_cad (d : Dev) (f : Bst → Bst) : (d.upBst f).cad = d.cad := rfl
@[simp] theorem Dev.upBst_ev (d : Dev) (f : Bst → Bst) : (d.upBst f).ev = d.ev := rfl
@[simp] theorem Dev.upBst_dtu (d : Dev) (f : Bst → Bst) : (d.upBst f).dtu = d.dtu := rfl
@[simp] theorem Dev.upBst_pw (d : Dev) (f : Bst → Bst) : (d.upBst f).pw = d.pw := rfl
@[simp] theorem Dev.upBst_bst (d : Dev) (f : Bst → Bst) : (d.upBst f).bst = f d.bst := rfl
@[simp] theorem Dev.upBst_hif (d : Dev) (f : Bst → Bst) : (d.upBst f).hif = d.hif := rfl
@[simp] theorem Dev.upBst_wq (d : Dev) (f : Bst → Bst) : (d.upBst f).wq = d.wq := rfl
@[simp] theorem Dev.upBst_ras (d : Dev) (f : Bst → Bst) : (d.upBst f).ras = d.ras := rfl
@[simp] theorem Dev.upBst_mg (d : Dev) (f : Bst → Bst) : (d.upBst f).mg = d.mg := rfl
@[simp] theorem Dev.upBst_onf (d : Dev) (f : Bst → Bst) : (d.upBst f).onf = d.onf := rfl
@[simp] theorem Dev.upBst_xdu (d : Dev) (f : Bst → Bst) : (d.upBst f).xdu = d.xdu := rfl
@[simp] theorem Dev.upBst_clk (d : Dev) (f : Bst → Bst) : (d.upBst f).clk = d.clk := rfl
@[simp] theorem Dev.upBst_eth (d : Dev) (f : Bst → Bst) : (d.upBst f).eth = d.eth := rfl
@[simp] theorem Dev.upBst_txs (d : Dev) (f : Bst → Bst) : (d.upBst f).txs = d.txs := rfl
@[simp] theorem Dev.upBst_qpe (d : Dev) (f : Bst → Bst) : (d.upBst f).qpe = d.qpe := rfl
@[simp] theorem Dev.upBst_smv (d : Dev) (f : Bst → Bst) : (d.upBst f).smv = d.smv := rfl
@[simp] theorem Dev.upBst_tr (d : Dev) (f : Bst → Bst) : (d.upBst f).tr = d.tr := rfl
@[simp] theorem Dev.upBst_vf (d : Dev) (f : Bst → Bst) : (d.upBst f).vf = d.vf := rfl

/-! ## `hif` -/

@[simp] theorem Dev.upHif_out (d : Dev) (f : Hif → Hif) : (d.upHif f).out = d.out := rfl
@[simp] theorem Dev.upHif_fresh (d : Dev) (f : Hif → Hif) : (d.upHif f).fresh = d.fresh := rfl
@[simp] theorem Dev.upHif_reg (d : Dev) (f : Hif → Hif) : (d.upHif f).reg = d.reg := rfl
@[simp] theorem Dev.upHif_img (d : Dev) (f : Hif → Hif) : (d.upHif f).img = d.img := rfl
@[simp] theorem Dev.upHif_tl (d : Dev) (f : Hif → Hif) : (d.upHif f).tl = d.tl := rfl
@[simp] theorem Dev.upHif_mem (d : Dev) (f : Hif → Hif) : (d.upHif f).mem = d.mem := rfl
@[simp] theorem Dev.upHif_cad (d : Dev) (f : Hif → Hif) : (d.upHif f).cad = d.cad := rfl
@[simp] theorem Dev.upHif_ev (d : Dev) (f : Hif → Hif) : (d.upHif f).ev = d.ev := rfl
@[simp] theorem Dev.upHif_dtu (d : Dev) (f : Hif → Hif) : (d.upHif f).dtu = d.dtu := rfl
@[simp] theorem Dev.upHif_pw (d : Dev) (f : Hif → Hif) : (d.upHif f).pw = d.pw := rfl
@[simp] theorem Dev.upHif_bst (d : Dev) (f : Hif → Hif) : (d.upHif f).bst = d.bst := rfl
@[simp] theorem Dev.upHif_hif (d : Dev) (f : Hif → Hif) : (d.upHif f).hif = f d.hif := rfl
@[simp] theorem Dev.upHif_wq (d : Dev) (f : Hif → Hif) : (d.upHif f).wq = d.wq := rfl
@[simp] theorem Dev.upHif_ras (d : Dev) (f : Hif → Hif) : (d.upHif f).ras = d.ras := rfl
@[simp] theorem Dev.upHif_mg (d : Dev) (f : Hif → Hif) : (d.upHif f).mg = d.mg := rfl
@[simp] theorem Dev.upHif_onf (d : Dev) (f : Hif → Hif) : (d.upHif f).onf = d.onf := rfl
@[simp] theorem Dev.upHif_xdu (d : Dev) (f : Hif → Hif) : (d.upHif f).xdu = d.xdu := rfl
@[simp] theorem Dev.upHif_clk (d : Dev) (f : Hif → Hif) : (d.upHif f).clk = d.clk := rfl
@[simp] theorem Dev.upHif_eth (d : Dev) (f : Hif → Hif) : (d.upHif f).eth = d.eth := rfl
@[simp] theorem Dev.upHif_txs (d : Dev) (f : Hif → Hif) : (d.upHif f).txs = d.txs := rfl
@[simp] theorem Dev.upHif_qpe (d : Dev) (f : Hif → Hif) : (d.upHif f).qpe = d.qpe := rfl
@[simp] theorem Dev.upHif_smv (d : Dev) (f : Hif → Hif) : (d.upHif f).smv = d.smv := rfl
@[simp] theorem Dev.upHif_tr (d : Dev) (f : Hif → Hif) : (d.upHif f).tr = d.tr := rfl
@[simp] theorem Dev.upHif_vf (d : Dev) (f : Hif → Hif) : (d.upHif f).vf = d.vf := rfl

/-! ## `wq` -/

@[simp] theorem Dev.upWq_out (d : Dev) (f : Wqs → Wqs) : (d.upWq f).out = d.out := rfl
@[simp] theorem Dev.upWq_fresh (d : Dev) (f : Wqs → Wqs) : (d.upWq f).fresh = d.fresh := rfl
@[simp] theorem Dev.upWq_reg (d : Dev) (f : Wqs → Wqs) : (d.upWq f).reg = d.reg := rfl
@[simp] theorem Dev.upWq_img (d : Dev) (f : Wqs → Wqs) : (d.upWq f).img = d.img := rfl
@[simp] theorem Dev.upWq_tl (d : Dev) (f : Wqs → Wqs) : (d.upWq f).tl = d.tl := rfl
@[simp] theorem Dev.upWq_mem (d : Dev) (f : Wqs → Wqs) : (d.upWq f).mem = d.mem := rfl
@[simp] theorem Dev.upWq_cad (d : Dev) (f : Wqs → Wqs) : (d.upWq f).cad = d.cad := rfl
@[simp] theorem Dev.upWq_ev (d : Dev) (f : Wqs → Wqs) : (d.upWq f).ev = d.ev := rfl
@[simp] theorem Dev.upWq_dtu (d : Dev) (f : Wqs → Wqs) : (d.upWq f).dtu = d.dtu := rfl
@[simp] theorem Dev.upWq_pw (d : Dev) (f : Wqs → Wqs) : (d.upWq f).pw = d.pw := rfl
@[simp] theorem Dev.upWq_bst (d : Dev) (f : Wqs → Wqs) : (d.upWq f).bst = d.bst := rfl
@[simp] theorem Dev.upWq_hif (d : Dev) (f : Wqs → Wqs) : (d.upWq f).hif = d.hif := rfl
@[simp] theorem Dev.upWq_wq (d : Dev) (f : Wqs → Wqs) : (d.upWq f).wq = f d.wq := rfl
@[simp] theorem Dev.upWq_ras (d : Dev) (f : Wqs → Wqs) : (d.upWq f).ras = d.ras := rfl
@[simp] theorem Dev.upWq_mg (d : Dev) (f : Wqs → Wqs) : (d.upWq f).mg = d.mg := rfl
@[simp] theorem Dev.upWq_onf (d : Dev) (f : Wqs → Wqs) : (d.upWq f).onf = d.onf := rfl
@[simp] theorem Dev.upWq_xdu (d : Dev) (f : Wqs → Wqs) : (d.upWq f).xdu = d.xdu := rfl
@[simp] theorem Dev.upWq_clk (d : Dev) (f : Wqs → Wqs) : (d.upWq f).clk = d.clk := rfl
@[simp] theorem Dev.upWq_eth (d : Dev) (f : Wqs → Wqs) : (d.upWq f).eth = d.eth := rfl
@[simp] theorem Dev.upWq_txs (d : Dev) (f : Wqs → Wqs) : (d.upWq f).txs = d.txs := rfl
@[simp] theorem Dev.upWq_qpe (d : Dev) (f : Wqs → Wqs) : (d.upWq f).qpe = d.qpe := rfl
@[simp] theorem Dev.upWq_smv (d : Dev) (f : Wqs → Wqs) : (d.upWq f).smv = d.smv := rfl
@[simp] theorem Dev.upWq_tr (d : Dev) (f : Wqs → Wqs) : (d.upWq f).tr = d.tr := rfl
@[simp] theorem Dev.upWq_vf (d : Dev) (f : Wqs → Wqs) : (d.upWq f).vf = d.vf := rfl

/-! ## `ras` -/

@[simp] theorem Dev.upRas_out (d : Dev) (f : Ras → Ras) : (d.upRas f).out = d.out := rfl
@[simp] theorem Dev.upRas_fresh (d : Dev) (f : Ras → Ras) : (d.upRas f).fresh = d.fresh := rfl
@[simp] theorem Dev.upRas_reg (d : Dev) (f : Ras → Ras) : (d.upRas f).reg = d.reg := rfl
@[simp] theorem Dev.upRas_img (d : Dev) (f : Ras → Ras) : (d.upRas f).img = d.img := rfl
@[simp] theorem Dev.upRas_tl (d : Dev) (f : Ras → Ras) : (d.upRas f).tl = d.tl := rfl
@[simp] theorem Dev.upRas_mem (d : Dev) (f : Ras → Ras) : (d.upRas f).mem = d.mem := rfl
@[simp] theorem Dev.upRas_cad (d : Dev) (f : Ras → Ras) : (d.upRas f).cad = d.cad := rfl
@[simp] theorem Dev.upRas_ev (d : Dev) (f : Ras → Ras) : (d.upRas f).ev = d.ev := rfl
@[simp] theorem Dev.upRas_dtu (d : Dev) (f : Ras → Ras) : (d.upRas f).dtu = d.dtu := rfl
@[simp] theorem Dev.upRas_pw (d : Dev) (f : Ras → Ras) : (d.upRas f).pw = d.pw := rfl
@[simp] theorem Dev.upRas_bst (d : Dev) (f : Ras → Ras) : (d.upRas f).bst = d.bst := rfl
@[simp] theorem Dev.upRas_hif (d : Dev) (f : Ras → Ras) : (d.upRas f).hif = d.hif := rfl
@[simp] theorem Dev.upRas_wq (d : Dev) (f : Ras → Ras) : (d.upRas f).wq = d.wq := rfl
@[simp] theorem Dev.upRas_ras (d : Dev) (f : Ras → Ras) : (d.upRas f).ras = f d.ras := rfl
@[simp] theorem Dev.upRas_mg (d : Dev) (f : Ras → Ras) : (d.upRas f).mg = d.mg := rfl
@[simp] theorem Dev.upRas_onf (d : Dev) (f : Ras → Ras) : (d.upRas f).onf = d.onf := rfl
@[simp] theorem Dev.upRas_xdu (d : Dev) (f : Ras → Ras) : (d.upRas f).xdu = d.xdu := rfl
@[simp] theorem Dev.upRas_clk (d : Dev) (f : Ras → Ras) : (d.upRas f).clk = d.clk := rfl
@[simp] theorem Dev.upRas_eth (d : Dev) (f : Ras → Ras) : (d.upRas f).eth = d.eth := rfl
@[simp] theorem Dev.upRas_txs (d : Dev) (f : Ras → Ras) : (d.upRas f).txs = d.txs := rfl
@[simp] theorem Dev.upRas_qpe (d : Dev) (f : Ras → Ras) : (d.upRas f).qpe = d.qpe := rfl
@[simp] theorem Dev.upRas_smv (d : Dev) (f : Ras → Ras) : (d.upRas f).smv = d.smv := rfl
@[simp] theorem Dev.upRas_tr (d : Dev) (f : Ras → Ras) : (d.upRas f).tr = d.tr := rfl
@[simp] theorem Dev.upRas_vf (d : Dev) (f : Ras → Ras) : (d.upRas f).vf = d.vf := rfl

/-! ## `mg` -/

@[simp] theorem Dev.upMg_out (d : Dev) (f : Mgt → Mgt) : (d.upMg f).out = d.out := rfl
@[simp] theorem Dev.upMg_fresh (d : Dev) (f : Mgt → Mgt) : (d.upMg f).fresh = d.fresh := rfl
@[simp] theorem Dev.upMg_reg (d : Dev) (f : Mgt → Mgt) : (d.upMg f).reg = d.reg := rfl
@[simp] theorem Dev.upMg_img (d : Dev) (f : Mgt → Mgt) : (d.upMg f).img = d.img := rfl
@[simp] theorem Dev.upMg_tl (d : Dev) (f : Mgt → Mgt) : (d.upMg f).tl = d.tl := rfl
@[simp] theorem Dev.upMg_mem (d : Dev) (f : Mgt → Mgt) : (d.upMg f).mem = d.mem := rfl
@[simp] theorem Dev.upMg_cad (d : Dev) (f : Mgt → Mgt) : (d.upMg f).cad = d.cad := rfl
@[simp] theorem Dev.upMg_ev (d : Dev) (f : Mgt → Mgt) : (d.upMg f).ev = d.ev := rfl
@[simp] theorem Dev.upMg_dtu (d : Dev) (f : Mgt → Mgt) : (d.upMg f).dtu = d.dtu := rfl
@[simp] theorem Dev.upMg_pw (d : Dev) (f : Mgt → Mgt) : (d.upMg f).pw = d.pw := rfl
@[simp] theorem Dev.upMg_bst (d : Dev) (f : Mgt → Mgt) : (d.upMg f).bst = d.bst := rfl
@[simp] theorem Dev.upMg_hif (d : Dev) (f : Mgt → Mgt) : (d.upMg f).hif = d.hif := rfl
@[simp] theorem Dev.upMg_wq (d : Dev) (f : Mgt → Mgt) : (d.upMg f).wq = d.wq := rfl
@[simp] theorem Dev.upMg_ras (d : Dev) (f : Mgt → Mgt) : (d.upMg f).ras = d.ras := rfl
@[simp] theorem Dev.upMg_mg (d : Dev) (f : Mgt → Mgt) : (d.upMg f).mg = f d.mg := rfl
@[simp] theorem Dev.upMg_onf (d : Dev) (f : Mgt → Mgt) : (d.upMg f).onf = d.onf := rfl
@[simp] theorem Dev.upMg_xdu (d : Dev) (f : Mgt → Mgt) : (d.upMg f).xdu = d.xdu := rfl
@[simp] theorem Dev.upMg_clk (d : Dev) (f : Mgt → Mgt) : (d.upMg f).clk = d.clk := rfl
@[simp] theorem Dev.upMg_eth (d : Dev) (f : Mgt → Mgt) : (d.upMg f).eth = d.eth := rfl
@[simp] theorem Dev.upMg_txs (d : Dev) (f : Mgt → Mgt) : (d.upMg f).txs = d.txs := rfl
@[simp] theorem Dev.upMg_qpe (d : Dev) (f : Mgt → Mgt) : (d.upMg f).qpe = d.qpe := rfl
@[simp] theorem Dev.upMg_smv (d : Dev) (f : Mgt → Mgt) : (d.upMg f).smv = d.smv := rfl
@[simp] theorem Dev.upMg_tr (d : Dev) (f : Mgt → Mgt) : (d.upMg f).tr = d.tr := rfl
@[simp] theorem Dev.upMg_vf (d : Dev) (f : Mgt → Mgt) : (d.upMg f).vf = d.vf := rfl

/-! ## `onf` -/

@[simp] theorem Dev.upOnf_out (d : Dev) (f : Onf → Onf) : (d.upOnf f).out = d.out := rfl
@[simp] theorem Dev.upOnf_fresh (d : Dev) (f : Onf → Onf) : (d.upOnf f).fresh = d.fresh := rfl
@[simp] theorem Dev.upOnf_reg (d : Dev) (f : Onf → Onf) : (d.upOnf f).reg = d.reg := rfl
@[simp] theorem Dev.upOnf_img (d : Dev) (f : Onf → Onf) : (d.upOnf f).img = d.img := rfl
@[simp] theorem Dev.upOnf_tl (d : Dev) (f : Onf → Onf) : (d.upOnf f).tl = d.tl := rfl
@[simp] theorem Dev.upOnf_mem (d : Dev) (f : Onf → Onf) : (d.upOnf f).mem = d.mem := rfl
@[simp] theorem Dev.upOnf_cad (d : Dev) (f : Onf → Onf) : (d.upOnf f).cad = d.cad := rfl
@[simp] theorem Dev.upOnf_ev (d : Dev) (f : Onf → Onf) : (d.upOnf f).ev = d.ev := rfl
@[simp] theorem Dev.upOnf_dtu (d : Dev) (f : Onf → Onf) : (d.upOnf f).dtu = d.dtu := rfl
@[simp] theorem Dev.upOnf_pw (d : Dev) (f : Onf → Onf) : (d.upOnf f).pw = d.pw := rfl
@[simp] theorem Dev.upOnf_bst (d : Dev) (f : Onf → Onf) : (d.upOnf f).bst = d.bst := rfl
@[simp] theorem Dev.upOnf_hif (d : Dev) (f : Onf → Onf) : (d.upOnf f).hif = d.hif := rfl
@[simp] theorem Dev.upOnf_wq (d : Dev) (f : Onf → Onf) : (d.upOnf f).wq = d.wq := rfl
@[simp] theorem Dev.upOnf_ras (d : Dev) (f : Onf → Onf) : (d.upOnf f).ras = d.ras := rfl
@[simp] theorem Dev.upOnf_mg (d : Dev) (f : Onf → Onf) : (d.upOnf f).mg = d.mg := rfl
@[simp] theorem Dev.upOnf_onf (d : Dev) (f : Onf → Onf) : (d.upOnf f).onf = f d.onf := rfl
@[simp] theorem Dev.upOnf_xdu (d : Dev) (f : Onf → Onf) : (d.upOnf f).xdu = d.xdu := rfl
@[simp] theorem Dev.upOnf_clk (d : Dev) (f : Onf → Onf) : (d.upOnf f).clk = d.clk := rfl
@[simp] theorem Dev.upOnf_eth (d : Dev) (f : Onf → Onf) : (d.upOnf f).eth = d.eth := rfl
@[simp] theorem Dev.upOnf_txs (d : Dev) (f : Onf → Onf) : (d.upOnf f).txs = d.txs := rfl
@[simp] theorem Dev.upOnf_qpe (d : Dev) (f : Onf → Onf) : (d.upOnf f).qpe = d.qpe := rfl
@[simp] theorem Dev.upOnf_smv (d : Dev) (f : Onf → Onf) : (d.upOnf f).smv = d.smv := rfl
@[simp] theorem Dev.upOnf_tr (d : Dev) (f : Onf → Onf) : (d.upOnf f).tr = d.tr := rfl
@[simp] theorem Dev.upOnf_vf (d : Dev) (f : Onf → Onf) : (d.upOnf f).vf = d.vf := rfl

/-! ## `xdu` -/

@[simp] theorem Dev.upXdu_out (d : Dev) (f : Xdu → Xdu) : (d.upXdu f).out = d.out := rfl
@[simp] theorem Dev.upXdu_fresh (d : Dev) (f : Xdu → Xdu) : (d.upXdu f).fresh = d.fresh := rfl
@[simp] theorem Dev.upXdu_reg (d : Dev) (f : Xdu → Xdu) : (d.upXdu f).reg = d.reg := rfl
@[simp] theorem Dev.upXdu_img (d : Dev) (f : Xdu → Xdu) : (d.upXdu f).img = d.img := rfl
@[simp] theorem Dev.upXdu_tl (d : Dev) (f : Xdu → Xdu) : (d.upXdu f).tl = d.tl := rfl
@[simp] theorem Dev.upXdu_mem (d : Dev) (f : Xdu → Xdu) : (d.upXdu f).mem = d.mem := rfl
@[simp] theorem Dev.upXdu_cad (d : Dev) (f : Xdu → Xdu) : (d.upXdu f).cad = d.cad := rfl
@[simp] theorem Dev.upXdu_ev (d : Dev) (f : Xdu → Xdu) : (d.upXdu f).ev = d.ev := rfl
@[simp] theorem Dev.upXdu_dtu (d : Dev) (f : Xdu → Xdu) : (d.upXdu f).dtu = d.dtu := rfl
@[simp] theorem Dev.upXdu_pw (d : Dev) (f : Xdu → Xdu) : (d.upXdu f).pw = d.pw := rfl
@[simp] theorem Dev.upXdu_bst (d : Dev) (f : Xdu → Xdu) : (d.upXdu f).bst = d.bst := rfl
@[simp] theorem Dev.upXdu_hif (d : Dev) (f : Xdu → Xdu) : (d.upXdu f).hif = d.hif := rfl
@[simp] theorem Dev.upXdu_wq (d : Dev) (f : Xdu → Xdu) : (d.upXdu f).wq = d.wq := rfl
@[simp] theorem Dev.upXdu_ras (d : Dev) (f : Xdu → Xdu) : (d.upXdu f).ras = d.ras := rfl
@[simp] theorem Dev.upXdu_mg (d : Dev) (f : Xdu → Xdu) : (d.upXdu f).mg = d.mg := rfl
@[simp] theorem Dev.upXdu_onf (d : Dev) (f : Xdu → Xdu) : (d.upXdu f).onf = d.onf := rfl
@[simp] theorem Dev.upXdu_xdu (d : Dev) (f : Xdu → Xdu) : (d.upXdu f).xdu = f d.xdu := rfl
@[simp] theorem Dev.upXdu_clk (d : Dev) (f : Xdu → Xdu) : (d.upXdu f).clk = d.clk := rfl
@[simp] theorem Dev.upXdu_eth (d : Dev) (f : Xdu → Xdu) : (d.upXdu f).eth = d.eth := rfl
@[simp] theorem Dev.upXdu_txs (d : Dev) (f : Xdu → Xdu) : (d.upXdu f).txs = d.txs := rfl
@[simp] theorem Dev.upXdu_qpe (d : Dev) (f : Xdu → Xdu) : (d.upXdu f).qpe = d.qpe := rfl
@[simp] theorem Dev.upXdu_smv (d : Dev) (f : Xdu → Xdu) : (d.upXdu f).smv = d.smv := rfl
@[simp] theorem Dev.upXdu_tr (d : Dev) (f : Xdu → Xdu) : (d.upXdu f).tr = d.tr := rfl
@[simp] theorem Dev.upXdu_vf (d : Dev) (f : Xdu → Xdu) : (d.upXdu f).vf = d.vf := rfl

/-! ## `eth` -/

@[simp] theorem Dev.upEth_out (d : Dev) (f : Eth → Eth) : (d.upEth f).out = d.out := rfl
@[simp] theorem Dev.upEth_fresh (d : Dev) (f : Eth → Eth) : (d.upEth f).fresh = d.fresh := rfl
@[simp] theorem Dev.upEth_reg (d : Dev) (f : Eth → Eth) : (d.upEth f).reg = d.reg := rfl
@[simp] theorem Dev.upEth_img (d : Dev) (f : Eth → Eth) : (d.upEth f).img = d.img := rfl
@[simp] theorem Dev.upEth_tl (d : Dev) (f : Eth → Eth) : (d.upEth f).tl = d.tl := rfl
@[simp] theorem Dev.upEth_mem (d : Dev) (f : Eth → Eth) : (d.upEth f).mem = d.mem := rfl
@[simp] theorem Dev.upEth_cad (d : Dev) (f : Eth → Eth) : (d.upEth f).cad = d.cad := rfl
@[simp] theorem Dev.upEth_ev (d : Dev) (f : Eth → Eth) : (d.upEth f).ev = d.ev := rfl
@[simp] theorem Dev.upEth_dtu (d : Dev) (f : Eth → Eth) : (d.upEth f).dtu = d.dtu := rfl
@[simp] theorem Dev.upEth_pw (d : Dev) (f : Eth → Eth) : (d.upEth f).pw = d.pw := rfl
@[simp] theorem Dev.upEth_bst (d : Dev) (f : Eth → Eth) : (d.upEth f).bst = d.bst := rfl
@[simp] theorem Dev.upEth_hif (d : Dev) (f : Eth → Eth) : (d.upEth f).hif = d.hif := rfl
@[simp] theorem Dev.upEth_wq (d : Dev) (f : Eth → Eth) : (d.upEth f).wq = d.wq := rfl
@[simp] theorem Dev.upEth_ras (d : Dev) (f : Eth → Eth) : (d.upEth f).ras = d.ras := rfl
@[simp] theorem Dev.upEth_mg (d : Dev) (f : Eth → Eth) : (d.upEth f).mg = d.mg := rfl
@[simp] theorem Dev.upEth_onf (d : Dev) (f : Eth → Eth) : (d.upEth f).onf = d.onf := rfl
@[simp] theorem Dev.upEth_xdu (d : Dev) (f : Eth → Eth) : (d.upEth f).xdu = d.xdu := rfl
@[simp] theorem Dev.upEth_clk (d : Dev) (f : Eth → Eth) : (d.upEth f).clk = d.clk := rfl
@[simp] theorem Dev.upEth_eth (d : Dev) (f : Eth → Eth) : (d.upEth f).eth = f d.eth := rfl
@[simp] theorem Dev.upEth_txs (d : Dev) (f : Eth → Eth) : (d.upEth f).txs = d.txs := rfl
@[simp] theorem Dev.upEth_qpe (d : Dev) (f : Eth → Eth) : (d.upEth f).qpe = d.qpe := rfl
@[simp] theorem Dev.upEth_smv (d : Dev) (f : Eth → Eth) : (d.upEth f).smv = d.smv := rfl
@[simp] theorem Dev.upEth_tr (d : Dev) (f : Eth → Eth) : (d.upEth f).tr = d.tr := rfl
@[simp] theorem Dev.upEth_vf (d : Dev) (f : Eth → Eth) : (d.upEth f).vf = d.vf := rfl

/-! ## `txs` -/

@[simp] theorem Dev.upTxs_out (d : Dev) (f : Txs → Txs) : (d.upTxs f).out = d.out := rfl
@[simp] theorem Dev.upTxs_fresh (d : Dev) (f : Txs → Txs) : (d.upTxs f).fresh = d.fresh := rfl
@[simp] theorem Dev.upTxs_reg (d : Dev) (f : Txs → Txs) : (d.upTxs f).reg = d.reg := rfl
@[simp] theorem Dev.upTxs_img (d : Dev) (f : Txs → Txs) : (d.upTxs f).img = d.img := rfl
@[simp] theorem Dev.upTxs_tl (d : Dev) (f : Txs → Txs) : (d.upTxs f).tl = d.tl := rfl
@[simp] theorem Dev.upTxs_mem (d : Dev) (f : Txs → Txs) : (d.upTxs f).mem = d.mem := rfl
@[simp] theorem Dev.upTxs_cad (d : Dev) (f : Txs → Txs) : (d.upTxs f).cad = d.cad := rfl
@[simp] theorem Dev.upTxs_ev (d : Dev) (f : Txs → Txs) : (d.upTxs f).ev = d.ev := rfl
@[simp] theorem Dev.upTxs_dtu (d : Dev) (f : Txs → Txs) : (d.upTxs f).dtu = d.dtu := rfl
@[simp] theorem Dev.upTxs_pw (d : Dev) (f : Txs → Txs) : (d.upTxs f).pw = d.pw := rfl
@[simp] theorem Dev.upTxs_bst (d : Dev) (f : Txs → Txs) : (d.upTxs f).bst = d.bst := rfl
@[simp] theorem Dev.upTxs_hif (d : Dev) (f : Txs → Txs) : (d.upTxs f).hif = d.hif := rfl
@[simp] theorem Dev.upTxs_wq (d : Dev) (f : Txs → Txs) : (d.upTxs f).wq = d.wq := rfl
@[simp] theorem Dev.upTxs_ras (d : Dev) (f : Txs → Txs) : (d.upTxs f).ras = d.ras := rfl
@[simp] theorem Dev.upTxs_mg (d : Dev) (f : Txs → Txs) : (d.upTxs f).mg = d.mg := rfl
@[simp] theorem Dev.upTxs_onf (d : Dev) (f : Txs → Txs) : (d.upTxs f).onf = d.onf := rfl
@[simp] theorem Dev.upTxs_xdu (d : Dev) (f : Txs → Txs) : (d.upTxs f).xdu = d.xdu := rfl
@[simp] theorem Dev.upTxs_clk (d : Dev) (f : Txs → Txs) : (d.upTxs f).clk = d.clk := rfl
@[simp] theorem Dev.upTxs_eth (d : Dev) (f : Txs → Txs) : (d.upTxs f).eth = d.eth := rfl
@[simp] theorem Dev.upTxs_txs (d : Dev) (f : Txs → Txs) : (d.upTxs f).txs = f d.txs := rfl
@[simp] theorem Dev.upTxs_qpe (d : Dev) (f : Txs → Txs) : (d.upTxs f).qpe = d.qpe := rfl
@[simp] theorem Dev.upTxs_smv (d : Dev) (f : Txs → Txs) : (d.upTxs f).smv = d.smv := rfl
@[simp] theorem Dev.upTxs_tr (d : Dev) (f : Txs → Txs) : (d.upTxs f).tr = d.tr := rfl
@[simp] theorem Dev.upTxs_vf (d : Dev) (f : Txs → Txs) : (d.upTxs f).vf = d.vf := rfl

/-! ## `qpe` -/

@[simp] theorem Dev.upQpe_out (d : Dev) (f : Qpe → Qpe) : (d.upQpe f).out = d.out := rfl
@[simp] theorem Dev.upQpe_fresh (d : Dev) (f : Qpe → Qpe) : (d.upQpe f).fresh = d.fresh := rfl
@[simp] theorem Dev.upQpe_reg (d : Dev) (f : Qpe → Qpe) : (d.upQpe f).reg = d.reg := rfl
@[simp] theorem Dev.upQpe_img (d : Dev) (f : Qpe → Qpe) : (d.upQpe f).img = d.img := rfl
@[simp] theorem Dev.upQpe_tl (d : Dev) (f : Qpe → Qpe) : (d.upQpe f).tl = d.tl := rfl
@[simp] theorem Dev.upQpe_mem (d : Dev) (f : Qpe → Qpe) : (d.upQpe f).mem = d.mem := rfl
@[simp] theorem Dev.upQpe_cad (d : Dev) (f : Qpe → Qpe) : (d.upQpe f).cad = d.cad := rfl
@[simp] theorem Dev.upQpe_ev (d : Dev) (f : Qpe → Qpe) : (d.upQpe f).ev = d.ev := rfl
@[simp] theorem Dev.upQpe_dtu (d : Dev) (f : Qpe → Qpe) : (d.upQpe f).dtu = d.dtu := rfl
@[simp] theorem Dev.upQpe_pw (d : Dev) (f : Qpe → Qpe) : (d.upQpe f).pw = d.pw := rfl
@[simp] theorem Dev.upQpe_bst (d : Dev) (f : Qpe → Qpe) : (d.upQpe f).bst = d.bst := rfl
@[simp] theorem Dev.upQpe_hif (d : Dev) (f : Qpe → Qpe) : (d.upQpe f).hif = d.hif := rfl
@[simp] theorem Dev.upQpe_wq (d : Dev) (f : Qpe → Qpe) : (d.upQpe f).wq = d.wq := rfl
@[simp] theorem Dev.upQpe_ras (d : Dev) (f : Qpe → Qpe) : (d.upQpe f).ras = d.ras := rfl
@[simp] theorem Dev.upQpe_mg (d : Dev) (f : Qpe → Qpe) : (d.upQpe f).mg = d.mg := rfl
@[simp] theorem Dev.upQpe_onf (d : Dev) (f : Qpe → Qpe) : (d.upQpe f).onf = d.onf := rfl
@[simp] theorem Dev.upQpe_xdu (d : Dev) (f : Qpe → Qpe) : (d.upQpe f).xdu = d.xdu := rfl
@[simp] theorem Dev.upQpe_clk (d : Dev) (f : Qpe → Qpe) : (d.upQpe f).clk = d.clk := rfl
@[simp] theorem Dev.upQpe_eth (d : Dev) (f : Qpe → Qpe) : (d.upQpe f).eth = d.eth := rfl
@[simp] theorem Dev.upQpe_txs (d : Dev) (f : Qpe → Qpe) : (d.upQpe f).txs = d.txs := rfl
@[simp] theorem Dev.upQpe_qpe (d : Dev) (f : Qpe → Qpe) : (d.upQpe f).qpe = f d.qpe := rfl
@[simp] theorem Dev.upQpe_smv (d : Dev) (f : Qpe → Qpe) : (d.upQpe f).smv = d.smv := rfl
@[simp] theorem Dev.upQpe_tr (d : Dev) (f : Qpe → Qpe) : (d.upQpe f).tr = d.tr := rfl
@[simp] theorem Dev.upQpe_vf (d : Dev) (f : Qpe → Qpe) : (d.upQpe f).vf = d.vf := rfl

/-! ## `smv` -/

@[simp] theorem Dev.upSmv_out (d : Dev) (f : Smv → Smv) : (d.upSmv f).out = d.out := rfl
@[simp] theorem Dev.upSmv_fresh (d : Dev) (f : Smv → Smv) : (d.upSmv f).fresh = d.fresh := rfl
@[simp] theorem Dev.upSmv_reg (d : Dev) (f : Smv → Smv) : (d.upSmv f).reg = d.reg := rfl
@[simp] theorem Dev.upSmv_img (d : Dev) (f : Smv → Smv) : (d.upSmv f).img = d.img := rfl
@[simp] theorem Dev.upSmv_tl (d : Dev) (f : Smv → Smv) : (d.upSmv f).tl = d.tl := rfl
@[simp] theorem Dev.upSmv_mem (d : Dev) (f : Smv → Smv) : (d.upSmv f).mem = d.mem := rfl
@[simp] theorem Dev.upSmv_cad (d : Dev) (f : Smv → Smv) : (d.upSmv f).cad = d.cad := rfl
@[simp] theorem Dev.upSmv_ev (d : Dev) (f : Smv → Smv) : (d.upSmv f).ev = d.ev := rfl
@[simp] theorem Dev.upSmv_dtu (d : Dev) (f : Smv → Smv) : (d.upSmv f).dtu = d.dtu := rfl
@[simp] theorem Dev.upSmv_pw (d : Dev) (f : Smv → Smv) : (d.upSmv f).pw = d.pw := rfl
@[simp] theorem Dev.upSmv_bst (d : Dev) (f : Smv → Smv) : (d.upSmv f).bst = d.bst := rfl
@[simp] theorem Dev.upSmv_hif (d : Dev) (f : Smv → Smv) : (d.upSmv f).hif = d.hif := rfl
@[simp] theorem Dev.upSmv_wq (d : Dev) (f : Smv → Smv) : (d.upSmv f).wq = d.wq := rfl
@[simp] theorem Dev.upSmv_ras (d : Dev) (f : Smv → Smv) : (d.upSmv f).ras = d.ras := rfl
@[simp] theorem Dev.upSmv_mg (d : Dev) (f : Smv → Smv) : (d.upSmv f).mg = d.mg := rfl
@[simp] theorem Dev.upSmv_onf (d : Dev) (f : Smv → Smv) : (d.upSmv f).onf = d.onf := rfl
@[simp] theorem Dev.upSmv_xdu (d : Dev) (f : Smv → Smv) : (d.upSmv f).xdu = d.xdu := rfl
@[simp] theorem Dev.upSmv_clk (d : Dev) (f : Smv → Smv) : (d.upSmv f).clk = d.clk := rfl
@[simp] theorem Dev.upSmv_eth (d : Dev) (f : Smv → Smv) : (d.upSmv f).eth = d.eth := rfl
@[simp] theorem Dev.upSmv_txs (d : Dev) (f : Smv → Smv) : (d.upSmv f).txs = d.txs := rfl
@[simp] theorem Dev.upSmv_qpe (d : Dev) (f : Smv → Smv) : (d.upSmv f).qpe = d.qpe := rfl
@[simp] theorem Dev.upSmv_smv (d : Dev) (f : Smv → Smv) : (d.upSmv f).smv = f d.smv := rfl
@[simp] theorem Dev.upSmv_tr (d : Dev) (f : Smv → Smv) : (d.upSmv f).tr = d.tr := rfl
@[simp] theorem Dev.upSmv_vf (d : Dev) (f : Smv → Smv) : (d.upSmv f).vf = d.vf := rfl

/-! ## `tr` -/

@[simp] theorem Dev.upTr_out (d : Dev) (f : Trust → Trust) : (d.upTr f).out = d.out := rfl
@[simp] theorem Dev.upTr_fresh (d : Dev) (f : Trust → Trust) : (d.upTr f).fresh = d.fresh := rfl
@[simp] theorem Dev.upTr_reg (d : Dev) (f : Trust → Trust) : (d.upTr f).reg = d.reg := rfl
@[simp] theorem Dev.upTr_img (d : Dev) (f : Trust → Trust) : (d.upTr f).img = d.img := rfl
@[simp] theorem Dev.upTr_tl (d : Dev) (f : Trust → Trust) : (d.upTr f).tl = d.tl := rfl
@[simp] theorem Dev.upTr_mem (d : Dev) (f : Trust → Trust) : (d.upTr f).mem = d.mem := rfl
@[simp] theorem Dev.upTr_cad (d : Dev) (f : Trust → Trust) : (d.upTr f).cad = d.cad := rfl
@[simp] theorem Dev.upTr_ev (d : Dev) (f : Trust → Trust) : (d.upTr f).ev = d.ev := rfl
@[simp] theorem Dev.upTr_dtu (d : Dev) (f : Trust → Trust) : (d.upTr f).dtu = d.dtu := rfl
@[simp] theorem Dev.upTr_pw (d : Dev) (f : Trust → Trust) : (d.upTr f).pw = d.pw := rfl
@[simp] theorem Dev.upTr_bst (d : Dev) (f : Trust → Trust) : (d.upTr f).bst = d.bst := rfl
@[simp] theorem Dev.upTr_hif (d : Dev) (f : Trust → Trust) : (d.upTr f).hif = d.hif := rfl
@[simp] theorem Dev.upTr_wq (d : Dev) (f : Trust → Trust) : (d.upTr f).wq = d.wq := rfl
@[simp] theorem Dev.upTr_ras (d : Dev) (f : Trust → Trust) : (d.upTr f).ras = d.ras := rfl
@[simp] theorem Dev.upTr_mg (d : Dev) (f : Trust → Trust) : (d.upTr f).mg = d.mg := rfl
@[simp] theorem Dev.upTr_onf (d : Dev) (f : Trust → Trust) : (d.upTr f).onf = d.onf := rfl
@[simp] theorem Dev.upTr_xdu (d : Dev) (f : Trust → Trust) : (d.upTr f).xdu = d.xdu := rfl
@[simp] theorem Dev.upTr_clk (d : Dev) (f : Trust → Trust) : (d.upTr f).clk = d.clk := rfl
@[simp] theorem Dev.upTr_eth (d : Dev) (f : Trust → Trust) : (d.upTr f).eth = d.eth := rfl
@[simp] theorem Dev.upTr_txs (d : Dev) (f : Trust → Trust) : (d.upTr f).txs = d.txs := rfl
@[simp] theorem Dev.upTr_qpe (d : Dev) (f : Trust → Trust) : (d.upTr f).qpe = d.qpe := rfl
@[simp] theorem Dev.upTr_smv (d : Dev) (f : Trust → Trust) : (d.upTr f).smv = d.smv := rfl
@[simp] theorem Dev.upTr_tr (d : Dev) (f : Trust → Trust) : (d.upTr f).tr = f d.tr := rfl
@[simp] theorem Dev.upTr_vf (d : Dev) (f : Trust → Trust) : (d.upTr f).vf = d.vf := rfl

/-! ## `vf` -/

@[simp] theorem Dev.upVf_out (d : Dev) (f : Vfm → Vfm) : (d.upVf f).out = d.out := rfl
@[simp] theorem Dev.upVf_fresh (d : Dev) (f : Vfm → Vfm) : (d.upVf f).fresh = d.fresh := rfl
@[simp] theorem Dev.upVf_reg (d : Dev) (f : Vfm → Vfm) : (d.upVf f).reg = d.reg := rfl
@[simp] theorem Dev.upVf_img (d : Dev) (f : Vfm → Vfm) : (d.upVf f).img = d.img := rfl
@[simp] theorem Dev.upVf_tl (d : Dev) (f : Vfm → Vfm) : (d.upVf f).tl = d.tl := rfl
@[simp] theorem Dev.upVf_mem (d : Dev) (f : Vfm → Vfm) : (d.upVf f).mem = d.mem := rfl
@[simp] theorem Dev.upVf_cad (d : Dev) (f : Vfm → Vfm) : (d.upVf f).cad = d.cad := rfl
@[simp] theorem Dev.upVf_ev (d : Dev) (f : Vfm → Vfm) : (d.upVf f).ev = d.ev := rfl
@[simp] theorem Dev.upVf_dtu (d : Dev) (f : Vfm → Vfm) : (d.upVf f).dtu = d.dtu := rfl
@[simp] theorem Dev.upVf_pw (d : Dev) (f : Vfm → Vfm) : (d.upVf f).pw = d.pw := rfl
@[simp] theorem Dev.upVf_bst (d : Dev) (f : Vfm → Vfm) : (d.upVf f).bst = d.bst := rfl
@[simp] theorem Dev.upVf_hif (d : Dev) (f : Vfm → Vfm) : (d.upVf f).hif = d.hif := rfl
@[simp] theorem Dev.upVf_wq (d : Dev) (f : Vfm → Vfm) : (d.upVf f).wq = d.wq := rfl
@[simp] theorem Dev.upVf_ras (d : Dev) (f : Vfm → Vfm) : (d.upVf f).ras = d.ras := rfl
@[simp] theorem Dev.upVf_mg (d : Dev) (f : Vfm → Vfm) : (d.upVf f).mg = d.mg := rfl
@[simp] theorem Dev.upVf_onf (d : Dev) (f : Vfm → Vfm) : (d.upVf f).onf = d.onf := rfl
@[simp] theorem Dev.upVf_xdu (d : Dev) (f : Vfm → Vfm) : (d.upVf f).xdu = d.xdu := rfl
@[simp] theorem Dev.upVf_clk (d : Dev) (f : Vfm → Vfm) : (d.upVf f).clk = d.clk := rfl
@[simp] theorem Dev.upVf_eth (d : Dev) (f : Vfm → Vfm) : (d.upVf f).eth = d.eth := rfl
@[simp] theorem Dev.upVf_txs (d : Dev) (f : Vfm → Vfm) : (d.upVf f).txs = d.txs := rfl
@[simp] theorem Dev.upVf_qpe (d : Dev) (f : Vfm → Vfm) : (d.upVf f).qpe = d.qpe := rfl
@[simp] theorem Dev.upVf_smv (d : Dev) (f : Vfm → Vfm) : (d.upVf f).smv = d.smv := rfl
@[simp] theorem Dev.upVf_tr (d : Dev) (f : Vfm → Vfm) : (d.upVf f).tr = d.tr := rfl
@[simp] theorem Dev.upVf_vf (d : Dev) (f : Vfm → Vfm) : (d.upVf f).vf = f d.vf := rfl

/-! ## `emit` -/

@[simp] theorem Dev.emit_out (d : Dev) (m : Output) : (d.emit m).out = d.out ++ [m] := rfl
@[simp] theorem Dev.emit_fresh (d : Dev) (m : Output) : (d.emit m).fresh = d.fresh := rfl
@[simp] theorem Dev.emit_reg (d : Dev) (m : Output) : (d.emit m).reg = d.reg := rfl
@[simp] theorem Dev.emit_img (d : Dev) (m : Output) : (d.emit m).img = d.img := rfl
@[simp] theorem Dev.emit_tl (d : Dev) (m : Output) : (d.emit m).tl = d.tl := rfl
@[simp] theorem Dev.emit_mem (d : Dev) (m : Output) : (d.emit m).mem = d.mem := rfl
@[simp] theorem Dev.emit_cad (d : Dev) (m : Output) : (d.emit m).cad = d.cad := rfl
@[simp] theorem Dev.emit_ev (d : Dev) (m : Output) : (d.emit m).ev = d.ev := rfl
@[simp] theorem Dev.emit_dtu (d : Dev) (m : Output) : (d.emit m).dtu = d.dtu := rfl
@[simp] theorem Dev.emit_pw (d : Dev) (m : Output) : (d.emit m).pw = d.pw := rfl
@[simp] theorem Dev.emit_bst (d : Dev) (m : Output) : (d.emit m).bst = d.bst := rfl
@[simp] theorem Dev.emit_hif (d : Dev) (m : Output) : (d.emit m).hif = d.hif := rfl
@[simp] theorem Dev.emit_wq (d : Dev) (m : Output) : (d.emit m).wq = d.wq := rfl
@[simp] theorem Dev.emit_ras (d : Dev) (m : Output) : (d.emit m).ras = d.ras := rfl
@[simp] theorem Dev.emit_mg (d : Dev) (m : Output) : (d.emit m).mg = d.mg := rfl
@[simp] theorem Dev.emit_onf (d : Dev) (m : Output) : (d.emit m).onf = d.onf := rfl
@[simp] theorem Dev.emit_xdu (d : Dev) (m : Output) : (d.emit m).xdu = d.xdu := rfl
@[simp] theorem Dev.emit_clk (d : Dev) (m : Output) : (d.emit m).clk = d.clk := rfl
@[simp] theorem Dev.emit_eth (d : Dev) (m : Output) : (d.emit m).eth = d.eth := rfl
@[simp] theorem Dev.emit_txs (d : Dev) (m : Output) : (d.emit m).txs = d.txs := rfl
@[simp] theorem Dev.emit_qpe (d : Dev) (m : Output) : (d.emit m).qpe = d.qpe := rfl
@[simp] theorem Dev.emit_smv (d : Dev) (m : Output) : (d.emit m).smv = d.smv := rfl
@[simp] theorem Dev.emit_tr (d : Dev) (m : Output) : (d.emit m).tr = d.tr := rfl
@[simp] theorem Dev.emit_vf (d : Dev) (m : Output) : (d.emit m).vf = d.vf := rfl

/-! ## `bump` -/

@[simp] theorem Dev.bump_out (d : Dev)  : (d.bump).out = d.out := rfl
@[simp] theorem Dev.bump_fresh (d : Dev)  : (d.bump).fresh = d.fresh + 1 := rfl
@[simp] theorem Dev.bump_reg (d : Dev)  : (d.bump).reg = d.reg := rfl
@[simp] theorem Dev.bump_img (d : Dev)  : (d.bump).img = d.img := rfl
@[simp] theorem Dev.bump_tl (d : Dev)  : (d.bump).tl = d.tl := rfl
@[simp] theorem Dev.bump_mem (d : Dev)  : (d.bump).mem = d.mem := rfl
@[simp] theorem Dev.bump_cad (d : Dev)  : (d.bump).cad = d.cad := rfl
@[simp] theorem Dev.bump_ev (d : Dev)  : (d.bump).ev = d.ev := rfl
@[simp] theorem Dev.bump_dtu (d : Dev)  : (d.bump).dtu = d.dtu := rfl
@[simp] theorem Dev.bump_pw (d : Dev)  : (d.bump).pw = d.pw := rfl
@[simp] theorem Dev.bump_bst (d : Dev)  : (d.bump).bst = d.bst := rfl
@[simp] theorem Dev.bump_hif (d : Dev)  : (d.bump).hif = d.hif := rfl
@[simp] theorem Dev.bump_wq (d : Dev)  : (d.bump).wq = d.wq := rfl
@[simp] theorem Dev.bump_ras (d : Dev)  : (d.bump).ras = d.ras := rfl
@[simp] theorem Dev.bump_mg (d : Dev)  : (d.bump).mg = d.mg := rfl
@[simp] theorem Dev.bump_onf (d : Dev)  : (d.bump).onf = d.onf := rfl
@[simp] theorem Dev.bump_xdu (d : Dev)  : (d.bump).xdu = d.xdu := rfl
@[simp] theorem Dev.bump_clk (d : Dev)  : (d.bump).clk = d.clk := rfl
@[simp] theorem Dev.bump_eth (d : Dev)  : (d.bump).eth = d.eth := rfl
@[simp] theorem Dev.bump_txs (d : Dev)  : (d.bump).txs = d.txs := rfl
@[simp] theorem Dev.bump_qpe (d : Dev)  : (d.bump).qpe = d.qpe := rfl
@[simp] theorem Dev.bump_smv (d : Dev)  : (d.bump).smv = d.smv := rfl
@[simp] theorem Dev.bump_tr (d : Dev)  : (d.bump).tr = d.tr := rfl
@[simp] theorem Dev.bump_vf (d : Dev)  : (d.bump).vf = d.vf := rfl

/-! ## `regSet` -/

@[simp] theorem Dev.regSet_out (d : Dev) (off : Nat) (v : W64) : (d.regSet off v).out = d.out := rfl
@[simp] theorem Dev.regSet_fresh (d : Dev) (off : Nat) (v : W64) : (d.regSet off v).fresh = d.fresh := rfl
@[simp] theorem Dev.regSet_reg (d : Dev) (off : Nat) (v : W64) : (d.regSet off v).reg = { d.reg with vals := d.reg.vals.set off v } := rfl
@[simp] theorem Dev.regSet_img (d : Dev) (off : Nat) (v : W64) : (d.regSet off v).img = d.img := rfl
@[simp] theorem Dev.regSet_tl (d : Dev) (off : Nat) (v : W64) : (d.regSet off v).tl = d.tl := rfl
@[simp] theorem Dev.regSet_mem (d : Dev) (off : Nat) (v : W64) : (d.regSet off v).mem = d.mem := rfl
@[simp] theorem Dev.regSet_cad (d : Dev) (off : Nat) (v : W64) : (d.regSet off v).cad = d.cad := rfl
@[simp] theorem Dev.regSet_ev (d : Dev) (off : Nat) (v : W64) : (d.regSet off v).ev = d.ev := rfl
@[simp] theorem Dev.regSet_dtu (d : Dev) (off : Nat) (v : W64) : (d.regSet off v).dtu = d.dtu := rfl
@[simp] theorem Dev.regSet_pw (d : Dev) (off : Nat) (v : W64) : (d.regSet off v).pw = d.pw := rfl
@[simp] theorem Dev.regSet_bst (d : Dev) (off : Nat) (v : W64) : (d.regSet off v).bst = d.bst := rfl
@[simp] theorem Dev.regSet_hif (d : Dev) (off : Nat) (v : W64) : (d.regSet off v).hif = d.hif := rfl
@[simp] theorem Dev.regSet_wq (d : Dev) (off : Nat) (v : W64) : (d.regSet off v).wq = d.wq := rfl
@[simp] theorem Dev.regSet_ras (d : Dev) (off : Nat) (v : W64) : (d.regSet off v).ras = d.ras := rfl
@[simp] theorem Dev.regSet_mg (d : Dev) (off : Nat) (v : W64) : (d.regSet off v).mg = d.mg := rfl
@[simp] theorem Dev.regSet_onf (d : Dev) (off : Nat) (v : W64) : (d.regSet off v).onf = d.onf := rfl
@[simp] theorem Dev.regSet_xdu (d : Dev) (off : Nat) (v : W64) : (d.regSet off v).xdu = d.xdu := rfl
@[simp] theorem Dev.regSet_clk (d : Dev) (off : Nat) (v : W64) : (d.regSet off v).clk = d.clk := rfl
@[simp] theorem Dev.regSet_eth (d : Dev) (off : Nat) (v : W64) : (d.regSet off v).eth = d.eth := rfl
@[simp] theorem Dev.regSet_txs (d : Dev) (off : Nat) (v : W64) : (d.regSet off v).txs = d.txs := rfl
@[simp] theorem Dev.regSet_qpe (d : Dev) (off : Nat) (v : W64) : (d.regSet off v).qpe = d.qpe := rfl
@[simp] theorem Dev.regSet_smv (d : Dev) (off : Nat) (v : W64) : (d.regSet off v).smv = d.smv := rfl
@[simp] theorem Dev.regSet_tr (d : Dev) (off : Nat) (v : W64) : (d.regSet off v).tr = d.tr := rfl
@[simp] theorem Dev.regSet_vf (d : Dev) (off : Nat) (v : W64) : (d.regSet off v).vf = d.vf := rfl

/-! ## `fset` -/

@[simp] theorem Dev.fset_out (d : Dev) (r : RegField) (v : Nat) : (d.fset r v).out = d.out := rfl
@[simp] theorem Dev.fset_fresh (d : Dev) (r : RegField) (v : Nat) : (d.fset r v).fresh = d.fresh := rfl
@[simp] theorem Dev.fset_img (d : Dev) (r : RegField) (v : Nat) : (d.fset r v).img = d.img := rfl
@[simp] theorem Dev.fset_tl (d : Dev) (r : RegField) (v : Nat) : (d.fset r v).tl = d.tl := rfl
@[simp] theorem Dev.fset_mem (d : Dev) (r : RegField) (v : Nat) : (d.fset r v).mem = d.mem := rfl
@[simp] theorem Dev.fset_cad (d : Dev) (r : RegField) (v : Nat) : (d.fset r v).cad = d.cad := rfl
@[simp] theorem Dev.fset_ev (d : Dev) (r : RegField) (v : Nat) : (d.fset r v).ev = d.ev := rfl
@[simp] theorem Dev.fset_dtu (d : Dev) (r : RegField) (v : Nat) : (d.fset r v).dtu = d.dtu := rfl
@[simp] theorem Dev.fset_pw (d : Dev) (r : RegField) (v : Nat) : (d.fset r v).pw = d.pw := rfl
@[simp] theorem Dev.fset_bst (d : Dev) (r : RegField) (v : Nat) : (d.fset r v).bst = d.bst := rfl
@[simp] theorem Dev.fset_hif (d : Dev) (r : RegField) (v : Nat) : (d.fset r v).hif = d.hif := rfl
@[simp] theorem Dev.fset_wq (d : Dev) (r : RegField) (v : Nat) : (d.fset r v).wq = d.wq := rfl
@[simp] theorem Dev.fset_ras (d : Dev) (r : RegField) (v : Nat) : (d.fset r v).ras = d.ras := rfl
@[simp] theorem Dev.fset_mg (d : Dev) (r : RegField) (v : Nat) : (d.fset r v).mg = d.mg := rfl
@[simp] theorem Dev.fset_onf (d : Dev) (r : RegField) (v : Nat) : (d.fset r v).onf = d.onf := rfl
@[simp] theorem Dev.fset_xdu (d : Dev) (r : RegField) (v : Nat) : (d.fset r v).xdu = d.xdu := rfl
@[simp] theorem Dev.fset_clk (d : Dev) (r : RegField) (v : Nat) : (d.fset r v).clk = d.clk := rfl
@[simp] theorem Dev.fset_eth (d : Dev) (r : RegField) (v : Nat) : (d.fset r v).eth = d.eth := rfl
@[simp] theorem Dev.fset_txs (d : Dev) (r : RegField) (v : Nat) : (d.fset r v).txs = d.txs := rfl
@[simp] theorem Dev.fset_qpe (d : Dev) (r : RegField) (v : Nat) : (d.fset r v).qpe = d.qpe := rfl
@[simp] theorem Dev.fset_smv (d : Dev) (r : RegField) (v : Nat) : (d.fset r v).smv = d.smv := rfl
@[simp] theorem Dev.fset_tr (d : Dev) (r : RegField) (v : Nat) : (d.fset r v).tr = d.tr := rfl
@[simp] theorem Dev.fset_vf (d : Dev) (r : RegField) (v : Nat) : (d.fset r v).vf = d.vf := rfl

/-! ## `setTile` -/

@[simp] theorem Dev.setTile_out (d : Dev) (t : Nat) (x : Tile) : (d.setTile t x).out = d.out := rfl
@[simp] theorem Dev.setTile_fresh (d : Dev) (t : Nat) (x : Tile) : (d.setTile t x).fresh = d.fresh := rfl
@[simp] theorem Dev.setTile_reg (d : Dev) (t : Nat) (x : Tile) : (d.setTile t x).reg = d.reg := rfl
@[simp] theorem Dev.setTile_img (d : Dev) (t : Nat) (x : Tile) : (d.setTile t x).img = d.img := rfl
@[simp] theorem Dev.setTile_tl (d : Dev) (t : Nat) (x : Tile) : (d.setTile t x).tl = { d.tl with tiles := d.tl.tiles.set t x } := rfl
@[simp] theorem Dev.setTile_mem (d : Dev) (t : Nat) (x : Tile) : (d.setTile t x).mem = d.mem := rfl
@[simp] theorem Dev.setTile_cad (d : Dev) (t : Nat) (x : Tile) : (d.setTile t x).cad = d.cad := rfl
@[simp] theorem Dev.setTile_ev (d : Dev) (t : Nat) (x : Tile) : (d.setTile t x).ev = d.ev := rfl
@[simp] theorem Dev.setTile_dtu (d : Dev) (t : Nat) (x : Tile) : (d.setTile t x).dtu = d.dtu := rfl
@[simp] theorem Dev.setTile_pw (d : Dev) (t : Nat) (x : Tile) : (d.setTile t x).pw = d.pw := rfl
@[simp] theorem Dev.setTile_bst (d : Dev) (t : Nat) (x : Tile) : (d.setTile t x).bst = d.bst := rfl
@[simp] theorem Dev.setTile_hif (d : Dev) (t : Nat) (x : Tile) : (d.setTile t x).hif = d.hif := rfl
@[simp] theorem Dev.setTile_wq (d : Dev) (t : Nat) (x : Tile) : (d.setTile t x).wq = d.wq := rfl
@[simp] theorem Dev.setTile_ras (d : Dev) (t : Nat) (x : Tile) : (d.setTile t x).ras = d.ras := rfl
@[simp] theorem Dev.setTile_mg (d : Dev) (t : Nat) (x : Tile) : (d.setTile t x).mg = d.mg := rfl
@[simp] theorem Dev.setTile_onf (d : Dev) (t : Nat) (x : Tile) : (d.setTile t x).onf = d.onf := rfl
@[simp] theorem Dev.setTile_xdu (d : Dev) (t : Nat) (x : Tile) : (d.setTile t x).xdu = d.xdu := rfl
@[simp] theorem Dev.setTile_clk (d : Dev) (t : Nat) (x : Tile) : (d.setTile t x).clk = d.clk := rfl
@[simp] theorem Dev.setTile_eth (d : Dev) (t : Nat) (x : Tile) : (d.setTile t x).eth = d.eth := rfl
@[simp] theorem Dev.setTile_txs (d : Dev) (t : Nat) (x : Tile) : (d.setTile t x).txs = d.txs := rfl
@[simp] theorem Dev.setTile_qpe (d : Dev) (t : Nat) (x : Tile) : (d.setTile t x).qpe = d.qpe := rfl
@[simp] theorem Dev.setTile_smv (d : Dev) (t : Nat) (x : Tile) : (d.setTile t x).smv = d.smv := rfl
@[simp] theorem Dev.setTile_tr (d : Dev) (t : Nat) (x : Tile) : (d.setTile t x).tr = d.tr := rfl
@[simp] theorem Dev.setTile_vf (d : Dev) (t : Nat) (x : Tile) : (d.setTile t x).vf = d.vf := rfl

end Sys2Proof.Machine
end

