-- ==== Sys2Proof/Laws/Registers.lean ====
section
/-! SUPPORT. The laws of registers: a register or field that is written reads back, and every other one keeps its value. -/
namespace Sys2Proof.Machine
open Sys2Proof

@[simp] theorem Dev.regGet_regSet_same (d : Dev) (off : Nat) (v : W64) : (d.regSet off v).regGet off = v :=
  Tab.get_set_same _ _ _ _

theorem Dev.regGet_regSet_other (d : Dev) (off i : Nat) (v : W64) (h : i ≠ off) : (d.regSet off v).regGet i = d.regGet i :=
  Tab.get_set_other _ _ _ _ _ h

/-- A field that is written holds the value, cut to its width. -/
theorem Dev.fget_fset_same (d : Dev) (f : RegField) (v : Nat) (h : f.lo + f.w ≤ 64) : (d.fset f v).fget f = v % 2 ^ f.w := by
  unfold Dev.fget Dev.fset
  rw [Dev.regGet_regSet_same, bvFld_bvSet_same _ _ _ _ h]

/-- A field of another register keeps its value. -/
theorem Dev.fget_fset_off (d : Dev) (f g : RegField) (v : Nat) (h : g.off ≠ f.off) : (d.fset f v).fget g = d.fget g := by
  unfold Dev.fget Dev.fset
  rw [Dev.regGet_regSet_other _ _ _ _ h]

/-- Another field of the same register keeps its value. -/
theorem Dev.fget_fset_disjoint (d : Dev) (f g : RegField) (v : Nat) (ho : g.off = f.off) (hg : g.lo + g.w ≤ 64)
    (h : g.lo + g.w ≤ f.lo ∨ f.lo + f.w ≤ g.lo) : (d.fset f v).fget g = d.fget g := by
  unfold Dev.fget Dev.fset
  rw [ho, Dev.regGet_regSet_same, bvFld_bvSet_disjoint _ _ _ _ _ _ hg h]

/-- What the parts of the block beside the registers hold does not bear on a register. -/
theorem Dev.fget_congr (d e : Dev) (f : RegField) (h : d.reg = e.reg) : d.fget f = e.fget f := by
  unfold Dev.fget Dev.regGet
  rw [h]

end Sys2Proof.Machine
end

