-- ==== Sys2Proof/Laws/Memory.lean ====
section
/-! SUPPORT. Every operation that stores to memory keeps its canonical form, and those that only count leave it alone. -/
namespace Sys2Proof.Machine
open Sys2Proof

/-- The memory at reset has the canonical form. -/
theorem State.reset_ram_wf : State.reset.dev.mem.ram.wf = true := by decide

/-- A fold of steps that keep a property keeps it. -/
theorem foldl_keeps {α β : Type} (P : β → Prop) (f : β → α → β) (hf : ∀ b a, P b → P (f b a)) (l : List α) (b : β) (h : P b) :
    P (l.foldl f b) := by
  induction l generalizing b with
  | nil => exact h
  | cons a r ih => exact ih _ (hf _ _ h)

theorem Dev.rawStore_wf (d : Dev) (a : Nat) (b : Byte) (h : d.mem.ram.wf = true) : (d.rawStore a b).mem.ram.wf = true := by
  unfold Dev.rawStore
  split
  · exact Mem.write_wf _ _ _ h
  · exact h

theorem Dev.rawStoreN_wf (d : Dev) (a : Nat) (l : List Byte) (h : d.mem.ram.wf = true) : (d.rawStoreN a l).mem.ram.wf = true := by
  induction l generalizing d a with
  | nil => exact h
  | cons b r ih => exact ih _ _ (Dev.rawStore_wf d a b h)

theorem Dev.memStore_wf (d : Dev) (a : Nat) (b : Byte) (h : d.mem.ram.wf = true) : (d.memStore a b).mem.ram.wf = true := by
  unfold Dev.memStore
  split
  · split
    · exact Dev.rawStoreN_wf _ _ _ h
    · exact h
  · exact Dev.rawStore_wf _ _ _ h

theorem Dev.memStoreN_wf (d : Dev) (a : Nat) (l : List Byte) (h : d.mem.ram.wf = true) : (d.memStoreN a l).mem.ram.wf = true := by
  induction l generalizing d a with
  | nil => exact h
  | cons b r ih => exact ih _ _ (Dev.memStore_wf d a b h)

@[simp] theorem Dev.healUnits_ram (d : Dev) (a n : Nat) : (d.healUnits a n).mem.ram = d.mem.ram := by
  unfold Dev.healUnits
  split <;> rfl

@[simp] theorem Dev.noteSub_ram (d : Dev) (w : Bool) (a : Nat) : (d.noteSub w a).mem.ram = d.mem.ram := by
  unfold Dev.noteSub
  split <;> rfl

theorem Dev.backInvalidate_mem (d : Dev) (a n : Nat) : (d.backInvalidate a n).mem = d.mem := by
  unfold Dev.backInvalidate
  exact foldl_keeps (fun e : Dev => e.mem = d.mem) _ (fun b x h => by simpa using h) _ _ rfl

theorem Dev.tierBlocks_mem (d : Dev) (w : Bool) (a n : Nat) : (d.tierBlocks w a n).mem = d.mem := by
  unfold Dev.tierBlocks
  split <;> rfl

/-- Counting an access stores nothing. -/
@[simp] theorem Dev.noteAccess_ram (d : Dev) (w : Bool) (a n : Nat) : (d.noteAccess w a n).mem.ram = d.mem.ram := by
  unfold Dev.noteAccess
  generalize hx : (if d.hif.hostLines = [] then d else d.backInvalidate a n) = x
  have hm : x.mem = d.mem := by
    rw [← hx]
    split
    · rfl
    · exact Dev.backInvalidate_mem d a n
  have h1 : (x.tierBlocks w a n).mem = d.mem := by rw [Dev.tierBlocks_mem, hm]
  show (if n = 0 ∨ (x.tierBlocks w a n).mem.blk.ents = [] then x.tierBlocks w a n
    else (subUnits a n).foldl (fun d x => d.noteSub w x) (x.tierBlocks w a n)).mem.ram = d.mem.ram
  split
  · rw [h1]
  · exact foldl_keeps (fun e : Dev => e.mem.ram = d.mem.ram) _ (fun b x h => by simpa using h) _ _ (by rw [h1])

theorem Dev.storeSound_wf (d : Dev) (a : Nat) (bs : List Byte) (h : d.mem.ram.wf = true) : (d.storeSound a bs).mem.ram.wf = true := by
  unfold Dev.storeSound
  split
  · exact Dev.memStoreN_wf _ _ _ h
  · rw [Dev.healUnits_ram]
    refine foldl_keeps (fun e : Dev => e.mem.ram.wf = true) _ (fun b x hb => ?_) _ _ h
    split
    · exact hb
    · exact Dev.memStore_wf _ _ _ hb

/-- A write of device memory keeps the canonical form. -/
theorem Dev.memWrite_wf (d : Dev) (a : Nat) (bs : List Byte) (h : d.mem.ram.wf = true) : (d.memWrite a bs).mem.ram.wf = true := by
  unfold Dev.memWrite
  split
  · exact h
  · rw [Dev.noteAccess_ram]
    exact Dev.storeSound_wf _ _ _ h

theorem Dev.clearRam_wf (d : Dev) (p n : Nat) (h : d.mem.ram.wf = true) : (d.clearRam p n).mem.ram.wf = true := Mem.clear_wf _ _ _ h

theorem Dev.copyPlace_wf (d : Dev) (src dst n : Nat) (h : d.mem.ram.wf = true) : (d.copyPlace src dst n).mem.ram.wf = true :=
  foldl_keeps (fun m : Mem => m.wf = true) _ (fun _ _ hm => Mem.write_wf _ _ _ hm) _ _ (Mem.clear_wf _ _ _ h)

theorem Dev.placeStore_wf (d : Dev) (a : Nat) (l : List Byte) (h : d.mem.ram.wf = true) : (d.placeStore a l).mem.ram.wf = true := by
  induction l generalizing d a with
  | nil => exact h
  | cons b r ih =>
    unfold Dev.placeStore
    refine ih _ _ ?_
    split
    · exact Mem.write_wf _ _ _ h
    · exact h

theorem Dev.clearSram_wf (d : Dev) (h : d.mem.ram.wf = true) : d.clearSram.mem.ram.wf = true := by
  rw [Mem.wf_iff] at h ⊢
  exact ⟨h.1.filter _, fun p hp => h.2 p (List.mem_filter.1 hp).1⟩

end Sys2Proof.Machine
end

