-- ==== Sys2Proof/Laws/Tile.lean ====
section
/-! SUPPORT. How an instruction issues and ends: one lemma for each way. -/
namespace Sys2Proof.Machine
open Sys2Proof

@[simp] theorem Dev.tile_bump (d : Dev) (t : Nat) : d.bump.tile t = d.tile t := rfl

@[simp] theorem Dev.tile_setTile_same (d : Dev) (t : Nat) (x : Tile) : (d.setTile t x).tile t = x := Tab.get_set_same _ _ _ _

theorem Dev.tile_setTile_other (d : Dev) (t u : Nat) (x : Tile) (h : u ≠ t) : (d.setTile t x).tile u = d.tile u :=
  Tab.get_set_other _ _ _ _ _ h

/-- A tile that is not RUNNING issues nothing. -/
theorem Dev.issue_stopped (d : Dev) (t : Nat) (h : Head) (k : IssueKind) (body : Dev → TRes) (hr : (d.tile t).phase ≠ .running) :
    d.issue t h k body = d := by
  unfold Dev.issue
  rw [if_pos hr]

/-- An instruction that is not legal, or a variant operation that is not allowed, raises the illegal-instruction exception. -/
theorem Dev.issue_illegal (d : Dev) (t : Nat) (h : Head) (k : IssueKind) (body : Dev → TRes) (hr : (d.tile t).phase = .running)
    (hk : (!k.legal || (k.variant && !d.variantAllowed t)) = true) : d.issue t h k body = d.bump.tileTrap t .illegalInstruction 0 := by
  unfold Dev.issue
  rw [if_neg (not_not.2 hr)]
  simp only
  rw [if_pos hk]

/-- A scalar instruction under a false predicate goes on in sequence. -/
theorem Dev.issue_skips (d : Dev) (t : Nat) (h : Head) (k : IssueKind) (body : Dev → TRes) (hr : (d.tile t).phase = .running)
    (hk : (!k.legal || (k.variant && !d.variantAllowed t)) = false) (hm : (!k.vector && !((d.tile t).mask h).getLsbD 0) = true) :
    d.issue t h k body = d.bump.advance t := by
  unfold Dev.issue
  rw [if_neg (not_not.2 hr)]
  simp only
  rw [if_neg (by rw [hk]; decide), if_pos hm]

/-- An instruction that acts ends as its body says. -/
theorem Dev.issue_acts (d : Dev) (t : Nat) (h : Head) (k : IssueKind) (body : Dev → TRes) (hr : (d.tile t).phase = .running)
    (hk : (!k.legal || (k.variant && !d.variantAllowed t)) = false) (hm : (!k.vector && !((d.tile t).mask h).getLsbD 0) = false) :
    d.issue t h k body = d.bump.finish t (body d.bump) := by
  unfold Dev.issue
  rw [if_neg (not_not.2 hr)]
  simp only
  rw [if_neg (by rw [hk]; decide), if_neg (by rw [hm]; decide)]

/-- An instruction that acts answers the state its body's outcome leaves. -/
theorem onDev_issue (s : State) (t : Fin 512) (h : Head) (k : IssueKind) (body : Dev → TRes) (hr : Runs s.dev t) (hl : k.legal = true)
    (hv : k.variant = false ∨ s.dev.variantAllowed t = true) (hm : k.vector = true ∨ ((s.dev.tile t).mask h).getLsbD 0 = true) :
    onDev s (fun d => d.issue t h k body) = .next (s.withDev (s.dev.bump.finish t (body s.dev.bump))) := by
  have h1 : (!k.legal || (k.variant && !s.dev.variantAllowed t)) = false := by
    rcases hv with hv | hv <;> rw [hl, hv] <;> cases k.variant <;> rfl
  have h2 : (!k.vector && !((s.dev.tile t).mask h).getLsbD 0) = false := by
    rcases hm with hm | hm <;> rw [hm] <;> cases k.vector <;> rfl
  exact congrArg (fun d => Host.Outcome.next (s.withDev d)) (Dev.issue_acts s.dev t h k body hr h1 h2)

end Sys2Proof.Machine
end

