-- ==== Sys2Proof/WellFormed.lean ====
section
/-! DEFINITION. The commands that the spec lets anyone send: checks on the operands whose types are wider than the
field, window or message they stand for.  Every meaning is total, so `exec` does not ask for them. -/
namespace Sys2Proof

/-- The bytes of BAR0 (R304). -/
def bar0Bytes (fn : Nat) : Nat := if fn = 0 then 0x4000000 else 0x100000

/-- The bytes of BAR2 (R304). -/
def bar2Bytes (fn : Nat) : Nat := if fn = 0 then 0x400000 else 0x40000

/-- A value fits in `size` bytes. -/
def fitsBytes (size x : Nat) : Bool := decide (x < 2 ^ (8 * size))

/-- An access of `size` bytes lies in a function's BAR0. -/
def inBar0 (fn off size : Nat) : Bool := decide (1 ≤ size) && decide (size ≤ 8) && decide (off + size ≤ bar0Bytes fn)

/-- A half of a register of PF0: a 32-bit access, aligned (R16). -/
def halfOk (off : Nat) : Bool := decide (off % 4 = 0) && inBar0 0 off 4

/-- A host read brings at most `n` bytes. -/
def readFits (n : Nat) : HostRead → Bool
  | .ok bs => decide (bs.length ≤ n)
  | _ => true

/-- A read of an image or a state image brings a string whose listed bytes lie inside it. -/
def blobFits : HostBlob → Bool
  | .ok b => b.mem.cells.all (fun c => decide (c.1 < b.len))
  | _ => true

/-- A frame number of pod time: 64 bits of nanoseconds in frames of 1,024 ns (R252). -/
def frameOk (f : Nat) : Bool := decide (f < 2 ^ 54)

/-- The elements that a power-on group tests are told apart (R561). -/
def failsOk (l : List BistFail) : Bool := decide ((l.map (·.elem)).Nodup) && l.all (fun f => decide (f.reason ≠ 0))

/-- A command can be sent.  A command that is not named here has operands whose types hold just the values of its fields. -/
def Instr.wellFormed : Instr → Bool
  | .registerWrite fn off size val => inBar0 fn off size && fitsBytes size val.toNat
  | .rcRead fn off size => inBar0 fn off size
  | .lowerHalfWrite off _ => halfOk off && decide (off % 8 = 0)
  | .upperHalfWrite off _ => halfOk off && decide (off % 8 = 4)
  | .lowerHalfRead off => halfOk off && decide (off % 8 = 0)
  | .imageCopyDone rd => blobFits rd
  | .restore _ rd => blobFits rd
  | .placementEpochEnd takers => decide ((takers.map (·.1)).Nodup) && takers.all (fun p => decide (p.2 < 64))
  | .place _ _ _ _ _ frame => frameOk frame
  | .switch _ _ frame _ _ _ => frameOk frame
  | .zoneCounterWrite _ off size _ => decide (1 ≤ size) && decide (255 * 134217728 ≤ off) && decide (off + size ≤ 256 * 134217728)
  | .peerWrite _ off bytes _ => decide (1 ≤ bytes.length) && decide (bytes.length ≤ 512) && decide (off + bytes.length ≤ 256 * 134217728)
  | .bar4Read _ off => decide (off < 256 * 134217728)
  | .doorbell fn off size val => decide (1 ≤ size) && decide (size ≤ 8) && decide (off + size ≤ bar2Bytes fn) && fitsBytes size val.toNat
  | .podtime _ _ _ _ _ hops => decide (hops < 64)
  | .entryFetch _ rd => readFits 64 rd
  | .refetch _ rd => readFits 64 rd
  | .tileDmaDone _ _ rd => readFits 1099511627776 rd
  | .import _ rd => readFits 88 rd
  | .unitDone _ rd => readFits 65536 rd
  | .debugToken rd => readFits 7920 rd
  | .programOwnerKey rd => readFits 32 rd
  | .bistGroupDone _ fails _ => failsOk fails
  | _ => true

end Sys2Proof
end

