-- ==== Sys2Proof/Tests/Slice0.lean ====
section
/-! SUPPORT. Witnesses: states and operands that meet the hypotheses of each obligation that has any, at boundary values where a clause
has a range; ill-formed commands, which the check refuses; and words of tile instructions written out from R121, R122 and R125. -/
namespace Sys2Proof.Tests
open Sys2Proof Sys2Proof.Machine
set_option exponentiation.threshold 2100
set_option maxRecDepth 40000
set_option Elab.async false

/-! ## States that the witnesses use -/

/-- A section of `len` bytes from (offset, bytes, value) entries. -/
def mkSec (len : Nat) (l : List (Nat × Nat × Nat)) : Blob := ⟨len, l.foldl (fun m x => m.writeLE x.1 x.2.1 x.2.2) Mem.empty⟩

/-- A state with this block and no command waiting. -/
def wOf (d : Dev) : State := ⟨[], d⟩

/-- Out of reset, with nothing committed. -/
def dUp : Dev := Dev.reset.upPw (fun p => { p with rails := true, pwrok := true, cold := false, kettle := true, initDone := true })

/-- The TILE_PROGRAMS entry of tile 3 of the witnesses: 100 words, barriers 1 and 2, send channels 1 and 2 to tile 3; tile 4 joins
barrier 2. -/
def progs (len barriers : Nat) : Blob :=
  mkSec 65536 [(384, 1, 1), (384 + 0x10, 4, len), (384 + 0x20, 8, barriers), (384 + 0x42, 2, 0x8003), (384 + 0x44, 2, 0x8803),
    (512, 1, 1), (512 + 0x20, 8, 4)]

/-- A committed image: partition 0 owns cluster 0, and tile 3 has a program. -/
def dImg : Dev :=
  (dUp.upImg (fun i => { i with
    secs := ⟨[(secPartitionMap, mkSec 1600 [(64, 4, 1), (68, 1, 1)]), (secClusterRoles, mkSec 32 [(0, 1, 1)]),
              (secTilePrograms, progs 100 6), (secTierBudgets, mkSec 4160 [(0, 4, 128), (4, 4, 128)])]⟩ })).fset Reg.GLB_IMAGE_INFO_COMMITTED 1

/-- The head of an instruction without a predicate. -/
def hTrue : Head := ⟨0, false⟩

/-- Tile 3 as it runs: registers for addresses, and a DMA descriptor in s8 to s15. -/
def xRun : Tile :=
  { Tile.reset with phase := .running, s := ⟨[(2, 16), (4, 2), (6, 64), (7, 32), (8, 1), (10, 4096), (12, 64), (16, 9)]⟩ }

/-- Tile 3 runs. -/
def wTile : State := wOf (dImg.setTile 3 xRun)
/-- Its call stack and loop records are full. -/
def wDeep : State := wOf (dImg.setTile 3 { xRun with calls := 5 :: List.replicate 7 6, loops := List.replicate 4 ⟨0, 90, 2, 8⟩ })
/-- At the end of a loop's body, with iterations left. -/
def wLoop : State := wOf (dImg.setTile 3 { xRun with pc := 3, loops := [⟨1, 4, 5, 0⟩] })
/-- At the end of a loop's last iteration. -/
def wLast : State := wOf (dImg.setTile 3 { xRun with pc := 3, loops := [⟨1, 4, 1, 0⟩] })
/-- At the last instruction of its program. -/
def wEnd : State := wOf (dImg.setTile 3 { xRun with pc := 99 })
/-- A matrix operation on accumulator tile 1 is not ready. -/
def wPend : State := wOf (dImg.setTile 3 { xRun with pend := ⟨[(1, ⟨[1], 0, true⟩)]⟩ })
/-- An INT8 matrix operation with K = 32. -/
def wMma : FmtM := ⟨1, 0, 5, 6, 0, 0, 9, 9, false, false, false, false, 2⟩
/-- DMA context 1 runs. -/
def wDma : State := wOf (dImg.setTile 3 { xRun with dma := ⟨[(1, ⟨true, false, xRun.regs512 8, .ok⟩)]⟩ })
/-- The partition allows variant operations, and messages and barrier arrivals are there. -/
def wMail : State :=
  wOf ((dImg.upImg (fun i => { i with wholeVariant := true })).setTile 3
    { xRun with s := ⟨[(2, 16), (10, 0x1000000000000000)]⟩, cred := ⟨[(2, 0)]⟩, mbox := ⟨[(2, [⟨.engine 9, 4, 77⟩])]⟩ } |>.upTl (fun t =>
    { t with noc := [⟨some (3, 2), none, .tile 4 0, 0, 0, 5⟩, ⟨some (3, 5), none, .tile 4 0, 0, 9, 6⟩] }))
/-- Tiles 0 to 6 in the states that end a run. -/
def wEnds : State :=
  wOf ((dImg.upTl (fun t => { t with tiles := ⟨[(0, { xRun with phase := .halting }), (1, { xRun with phase := .stopping }),
    (2, { xRun with wait := some (.bar 3) }), (3, { xRun with phase := .halted }), (4, { xRun with wait := some (.credit 3) }),
    (5, { xRun with wait := some (.dmaWait 3) }), (6, { xRun with phase := .stopped })]⟩ })).upImg (fun i => { i with startDue := true })
    |>.fset (Reg.CLU_STALL_LIMIT_LIMIT_US 0) 7)

/-- A committed image with a HOME region of partition 0 in LP5X and a POOL region in HBM3E. -/
def dMem : Dev :=
  (dImg.upImg (fun i => { i with
    secs := i.secs.set secTierBudgets (mkSec 2176 [(0, 4, 128), (4, 4, 128), (64, 4, 4), (68, 4, 4), (76, 1, 10), (77, 1, 10), (78, 1, 10), (79, 1, 1),
      (2112, 1, 1), (2114, 1, 1), (2120, 8, 0x20000000000), (2128, 8, 0x20000000),
      (2144, 1, 2), (2146, 1, 2), (2152, 8, 0x10000000000), (2160, 8, 0x1000000)]) })).fset Reg.MEM_BLK_ADDR_BLOCK 1048576

/-- A block entry: home, copy, STATE, AT_COPY and the rank of the copy. -/
def mkBlk (home copy state : Nat) (at_ : Bool) : BitVec 128 :=
  bvSet (bvSet (bvSet (bvSet (0 : BitVec 128) 107 21 home) 86 21 copy) 77 3 state) 76 1 (b2n at_)

/-- A block command may register block 1,048,576. -/
def wMem : State := wOf dMem
/-- A block command names a block outside every HOME region. -/
def wMemBad : State := wOf (dMem.fset Reg.MEM_BLK_ADDR_BLOCK 5)
/-- Block 1,048,576 is registered as entry 0. -/
def wMemReg : State :=
  wOf (dMem.upMem (fun m => { m with blk := ⟨[(0, mkBlk 1048576 0 1 false)]⟩, cmd := some ⟨1048576, 1, .ok⟩ }))
/-- A promotion of entry 0 has been decided. -/
def wPlan : State :=
  wOf (dMem.upMem (fun m => { m with blk := ⟨[(0, mkBlk 1048576 0 1 false)]⟩, moves := [Move.plan [0] none 0 false] }))
/-- A started move of entry i to a pool block, with so many sub-units written since. -/
def wMove (i dirty : Nat) (held : Bool) : Move :=
  ⟨[i], none, 0, false, 0x10000000000 + i * 0x200000, true, false, 0, [512 * i], (List.range dirty).map (fun k => 512 * i + k), held, [], false⟩
/-- Moves in every stage of a copy, and an entry that its last reader leaves. -/
def wPass : State :=
  wOf (dMem.upMem (fun m => { m with
    blk := ⟨(List.range 4).map (fun i => (i, mkBlk (1048576 + i) 0 2 false)) ++ [(4, mkBlk 1048580 0x80004 3 true)]⟩,
    moves := [wMove 0 17 false, wMove 1 16 false, { wMove 2 17 false with passes := 3 }, wMove 3 0 true] }))
/-- A pod of four in which this is rank 0: link 0 is UP to rank 1. -/
def dPod : Dev :=
  (((dMem.upImg (fun i => { i with secs := i.secs.set secPodTopology (mkSec 512 [(0x01, 1, 4), (0x40, 1, 1), (0x43, 1, 1), (0x44, 1, 2), (0x47, 1, 1)]) })).fset
    Reg.ONF_POD_INFO_POD_SIZE 4).fset (Reg.ONF_LINKn_STATE_STATE 0) 3)
/-- Switches of experts are announced and acknowledged. -/
def wPod : State :=
  wOf ((dPod.upMem (fun m => { m with switches := [⟨5, 2, 99⟩], acks := ⟨[(6, [1, 2]), (7, [1])]⟩ })).upXdu (fun x => { x with home := ⟨[(5, 3)]⟩ }))
/-- A bad word in cluster memory 0, a cluster that is being cleared, and a temperature change of 10 °C. -/
def wBadWord : State :=
  wOf (((dMem.upMem (fun m => { m with bad := [0x400000000] })).fset Reg.MEM_CLEAR_BUSY_BUSY 4).fset Reg.PWR_TEMP_MAX_TEMP 960)
/-- A move whose writes are held and whose last sub-units are copied; no HBM3E channel is fenced. -/
def wHeld : State :=
  wOf ((dUp.upMem (fun m => { m with blk := ⟨[(3, mkBlk 1048579 0 2 false)]⟩, moves := [{ wMove 3 0 true with todo := [] }] })).upReg (fun r =>
    { r with vals := ⟨(List.range 8).map (fun h => (Reg.RAS_FENCED_HBMs h, 0))⟩ }))

/-- The block with a section of the image replaced. -/
def withSec (d : Dev) (k : Nat) (b : Blob) : Dev := d.upImg (fun i => { i with secs := i.secs.set k b })
/-- A descriptor of DISPATCH, or of another class, from (offset, bits, value) entries. -/
def mkDesc (l : List (Nat × Nat × Nat)) : BitVec 512 := l.foldl (fun x e => bvSet x e.1 e.2.1 e.2.2) 0
/-- An ACTIVE work queue of a class with entry 0 fetched. -/
def mkWq (cls fn : Nat) (x : BitVec 512) : Wq :=
  ⟨mkDesc [(0, 64, 0x10000), (64, 64, 0x8000), (128, 16, fn), (144, 8, cls), (152, 8, 6), (160, 8, 1), (168, 8, 1)], .active, 1, 0, 0, 0, [⟨0, x⟩], [], [], [], 0, false, false, false, false, []⟩
/-- A DISPATCH descriptor: one token of 256 FP32 values in a zone of cluster 0, TRIGGER on counter 3. -/
def mkDisp (threshold width : Nat) : BitVec 512 :=
  mkDesc [(0, 8, 0x50), (128, 64, 0x1000000000000100), (192, 32, threshold), (224, 32, 0x80000003), (256, 16, width), (272, 8, 1), (288, 16, 1),
    (384, 32, 257), (447, 1, 1), (448, 64, 0x1000)]
/-- A running dispatch context of the descriptor. -/
def mkCtx : XCtx :=
  { qid := 9, idx := 0, desc := mkDisp 5 256, fn := 0, part := 0, order := 0, gen := 1, seq := 0, tokens := 1, gates := [[(2, 0)]], waiting := [],
    deferred := [], late := false, nextBatch := 1, batches := [], outs := [], rows := [], inFlight := 0, flagSent := false }
/-- A region of PF0 and partition 0 with every right over device memory, at index 1, GEN 1. -/
def mkRegion : BitVec 256 := (bvSet (bvSet (bvSet (bvSet (bvSet 0 0 8 1) 8 8 1) 16 8 1) 24 8 255) 128 64 0x8000000)
/-- Partition 0 has a layer of 4 experts, of which cluster 0 serves expert 2, and a dispatch area. -/
def dXdu : Dev :=
  ((withSec (withSec (withSec dMem secClusterRoles (mkSec 32 [(0, 1, 2)])) secQueueShapes (mkSec 12608 [])) secExpertPlacement
    (mkSec 2048 [(0, 2, 1), (2, 2, 4), (8, 4, 0x1000), (12, 4, 0x100000)])).upXdu (fun x =>
    { x with ept := ⟨[(2, bvSet (bvSet (bvSet (bvSet 0 48 16 8) 64 32 1) 96 8 3) 104 8 2)]⟩ })).upDtu (fun t => { t with mr := ⟨[(1, mkRegion)]⟩ })
/-- Dispatch queues: 9 fires, 10 waits below its threshold and 11 has a bad body; the counter stands at 5. -/
def wXdu : State :=
  wOf ((dXdu.upWq (fun w => { w with queues := ⟨[(9, mkWq 2 0 (mkDisp 5 256)), (10, mkWq 2 0 (mkDisp 6 256)), (11, mkWq 2 0 (mkDisp 5 0))]⟩ })).fset
    (Reg.XDU_ZCNTz_COUNT 3) 5)
/-- Every context of die 0 is taken. -/
def wXduFull : State := wOf (wXdu.dev.upXdu (fun x => { x with ctxs := ⟨(List.range 64).map (fun k => (k, mkCtx))⟩ }))
/-- Two tokens of experts 2 and 3 have not left. -/
def wLeave : State := wOf (dXdu.upXdu (fun x => { x with ctxs := ⟨[(0, { mkCtx with waiting := [(2, [0, 1]), (3, [0])] })]⟩ }))
/-- Batch 7 runs on cluster 0 and batch 8 at rank 1; a done message with this epoch and status is here. -/
def wDone (epoch : BitVec 8) (status : Nat) : State :=
  wOf ((dXdu.upXdu (fun x => { x with ctxs := ⟨[(0, { mkCtx with batches := [⟨7, 2, [0], .here 0 3 0x1000 1088⟩, ⟨8, 2, [0], .peer 1⟩] })]⟩ })).upTl (fun t =>
    { t with noc := [⟨none, some 0x40, .tile 3 1, 0, epoch, mkDesc [(0, 32, 7), (48, 8, status)]⟩] }))
/-- A message of rank 1 for the XDU of die 0 has arrived, beside batch 8 there. -/
def wFrom (kind status id expert : Nat) (rows : List (BitVec 512)) : State :=
  wOf ((wDone 0 0).dev.upOnf (fun o => { o with inbox := [⟨1, 1, 1024 + 64, 0, 0, xHeader kind status 1 id 0 expert 1 256 0 :: rows⟩] }))
/-- A context whose only row is written. -/
def wFlag : State := wOf (dXdu.upXdu (fun x => { x with ctxs := ⟨[(0, { mkCtx with rows := [0] })]⟩ }))

/-- Link 0 of the pod, to rank 1, in a state; the link has a lasting lane fault on none of its lanes. -/
def dLink (st : Nat) : Dev := dPod.fset (Reg.ONF_LINKn_STATE_STATE 0) st
/-- Link 0 in a state, with the identity of a peer that meets every condition of admission. -/
def wIdent : State := wOf ((dLink 2).updLink 0 (fun l => { l with ident := some ⟨1, 0, false, 0, true, 0, 0⟩ }))
/-- A sequenced cell header with LSEQ 0 from rank 1 to a rank. -/
def hTo (dst : Nat) : BitVec 96 := mkHdr 1 1 dst 1 0 0 0 0 0 0
/-- A broadcast control cell on link 0. -/
def hCtl : CtlHead := ⟨0, hTo 0, 2, 0⟩
/-- Rank 1 is fenced. -/
def wFenced : State := wOf ((dLink 3).fset Reg.ONF_FENCE_RANKS 2)
/-- This device leads the pod. -/
def wLead : State := wOf ((dLink 3).fset Reg.ONF_POD_INFO_IS_LEADER 1)
/-- Link 0 is too long for the schedule. -/
def wSlip : State := wOf ((dLink 3).fset (Reg.ONF_LINKn_LAT_LAT_NOW 0) 50)
/-- One switch waits. -/
def wSwitch : State := wOf ((dLink 3).upOnf (fun o => { o with switches := [⟨2, 1024, 1, 0⟩] }))
/-- An open election: the leader strap is high and no leader is named; or rank `l` is. -/
def wElect (l : Nat) : State :=
  wOf ((withSec (dLink 3) secPodTopology (mkSec 512 [(1, 1, 4), (3, 1, l), (0x40, 1, 1)])).fset Reg.GLB_STRAPS_LEADER 1 |>.upOnf (fun o => { o with upSeen := true }))
/-- A member of a pod with congestion maps; its election has closed and its first backup is rank 2. -/
def wMember : State :=
  wOf ((withSec (dLink 0) secPodTopology (mkSec 512 [(1, 1, 4), (8, 1, 2)])).upOnf (fun o => { o with closed := true, cmapEn := true }))

/-- This device, rank `me` of a pod of four, is in group 3, whose members are ranks 0 and 1. -/
def dGrp (me : Nat) : Dev :=
  (withSec (withSec (dLink 3) secPodTopology (mkSec 512 [(1, 1, 4), (2, 1, me), (4, 1, 4), (5, 1, 1), (6, 1, 1), (0x40, 1, 1 - me), (0x43, 1, 1)]))
    secCollectiveGroups (mkSec 8256 [(160, 1, 1), (162, 1, 1), (168, 1, 1)])).fset Reg.ONF_POD_INFO_RANK me
/-- An ALL_REDUCE of 32 FP32 values in group 3. -/
def mkRed (op : Nat) : BitVec 512 := mkDesc [(0, 8, 0x60), (128, 8, op), (144, 8, 0xB), (160, 8, 3), (192, 32, 32)]
/-- A collective that runs in group 3 with SEQ 7. -/
def mkColl (me phase : Nat) (ready : Bool) (got : List (Nat × Nat)) : Coll :=
  { die := 0, qid := 12, idx := 0, desc := mkRed 1, fn := 0, part := 0, members := [0, 1], me := me, seq := 7, post := 0, phase := phase, digest := 0,
    gathered := true, verdict := false, mismatch := 0, earliest := 0, latest := 0, lateMember := 0, heard := [], commits := [], excluded := [],
    got := got, commitIn := false, ready := ready }
/-- A collective queue whose slice is free. -/
def wColl : State := wOf ((dGrp 0).upWq (fun w => { w with queues := ⟨[(12, mkWq 3 0 (mkRed 1))]⟩ }) |>.upSmv (fun y => { y with started := true }))
/-- A burst of a collective cell and data cells from the other member has arrived at the slice of die 0. -/
def wCell (me phase kind seq chunk : Nat) (cells : List (BitVec 512)) : State :=
  wOf (((dGrp me).upSmv (fun y => { y with colls := ⟨[(3, mkColl me phase false [])]⟩, base := 8 })).upOnf (fun o =>
    { o with inbox := [⟨0, 1 - me, 1024 + 0x48, 0, 0, { (mkColl me phase false []).cell kind with seq := seq, phase := 2, chunk := chunk }.bits :: cells⟩] }))
/-- A collective with every burst in hand. -/
def wReady (me : Nat) : State := wOf ((dGrp me).upSmv (fun y => { y with colls := ⟨[(3, mkColl me 2 false [(1, 0), (1, 1), (2, 0), (2, 1)])]⟩ }))
/-- A GATHER is held for group 3. -/
def wHeldG : State := wOf ((dGrp 0).upSmv (fun y => { y with held := [⟨3, 0, 1, ((mkColl 1 1 false []).cell 1).bits⟩] }))

/-- Queue group 0, a queue of each class and root 0 are PF0's, and host link 0 is up with CXL; a window reaches region 1. -/
def dHost : Dev :=
  ((((((((((withSec dXdu secQueueShapes (mkSec 12608 [(66, 2, 1), (76, 2, 8), (78, 2, 8), (80, 2, 8), (82, 2, 8), (84, 2, 8)])).upDtu (fun t =>
    { t with roots := ⟨[(0, ⟨0x10030000000, 0, 0⟩)]⟩ })).memWrite 0x10030000000 (leBytes 8 0x10030001001)).memWrite 0x10030001000
    (leBytes 8 0x10030002001)).memWrite 0x10030002000 (leBytes 8 0x40000007)).fset (Reg.HIF_LINKk_STATUS_STATE 0) 2).fset
    (Reg.HIF_LINKk_STATUS_CXL 0) 1).fset (Reg.HIF_WINk_w_KEY 0 0) 257).fset Reg.HIF_CXL_REGION_EN 1).fset Reg.HIF_CXL_REGION_REGION 1)
/-- Queues 0 and 63: two entries posted and not fetched, and one after a mismatch; queue 1 has finished an entry; PF0's event queue has 5 entries. -/
def wHost : State :=
  wOf ((dHost.upWq (fun w =>
    { w with queues := ⟨[(0, { mkWq 4 0 0 with fetched := [], tail := 2 }), (1, { mkWq 4 0 0 with fetched := [], finished := [⟨0, 0, .ok, 0, 0⟩], unpub := true }),
                         (63, { mkWq 4 0 0 with fetched := [], tail := 2, tries := 1 })]⟩ })).upEv (fun e =>
    { e with eqs := ⟨[(0, ⟨0, 0, 0, 5, 2, true, false, false⟩)]⟩ }))
/-- The words of a good CREATE_WQ are staged. -/
def wStage : State := wOf (dHost.putWords Reg.WQS_CMD_DATAi 16 (mkDesc [(0, 64, 0x10000), (64, 64, 0x8000), (144, 8, 4), (152, 8, 6), (160, 8, 1), (168, 8, 1), (176, 8, 1)]).toNat)
/-- The link trains, is in Recovery, or is up and a read has been issued again. -/
def wHif (st : Nat) (again : List ReadUser) : State :=
  wOf (((wHost.dev.fset (Reg.HIF_LINKk_STATUS_STATE 0) st).upPw (fun p => { p with perst := 15 })).upHif (fun h => { h with reissued := again }))
/-- The words of a good REG_MR are staged; entry 1 is ACTIVE, and `n` revokes are pending. -/
def wMr (n : Nat) : State :=
  wOf ((dHost.putWords Reg.DTU_CMD_DATAi 8 (bvSet (bvSet (bvSet (bvSet (0 : BitVec 256) 16 8 1) 24 8 3) 64 64 0x20000000000) 128 64 4096).toNat).upDtu (fun t =>
    { t with revoking := (List.range n).map (fun k => k + 2), syncs := [(none, 0)] }))
/-- The words of a good SET_ROOT are staged, and an UPDATE of one record. -/
def wRoot : State := wOf ((dHost.putWords Reg.DTU_CMD_DATAi 4 0x10030004000).fset Reg.DTU_UPDATE_COUNT_COUNT 1)

/-- A frame to the broadcast address, padded with zeros to `n` bytes, with this EtherType and the two bytes after it, and its FCS. -/
def mkFrame (n ty op : Nat) : List Byte :=
  let b := leBytes 6 0xFFFFFFFFFFFF ++ leBytes 6 0 ++ beBytes 2 ty ++ beBytes 2 op ++ List.replicate (n - 20) 0
  b ++ leBytes 4 (crc32 b).toNat
/-- A frame to the address 02-00-00-00-00-01. -/
def mkUni : List Byte := let b := beBytes 6 0x020000000001 ++ List.replicate 54 0; b ++ leBytes 4 (crc32 b).toNat
/-- A frame staged on port 0 by QP 5. -/
def mkTx : TxFrame := ⟨5, 0, 0, 0, 0, 0, 0, 0, 0, 0, false, 64, List.replicate 20 0, none, none, 0⟩
/-- Port 0 is UP with PFC, and a class holds the peer's traffic. -/
def wEth : State :=
  wOf (((((dHost.regSet Reg.ETH_GRP_MODE 0xFFF0).fset (Reg.ETH_PORTp_STATUS_STATE 0) 3).fset (Reg.ETH_PORTp_CTL_FC_MODE 0) 2).fset (Reg.ETH_PORTp_BUFc_XON 0 7) 4).upEth (fun e =>
    { e with xoff := [7], inbox := [⟨0, false, none, 0, 7, 5, false, false, [], [], none, 0⟩], txts := ⟨[(31, [(3, 1000)])]⟩ }) |>.upTxs (fun t =>
    { t with ready := [mkTx], order := [5], pend := ⟨[(0, ⟨1, 0⟩)]⟩, wheel := [⟨5, 0, false, 9⟩] }))
/-- No image: port 0 trains, with a gate list that cannot carry a frame. -/
def wTrain : State :=
  wOf (((withSec dUp secGateTables (mkSec 262144 [(gateAt 0 1, 4, 4096), (gateAt 0 1 + 4, 2, 2), (gateAt 0 1 + 64, 4, 10), (gateAt 0 1 + 68, 1, 1),
    (gateAt 0 1 + 72, 4, 4086)])).regSet Reg.ETH_GRP_MODE 0xFFF0).fset (Reg.ETH_PORTp_STATUS_STATE 0) 2)
/-- TXS samples into a ring of PF0 with room, 4,096 subscribers, or with none. -/
def wSample (written : Nat) : State :=
  wOf ((((withSec dHost secSchedulerShapes (mkSec 65600 [(0, 2, 4096)])).fset Reg.TXS_SAMPLE_CTL_EN 1).fset Reg.TXS_SAMPLE_CTL_RING_LOG2 6).upTxs (fun t => { t with written := written }))
/-- A rule and an SA wait in the DATA words. -/
def wRule : State := wOf ((dHost.ethPut Reg.ETH_STR_DATAi 16 1).ethPut Reg.ETH_SA_DATAi 8 1)

/-- PF0 has QPNs 0 to 15; SEND queue 20, with this entry at its front, and RECV queue 21 are bound to QP 5. -/
def dQp (x : BitVec 512) : Dev :=
  let w (cls : Nat) (e : BitVec 512) : Wq := { mkWq cls 0 e with ctx := bvSet (mkWq cls 0 e).ctx 224 32 5 }
  (withSec dHost secQueueShapes (mkSec 12608 [(66, 2, 1), (72, 4, 16), (76, 2, 8), (78, 2, 8), (80, 2, 8), (82, 2, 8), (84, 2, 8)])).upWq (fun q =>
    { q with queues := ⟨[(20, w 0 x), (21, w 1 (mkDesc [(0, 8, 0x40), (128, 64, 64), (192, 32, 257), (224, 32, 2048)]))]⟩ })
/-- A queue pair from (byte offset, bytes, value) entries over a good RC context of PF0 in a state. -/
def mkQp (st : Nat) (l : List (Nat × Nat × Nat)) : Qp :=
  ([(0, 1, st), (6, 1, 1), (8, 2, 20), (0x0A, 2, 21), (0x0E, 1, 5), (0x10, 3, 5), (0x3D, 1, 1), (0x3E, 1, 1), (0x3F, 1, 1), (0x40, 2, 8)] ++ l).foldl
    (fun (q : Qp) (e : Nat × Nat × Nat) => q.put e.1 e.2.1 e.2.2) (Qp.fresh 0)
/-- QP 5 stands so. -/
def wQp (q : Qp) : State := wOf ((dQp 0).setQp 5 q)
/-- The DATA words hold a good context for QP 5, and a queue pair, if any, stands there. -/
def wQpCmd (q : Option Qp) : State :=
  let d := (dQp 0).putWords Reg.QPE_CMD_DATAi 64 (mkQp 0 []).ctx.toNat
  wOf (match q with | some q => d.setQp 5 q | none => d)
/-- A work request of an opcode is at the front of queue 20 of a QP in RTS, with FLAGS of the trigger word. -/
def wReq (op trig : Nat) : State := wOf ((dQp (mkDesc [(0, 8, op), (224, 32, if op < 6 then 4 else 0), (384, 32, trig)])).setQp 5 (mkQp 3 []))
/-- A packet for QP 5: opcode, PSN and the bytes after the BTH. -/
def mkPkt (op psn : Nat) (rest : List Byte) : RxPkt :=
  ⟨5, false, none, 0, 0, 1, false, false, [], [BitVec.ofNat 8 op, 0, 0, 0, 0, 0, 0, 5, 0] ++ beBytes 3 psn ++ rest, none, 0⟩
/-- It has arrived at a queue pair. -/
def wRx (q : Qp) (x : RxPkt) : State := wOf (((dQp 0).setQp 5 q).upEth (fun e => { e with inbox := [x] }))
/-- QP 5 takes the packet in a row of chapter 11's table. -/
def rxOk (row : Nat) (q : Qp) (x : RxPkt) : Bool :=
  let d := (wRx q x).dev
  d.live && (match d.takeRx 5 (fun y => decide (d.pktRow 5 y = row)) with
    | some (y, g) => decide (y = x) && decide (x.rank = none) && decide (g.qp 5 = some q) && decide (q.state = 3) && decide (g.fnState q.fn = 1)
    | none => false)
/-- PSNs 0 to 3 are open. -/
def qOpen : Qp := mkQp 3 [(7, 1, 0x10), (0x18, 3, 4), (0x97, 1, 0x10)]
/-- A READ or an atomic of 4 or 8 bytes is open. -/
def qAsk (k : MsgKind) (n : Nat) : Qp :=
  { mkQp 3 [(0x18, 3, 1)] with out := [⟨.entry 20 0, k, 0, 0, [], 1, none, 64, 257, n, 0, 0, [], [], 0⟩] }
/-- A raw UD queue pair. -/
def qRaw : Qp := mkQp 3 [(1, 1, 1), (2, 2, 8), (0x10, 3, 0)]

/-- Function 5 of 255 VFs in a state, with both its mailbox buffers full or neither, and a drain that is stuck or not. -/
def wVf (st full stuck : Nat) : State :=
  wOf ((((((dHost.upVf (fun v => { v with vfEnable := true, numVfs := 255 })).fset (Reg.VFM_FNf_STATE_STATE 5) st).fset
    (Reg.VFM_FNf_MBOX_CTL_FROM_FULL 5) full).fset (Reg.VFM_FNf_MBOX_CTL_TO_BUSY 5) full).fset (Reg.VFM_FNf_STATE_DRAIN_STUCK 5) stuck).fset
    Reg.VFM_IMG_LEN_LEN 1664)
/-- A Blob of bytes. -/
def mkBlob (bs : List Byte) : Blob := ⟨bs.length, Mem.empty.writeN 0 bs⟩
/-- Key slot 2 is EMPTY, of mode 2 under slot 1, which is loaded; slot 3's erased key is used or not. -/
def wKey (used : Bool) : State :=
  wOf ((withSec dHost secKeySlotPolicy (mkSec 131136 [(72, 1, 1), (74, 2, 0xFFFF), (80, 1, 2), (82, 2, 1), (88, 1, 2), (90, 2, 1)])).upCad (fun c =>
    { c with slots := ⟨[(1, ⟨true, 7, 0, 0, false⟩), (3, ⟨false, 9, 0, 0, true⟩)]⟩,
             streams := ⟨if used then [(0, ⟨22, 0, mkDesc [(352, 16, 1)], 0, 0, 1, [(0, 9)], none⟩)] else []⟩ }))
/-- A CIPHER descriptor of an opcode: one unit of 512 bytes. -/
def mkCip (op : Nat) : BitVec 512 :=
  mkDesc [(0, 8, op), (128, 64, 0), (192, 64, 4096), (256, 32, 257), (288, 32, 257), (320, 32, 512), (352, 16, 1), (368, 8, 9)]
/-- Its queue is ready; or its only unit is on a pipeline. -/
def wCip (op : Nat) : State := wOf (dHost.upWq (fun w => { w with queues := ⟨[(22, mkWq 4 0 (mkCip op))]⟩ }))
/-- Stream 255 has its last unit on a pipeline. -/
def wUnit (op : Nat) : State := wOf ((wCip op).dev.upCad (fun c => { c with streams := ⟨[(255, ⟨22, 0, mkCip op, 0, 0, 1, [(0, 9)], none⟩)]⟩ }))
/-- SEC: the fuse being blown, the SPDM state of both connections, and what waits for a signature. -/
def wTrust (blow : Option (Nat × Nat × Bool)) (spdm : Nat) (sig : Option SignReq) : State :=
  wOf ((dHost.fset Reg.GLB_IMAGE_INFO_SECURITY_VERSION 64).upTr (fun t => { t with blow := blow, doe := spdm, mctp := spdm, signing := sig }))

/-- An image from (offset, bytes, value) entries is staged in an image state. -/
def wImg (st : Nat) (l : List (Nat × Nat × Nat)) : State :=
  wOf ((dHost.fset Reg.IMG_STATUS_STATE st).upImg (fun i => { i with staged := some ⟨mkSec 16384 l⟩ }))
/-- A commit of partition 31, or 0, waits for its drain; a dispatch context of partition 0 runs. -/
def wDrain (p : Nat) : State :=
  wOf (((wImg 4 []).dev.upImg (fun i => { i with committing := some ⟨p⟩ })).upXdu (fun x => { x with ctxs := ⟨[(0, mkCtx)]⟩ }))
/-- Errors of these sites wait for their retries, and a row of HBM3E has been hurt before. -/
def wErr (l : List ErrSite) : State := wOf (dHost.upRas (fun r => { r with pending := l, repeats := [((4, 0x10000000000), 1)] }))
/-- Power-on self-test: groups started and ended. -/
def wPost (started ended : BitVec 8) : State :=
  wOf (((dUp.fset Reg.GLB_IMAGE_INFO_COMMITTED 0).upPw (fun p => { p with initDone := false })).upBst (fun b => { b with started := started, ended := ended }))
/-- Links 0 and 1 are UP to rank 1, which gives link 0 a partner in its bundle; port 0 is DOWN; a test of link 0 is in a stage. -/
def wSvc (stage : Option (Nat × SvcStage)) : State :=
  wOf ((((withSec dHost secPodTopology (mkSec 512 [(1, 1, 4), (0x40, 1, 1), (0x43, 1, 1), (0x44, 1, 1), (0x45, 1, 1), (0x47, 1, 1)])).regSet Reg.ETH_GRP_MODE 0xFFF0).fset
    (Reg.ETH_PORTp_STATUS_STATE 0) 1).fset (Reg.ONF_LINKn_STATE_STATE 0) 3 |>.fset (Reg.ONF_LINKn_STATE_STATE 1) 3 |>.fset Reg.ONF_POD_INFO_POD_SIZE 4 |>.upBst (fun b =>
    { b with svc := stage.map (fun x => ⟨x.1, 0, x.2, 0⟩) }) |>.updLink 0 (fun l => { l with saved := some ⟨1, 2, ⟨[]⟩, 9⟩ }))
/-- The brake is on or off, with the notch still falling from one, and every sensor reads a temperature. -/
def wPow (brake : Bool) (temp : Nat) : State :=
  wOf (((List.range 48).foldl (fun (d : Dev) i => d.fset (Reg.PWR_TEMPi_TEMP i) temp)
    ((dHost.fset Reg.PWR_BRAKE_ACTIVE (b2n brake)).fset Reg.PWR_EST_AVG_W 2000)).upPw (fun p => { p with brakePin := brake, falling := some 3 }))
/-- Nothing runs, in a power state. -/
def wState (st : Nat) : State := wOf (dUp.fset Reg.PWR_STATE_STATE st)
/-- Tile 3 runs a program whose first word is NOP. -/
def wNop : State :=
  wOf ((withSec dImg secTilePrograms (mkSec 65536 [(384, 1, 1), (384 + 8, 8, 60000), (384 + 0x10, 4, 100), (60000, 8, 0x7000000000000000)])).setTile 3 xRun)

/-! ## Witnesses of the obligations -/

/-- ScalarAluResults: its hypotheses can be met. -/
theorem test_ScalarAluResults :
    Issues wTile.dev 3 hTrue ∧
    srcVal (wTile.dev.tile 3) (.imm ⟨1, 2, 0, 0xFFFFFFFF⟩) = 0xFFFFFFFFFFFFFFFF :=
  ⟨by unfold Issues Runs; decide +kernel, by decide +kernel⟩

/-- ScalarMoveResults: its hypotheses can be met. -/
theorem test_ScalarMoveResults :
    Issues wTile.dev 3 hTrue ∧
    (∀ k : Fin 6, srcMod (.reg ⟨7, 1, 2, 0, BitVec.ofNat 28 k.val⟩) % 8 = k.val) ∧
    6 ≤ srcMod (.reg ⟨7, 1, 2, 0, 6⟩) % 8 ∧
    6 ≤ srcMod (.imm ⟨7, 1, 7, 0⟩) % 8 ∧
    (∀ k : Fin 4, modR ⟨7, 1, 2, 0, BitVec.ofNat 28 k.val⟩ 0 2 = k.val) :=
  ⟨by unfold Issues Runs; decide +kernel, by decide +kernel, by decide +kernel, by decide +kernel, by decide +kernel⟩

/-- ScalarMemoryResults: its hypotheses can be met. -/
theorem test_ScalarMemoryResults :
    Issues wTile.dev 3 hTrue ∧
    addrIM ⟨1, 2, 0, 8⟩ (wTile.dev.bump.tile 3) = 24 ∧
    wTile.dev.bump.resolve 3 true true false 24 1 = .ok (scratchBase 3 + 24) ∧
    wTile.dev.bump.resolve 3 true true true 24 1 = .ok (scratchBase 3 + 24) ∧
    wTile.dev.bump.racing (scratchBase 3 + 24) 1 = false ∧
    wTile.dev.bump.writeSpoilt (scratchBase 3 + 24) 1 = false ∧
    addrIM ⟨1, 2, 3, 1⟩ (wTile.dev.bump.tile 3) % 2 ^ modIM ⟨1, 2, 3, 1⟩ 14 2 ≠ 0 :=
  ⟨by unfold Issues Runs; decide +kernel, by decide +kernel, by decide +kernel, by decide +kernel, by decide +kernel, by decide +kernel, by decide +kernel⟩

/-- FlowResults: its hypotheses can be met. -/
theorem test_FlowResults :
    Issues wTile.dev 3 hTrue ∧
    (wTile.dev.bump.tile 3).calls = [] ∧
    (wTile.dev.bump.tile 3).sr 2 ≠ 0 ∧
    (wTile.dev.bump.tile 3).sr 5 = 0 ∧
    (wTile.dev.bump.tile 3).loops.length < 4 ∧
    Issues wDeep.dev 3 hTrue ∧
    8 ≤ (wDeep.dev.bump.tile 3).calls.length ∧
    4 ≤ (wDeep.dev.bump.tile 3).loops.length ∧
    (wDeep.dev.bump.tile 3).calls = 5 :: List.replicate 7 6 :=
  ⟨by unfold Issues Runs; decide +kernel, by decide +kernel, by decide +kernel, by decide +kernel, by decide +kernel, by unfold Issues Runs; decide +kernel, by decide +kernel, by decide +kernel, by decide +kernel⟩

/-- SequenceRules: its hypotheses can be met. -/
theorem test_SequenceRules :
    Issues wTile.dev 3 hTrue ∧
    (wTile.dev.bump.tile 3).pc + 1 < wTile.dev.bump.codeLen 3 ∧
    (wTile.dev.bump.tile 3).loops = [] ∧
    Issues wLoop.dev 3 hTrue ∧
    (wLoop.dev.bump.tile 3).loops = [⟨1, 4, 5, 0⟩] ∧
    (wLoop.dev.bump.tile 3).pc + 1 = 4 ∧
    1 < wLoop.dev.bump.codeLen 3 ∧
    Issues wLast.dev 3 hTrue ∧
    (wLast.dev.bump.tile 3).loops = [⟨1, 4, 1, 0⟩] ∧
    (wLast.dev.bump.tile 3).pc + 1 = 4 ∧
    4 < wLast.dev.bump.codeLen 3 ∧
    Issues wEnd.dev 3 hTrue ∧
    wEnd.dev.bump.codeLen 3 ≤ (wEnd.dev.bump.tile 3).pc + 1 ∧
    (wEnd.dev.bump.tile 3).loops = [] :=
  ⟨by unfold Issues Runs; decide +kernel, by decide +kernel, by decide +kernel, by unfold Issues Runs; decide +kernel, by decide +kernel, by decide +kernel, by decide +kernel, by unfold Issues Runs; decide +kernel, by decide +kernel, by decide +kernel, by decide +kernel, by unfold Issues Runs; decide +kernel, by decide +kernel, by decide +kernel⟩

/-- VectorLaneResults: its hypotheses can be met. -/
theorem test_VectorLaneResults :
    Runs wTile.dev 3 :=
  by unfold Runs; decide +kernel

/-- VectorMaskResults: its hypotheses can be met. -/
theorem test_VectorMaskResults :
    Runs wTile.dev 3 ∧
    (wTile.dev.tile 3).mask hTrue ≠ 0 ∧
    condOf (modR ⟨7, 1, 2, 0, 4⟩ 0 3) = some .ltu ∧
    condOf (modR ⟨7, 1, 2, 0, 7⟩ 0 3) = none ∧
    rmodeOf (modR ⟨7, 1, 2, 0, 0x8000000⟩ 26 2) = some .sr ∧
    rmodeOf (modR ⟨7, 1, 2, 0, 0xC000000⟩ 26 2) = none ∧
    viopOf (modR ⟨7, 1, 2, 0, 13⟩ 0 4) = some .maxu ∧
    viopOf (modR ⟨7, 1, 2, 0, 14⟩ 0 4) = none ∧
    (∀ k : Fin 4, modR ⟨7, 1, 2, 0, BitVec.ofNat 28 k.val⟩ 0 2 = k.val) :=
  ⟨by unfold Runs; decide +kernel, by decide +kernel, by decide +kernel, by decide +kernel, by decide +kernel, by decide +kernel, by decide +kernel, by decide +kernel, by decide +kernel⟩

/-- MxBlockResults: its hypotheses can be met. -/
theorem test_MxBlockResults :
    Runs wTile.dev 3 ∧
    (wTile.dev.bump.tile 3).mask hTrue ≠ 0 ∧
    mxFmt (modR ⟨7, 2, 5, 0, 0x4000000⟩ 24 4) = some fmtE4M3 ∧
    rmodeOf (modR ⟨7, 2, 5, 0, 0x4000000⟩ 22 2) = some .rne ∧
    wTile.dev.bump.resolve 3 true false true ((wTile.dev.bump.tile 3).sr 2).toNat 32 = .ok (scratchBase 3 + 16) ∧
    wTile.dev.bump.resolve 3 true false true ((wTile.dev.bump.tile 3).sr 5).toNat 1 = .ok (scratchBase 3) ∧
    mxFmt (modR ⟨7, 2, 5, 0, 0⟩ 24 4) = none ∧
    wTile.dev.bump.resolve 3 true false false 16 32 = .ok (scratchBase 3 + 16) ∧
    (wTile.dev.bump.noteAccess false (scratchBase 3 + 16) 32).resolve 3 true false false 0 1 = .ok (scratchBase 3) :=
  ⟨by unfold Runs; decide +kernel, by decide +kernel, by decide +kernel, by decide +kernel, by decide +kernel, by decide +kernel, by decide +kernel, by decide +kernel, by decide +kernel⟩

/-- VectorMemoryResults: its hypotheses can be met. -/
theorem test_VectorMemoryResults :
    Runs wTile.dev 3 ∧
    (wTile.dev.bump.tile 3).mask hTrue = 0xFFFFFFFF ∧
    addrIM ⟨7, 5, 0, 0⟩ (wTile.dev.bump.tile 3) = 0 ∧
    wTile.dev.bump.resolve 3 true false false 0 128 = .ok (scratchBase 3) ∧
    wTile.dev.bump.resolve 3 true false true 0 128 = .ok (scratchBase 3) ∧
    wTile.dev.bump.writeSpoilt (scratchBase 3) 128 = false ∧
    narrowFmt (modIM ⟨7, 5, 0, 0⟩ 24 4) = some (some fmtBF16, 16) ∧
    rmodeOf (modIM ⟨7, 5, 0, 0⟩ 22 2) = some .rne ∧
    wTile.dev.bump.resolve 3 true false true 0 64 = .ok (scratchBase 3) ∧
    addrIM ⟨7, 5, 0, 1⟩ (wTile.dev.bump.tile 3) % 128 ≠ 0 :=
  ⟨by unfold Runs; decide +kernel, by decide +kernel, by decide +kernel, by decide +kernel, by decide +kernel, by decide +kernel, by decide +kernel, by decide +kernel, by decide +kernel, by decide +kernel⟩

/-- MatrixResults: its hypotheses can be met. -/
theorem test_MatrixResults :
    Issues wTile.dev 3 hTrue ∧
    (wTile.dev.bump.tile 3).pend.find 1 = none ∧
    elemFmt 9 = some (none, 8) ∧
    sumMode (none, 8) (none, 8) = some .integer ∧
    kAllowed .integer false 32 = true ∧
    mmaRegs wMma = true ∧
    (wTile.dev.bump.mmaOp 3 wMma).aligned = true ∧
    (wTile.dev.bump.mmaOp 3 wMma).metaOk = true ∧
    wTile.dev.bump.scratchBad 3 false (wTile.dev.bump.mmaOp 3 wMma).ranges = none ∧
    (wPend.dev.tile 3).pend.find 1 = some ⟨[1], 0, true⟩ ∧
    Issues wPend.dev 3 hTrue ∧
    wTile.dev.bump.resolve 3 true false false 16 1024 = .ok (scratchBase 3 + 16) ∧
    wTile.dev.bump.resolve 3 true false true 16 1024 = .ok (scratchBase 3 + 16) ∧
    wTile.dev.bump.writeSpoilt (scratchBase 3 + 16) 1024 = false :=
  ⟨by unfold Issues Runs; decide +kernel, by decide +kernel, by decide +kernel, by decide +kernel, by decide +kernel, by decide +kernel, by decide +kernel, by decide +kernel, by decide +kernel, by decide +kernel, by unfold Issues Runs; decide +kernel, by decide +kernel, by decide +kernel, by decide +kernel⟩

/-- WriteOutResults: its hypotheses can be met. -/
theorem test_WriteOutResults :
    Issues wTile.dev 3 hTrue ∧
    (wTile.dev.bump.tile 3).pend.find 1 = none ∧
    mwrFmt (modR ⟨1, 6, 0, 0, 0⟩ 24 4) = some (some fmtBF16, 16) ∧
    rmodeOf (modR ⟨1, 6, 0, 0, 0⟩ 22 2) = some .rne ∧
    ((wTile.dev.bump.tile 3).sr 6).toNat % 32 = 0 ∧
    ((wTile.dev.bump.tile 3).sr 7).toNat % 32 = 0 ∧
    wTile.dev.bump.scratchBad 3 true ((List.range 16).map (fun i => (((wTile.dev.bump.tile 3).sr 6).toNat + i * ((wTile.dev.bump.tile 3).sr 7).toNat, 32))) = none ∧
    ((wPend.dev.bump.tile 3).pend.find 1).isSome ∧
    Issues wPend.dev 3 hTrue ∧
    mwrFmt (modR ⟨1, 6, 0, 0, 0x4000000⟩ 24 4) = none ∧
    rmodeOf (modR ⟨1, 6, 0, 0, 0xC00000⟩ 22 2) = none :=
  ⟨by unfold Issues Runs; decide +kernel, by decide +kernel, by decide +kernel, by decide +kernel, by decide +kernel, by decide +kernel, by decide +kernel, by decide +kernel, by unfold Issues Runs; decide +kernel, by decide +kernel, by decide +kernel⟩

/-- SparseMetadataResults: its hypotheses can be met. -/
theorem test_SparseMetadataResults :
    Issues wTile.dev 3 hTrue ∧
    ((wTile.dev.bump.tile 3).sr 2).toNat = 16 ∧
    ((wTile.dev.bump.tile 3).sr 4).toNat = 2 ∧
    wTile.dev.bump.resolve 3 true false false 16 64 = .ok (scratchBase 3 + 16) ∧
    wTile.dev.bump.resolve 3 true false false 16 1 = .ok (scratchBase 3 + 16) :=
  ⟨by unfold Issues Runs; decide +kernel, by decide +kernel, by decide +kernel, by decide +kernel, by decide +kernel⟩

/-- TileDmaResults: its hypotheses can be met. -/
theorem test_TileDmaResults :
    Issues wTile.dev 3 hTrue ∧
    ((wTile.dev.bump.tile 3).ctx 1).busy = false ∧
    descOk ((wTile.dev.bump.tile 3).regs512 8) = true ∧
    wTile.dev.bump.descBad 3 ((wTile.dev.bump.tile 3).regs512 8) = none ∧
    descNotify ((wTile.dev.bump.tile 3).regs512 8) = false ∧
    descOk ((wTile.dev.bump.tile 3).regs512 16) = false ∧
    ((wDma.dev.bump.tile 3).ctx 1).busy = true ∧
    Issues wDma.dev 3 hTrue ∧
    ((wDma.dev.tile 3).ctx 1).notify = false ∧
    wDma.dev.alive = true ∧
    wDma.dev.dmaWaits ((wDma.dev.tile 3).ctx 1).desc = false ∧
    ((wDma.dev.readEnd (.tileDma 3 1)).dmaMove 3 ((wDma.dev.tilePart 3).getD 32) ((wDma.dev.tile 3).ctx 1).desc .lost 0 (wDma.dev.dmaUnits 3 ((wDma.dev.tile 3).ctx 1).desc)).2 = none :=
  ⟨by unfold Issues Runs; decide +kernel, by decide +kernel, by decide +kernel, by decide +kernel, by decide +kernel, by decide +kernel, by decide +kernel, by unfold Issues Runs; decide +kernel, by decide +kernel, by decide +kernel, by decide +kernel, by decide +kernel⟩

/-- MessageResults: its hypotheses can be met. -/
theorem test_MessageResults :
    Issues wMail.dev 3 hTrue ∧
    wMail.dev.bump.channelOk 3 1 = true ∧
    (wMail.dev.bump.tile 3).credits 1 ≠ 0 ∧
    (wMail.dev.bump.tile 3).credits 2 = 0 ∧
    wMail.dev.bump.channelOk 3 2 = true ∧
    wMail.dev.bump.channelOk 3 4 = false ∧
    ((wMail.dev.bump.tile 3).sr 5).toNat % 64 = 0 ∧
    wMail.dev.bump.resolve 3 true false false 0 64 = .ok (scratchBase 3) ∧
    (wMail.dev.bump.tile 3).firstMail (1 <<< 2) = some (2, ⟨.engine 9, 4, 77⟩) ∧
    wMail.dev.bump.resolve 3 true false true 0 64 = .ok (scratchBase 3) ∧
    wMail.dev.bump.writeSpoilt (scratchBase 3) 64 = false ∧
    (wMail.dev.bump.tile 3).firstMail (1 <<< 1) = none ∧
    (wMail.dev.bump.tile 3).firstMail 6 = some (2, ⟨.engine 9, 4, 77⟩) ∧
    wMail.dev.variantAllowed 3 = true ∧
    (takeMsg (fun m => decide (m.toTile = some (3, 2))) wMail.dev.tl.noc).map (fun p => (p.1.src, p.1.epoch)) = some (.tile 4 0, 0) ∧
    wMail.dev.roleEpoch 0 = 0 ∧
    (takeMsg (fun m => decide (m.toTile = some (3, 5))) wMail.dev.tl.noc).map (fun p => (p.1.src, p.1.epoch)) = some (.tile 4 0, 9) :=
  ⟨by unfold Issues Runs; decide +kernel, by decide +kernel, by decide +kernel, by decide +kernel, by decide +kernel, by decide +kernel, by decide +kernel, by decide +kernel, by decide +kernel, by decide +kernel, by decide +kernel, by decide +kernel, by decide +kernel, by decide +kernel, by decide +kernel, by decide +kernel, by decide +kernel⟩

/-- SyncResults: its hypotheses can be met. -/
theorem test_SyncResults :
    Issues wMail.dev 3 hTrue ∧
    wMail.dev.bump.tilePart 3 = some 0 ∧
    wMail.dev.bump.joinsBarrier 3 1 = true ∧
    (∀ u ∈ wMail.dev.bump.barrierMembers 0 1, u ∈ (wMail.dev.bump.tl.bars.get [] 1) ++ [3]) ∧
    wMail.dev.bump.joinsBarrier 3 2 = true ∧
    (∃ u ∈ wMail.dev.bump.barrierMembers 0 2, u ∉ (wMail.dev.bump.tl.bars.get [] 2) ++ [3]) ∧
    wMail.dev.bump.joinsBarrier 3 5 = false ∧
    addrIM ⟨7, 10, 0, 8⟩ (wMail.dev.bump.tile 3) % 8 = 0 ∧
    wMail.dev.bump.resolve 3 false true false (2 ^ 60 + 8) 8 = .ok (clusterBase 0 + 8) ∧
    wMail.dev.bump.resolve 3 false true false (2 ^ 60 + 8) 4 = .ok (clusterBase 0 + 8) ∧
    wMail.dev.variantAllowed 3 = true ∧
    addrIM ⟨7, 10, 0, 1⟩ (wMail.dev.bump.tile 3) % 8 ≠ 0 :=
  ⟨by unfold Issues Runs; decide +kernel, by decide +kernel, by decide +kernel, by decide +kernel, by decide +kernel, by decide +kernel, by decide +kernel, by decide +kernel, by decide +kernel, by decide +kernel, by decide +kernel, by decide +kernel⟩

/-- TileSystemResults: its hypotheses can be met. -/
theorem test_TileSystemResults :
    Issues wMail.dev 3 hTrue ∧
    (wMail.dev.tile 3).pend.ents = [] ∧
    Issues wPend.dev 3 hTrue ∧
    (wPend.dev.tile 3).pend.ents = [(1, ⟨[1], 0, true⟩)] ∧
    wMail.dev.bump.tilePart 3 = some 0 ∧
    wMail.dev.variantAllowed 3 = true :=
  ⟨by unfold Issues Runs; decide +kernel, by decide +kernel, by unfold Issues Runs; decide +kernel, by decide +kernel, by decide +kernel, by decide +kernel⟩

/-- TileHaltRestart: its hypotheses can be met. -/
theorem test_TileHaltRestart :
    (wEnds.dev.tile 0).phase = .halting ∧
    (wEnds.dev.tile 0).dmaIdle = true ∧
    (wEnds.dev.tile 1).phase = .stopping ∧
    (wEnds.dev.tile 1).dmaIdle = true ∧
    (wEnds.dev.tile 2).wait = some (.bar 3) ∧
    (wEnds.dev.tile 2).phase = .running ∧
    (wEnds.dev.tile 4).wait = some (.credit 3) ∧
    (wEnds.dev.tile 5).wait = some (.dmaWait 3) ∧
    wEnds.dev.fget (Reg.CLU_STALL_LIMIT_LIMIT_US (clusterOf 2)) ≠ 0 ∧
    (wEnds.dev.tile 3).phase = .halted ∧
    (wEnds.dev.tile 6).phase = .stopped ∧
    wEnds.dev.tileBarred 3 = false ∧
    wEnds.dev.img.startDue = true :=
  by
  refine ⟨?_, ?_, ?_, ?_, ?_, ?_, ?_, ?_, ?_, ?_, ?_, ?_, ?_⟩ <;> decide +kernel

/-- TileExceptions: its hypotheses can be met. -/
theorem test_TileExceptions :
    (wEnds.dev.tile 3).phase ≠ .running ∧
    Runs wTile.dev 3 ∧
    wTile.dev.variantAllowed 3 = false ∧
    ((wTile.dev.tile 3).mask ⟨1, false⟩).getLsbD 0 = false ∧
    ((wTile.dev.tile 3).mask ⟨1, true⟩).getLsbD 0 = true ∧
    ((wTile.dev.tile 3).mask ⟨0, true⟩).getLsbD 0 = false :=
  ⟨by decide +kernel, by unfold Runs; decide +kernel, by decide +kernel, by decide +kernel, by decide +kernel, by decide +kernel⟩

/-- BlockCommandResults: its hypotheses can be met. -/
theorem test_BlockCommandResults :
    wMem.dev.alive = true ∧
    wMem.dev.inStandby = false ∧
    wMem.dev.fon Reg.MEM_BLK_STATUS_BUSY = false ∧
    wMem.dev.namedBlocks 1 = [1048576] ∧
    wMem.dev.homePart 1048576 = some 0 ∧
    wMem.dev.entryOf 1048576 = none ∧
    1 ≤ (freeEntries wMem.dev.mem.blk 1).length ∧
    wMemBad.dev.alive = true ∧
    wMemBad.dev.inStandby = false ∧
    wMemBad.dev.fon Reg.MEM_BLK_STATUS_BUSY = false ∧
    wMemBad.dev.namedBlocks 1 = [5] ∧
    wMemBad.dev.homePart 5 = none ∧
    (wMemReg.dev.entryOf 1048576).isSome ∧
    (wMemReg.dev.homePart 1048576).isSome ∧
    wMemReg.dev.namedBlocks 1 = [1048576] ∧
    wMemReg.dev.mem.cmd = some ⟨1048576, 1, .ok⟩ ∧
    wMemReg.dev.mem.unreg = [] ∧
    wMemReg.dev.alive = true ∧
    wMemReg.dev.inStandby = false ∧
    wMemReg.dev.fon Reg.MEM_BLK_STATUS_BUSY = false :=
  by
  refine ⟨?_, ?_, ?_, ?_, ?_, ?_, ?_, ?_, ?_, ?_, ?_, ?_, ?_, ?_, ?_, ?_, ?_, ?_, ?_, ?_⟩ <;> decide +kernel

/-- PlacementMoveResults: its hypotheses can be met. -/
theorem test_PlacementMoveResults :
    wMemReg.dev.live = true ∧
    wMemReg.dev.committed = true ∧
    wMemReg.dev.fget Reg.PWR_STATE_STATE = 0 ∧
    wMemReg.dev.inStandby = false ∧
    wPlan.dev.live = true ∧
    wPlan.dev.inStandby = false ∧
    (wPlan.dev.mem.moves.filter (fun m => decide (wPlan.dev.movePart m = 0))).any (fun m => m.started && !m.unreg) = false ∧
    ((wPlan.dev.mem.moves.filter (fun m => decide (wPlan.dev.movePart m = 0))).find? (fun m => !m.started &&
      m.blocks.all (fun i => decide (blkState (wPlan.dev.blk i) = 1)) && wPlan.dev.moveReady 0 m)).isSome ∧
    wPass.dev.moveOf 0 = some (wMove 0 17 false) ∧
    wPass.dev.subsBad (wMove 0 17 false).todo = none ∧
    wPass.dev.moveOf 1 = some (wMove 1 16 false) ∧
    wPass.dev.moveOf 2 = some { wMove 2 17 false with passes := 3 } ∧
    wPass.dev.moveOf 3 = some (wMove 3 0 true) ∧
    wPass.dev.subsBad (wMove 3 0 true).todo = none ∧
    (let m := { wMove 3 0 true with todo := [] }; wHeld.dev.live = true ∧ wHeld.dev.moveOf 3 = some m ∧ wHeld.dev.subsBad m.todo = none ∧
      (List.range 512).any (fun k => (wHeld.dev.copySubs m m.todo).subBad (m.target + 4096 * k)) = false) ∧
    blkState (wPass.dev.blk 4) = 3 :=
  by
  refine ⟨?_, ?_, ?_, ?_, ?_, ?_, ?_, ?_, ?_, ?_, ?_, ?_, ?_, ?_, ?_, ?_⟩ <;> decide +kernel

/-- CrossDevicePlacement: its hypotheses can be met. -/
theorem test_CrossDevicePlacement :
    CtlTaken wPod.dev ⟨0, mkHdr 4 0 0 1 0 0 0 0 0 1, 2, 7⟩ (wPod.dev.takeCell 0 (mkHdr 4 0 0 1 0 0 0 0 0 1)).1 ∧
    ((wPod.dev.takeCell 0 (mkHdr 4 0 0 1 0 0 0 0 0 1)).1.relay 0 1 7 (.place 0 0 0 1 99)).2 = true ∧
    hdrSrc (mkHdr 4 0 0 1 0 0 0 0 0 1) = 1 ∧
    wPod.dev.mem.switches.find? (fun w => decide (w.index = 5)) = some ⟨5, 2, 99⟩ ∧
    wPod.dev.xdu.home.get wPod.dev.rank 5 ≠ wPod.dev.rank ∧
    eptRank (wPod.dev.eptEntry 5) = wPod.dev.rank ∧
    2 ≠ wPod.dev.rank ∧
    wPod.dev.live = true ∧
    wPod.dev.mem.acks.find 6 = some [1, 2] ∧
    wPod.dev.mem.acks.find 7 = some [1] :=
  ⟨by unfold CtlTaken; decide +kernel, by decide +kernel, by decide +kernel, by decide +kernel, by decide +kernel, by decide +kernel, by decide +kernel, by decide +kernel, by decide +kernel, by decide +kernel⟩

/-- MemoryBackground: its hypotheses can be met. -/
theorem test_MemoryBackground :
    wMemReg.dev.live = true ∧
    wBadWord.dev.live = true ∧
    wBadWord.dev.site 0x400000000 = some ⟨.cluster, 0, 0x400000000⟩ ∧
    wBadWord.dev.siteBad ⟨.cluster, 0, 0x400000000⟩ = true ∧
    wMemReg.dev.siteBad ⟨.cluster, 0, 0x400000000⟩ = false ∧
    wMemReg.dev.site 0x400000000 = some ⟨.cluster, 0, 0x400000000⟩ ∧
    wBadWord.dev.fbit Reg.MEM_CLEAR_BUSY_BUSY 2 = true ∧
    160 ≤ tempGap (wBadWord.dev.fget Reg.PWR_TEMP_MAX_TEMP) wBadWord.dev.mem.lastFullTemp :=
  by
  refine ⟨?_, ?_, ?_, ?_, ?_, ?_, ?_, ?_⟩ <;> decide +kernel

/-- DispatchStartResults: its hypotheses can be met. -/
theorem test_DispatchStartResults :
    wXdu.dev.live = true ∧
    wXdu.dev.alive = true ∧
    wXdu.dev.isFn 0 = true ∧
    wXdu.dev.bar4Shut = false ∧
    (wXdu.dev.zonePart 3).isSome ∧
    wXdu.dev.zonePart 3 = wXdu.dev.fnPart 0 ∧
    wXdu.dev.isFn 262 = true ∧
    (wXdu.dev.zonePart 4095).isSome ∧
    wXdu.dev.zonePart 4095 = wXdu.dev.fnPart 262 ∧
    ((wXdu.dev.wqFind 9).map (fun w => (w.front.isSome, wqClass w.ctx, wqFn w.ctx, wqBind w.ctx, (wXdu.dev.wqPart w).any wXdu.dev.partHeld)) = some (true, 2, 0, 0, false)) ∧
    wXdu.dev.fnStarts 0 = true ∧
    (let x := xTrigger (mkDisp 6 256); fld x 26 5 = 0 ∧ fld x 0 24 = 3 ∧ bitAt x 31 = true ∧ fld x 24 2 = 0) ∧
    wXdu.dev.fget (Reg.XDU_ZCNTz_COUNT 3) = 5 ∧
    countMeets 5 (xThreshold (mkDisp 5 256)) = true ∧
    countMeets 5 (xThreshold (mkDisp 6 256)) = false ∧
    (wXdu.dev.dispatchOk (some 0) 0 (mkDisp 5 256) = true) ∧
    (wXdu.dev.dispatchOk (some 0) 0 (mkDisp 5 0) = false) ∧
    ((List.range 64).find? (fun k => (wXdu.dev.xdu.ctxs.find k).isNone) = some 0) ∧
    wXduFull.dev.live = true ∧
    (List.range 64).find? (fun k => (wXduFull.dev.xdu.ctxs.find k).isNone) = none ∧
    ((wLeave.dev.xdu.ctxs.find 0).map (fun c => (c.waiting, c.order, (wLeave.dev.eptRec c.part).index (xLayer c.desc) 2)) = some ([(2, [0, 1]), (3, [0])], 0, 2)) ∧
    (∀ p ∈ wLeave.dev.xdu.ctxs.ents, ¬ p.2.order < 0) ∧
    eptCap (wLeave.dev.eptEntry 2) = 8 ∧
    eptCap (wLeave.dev.eptEntry 3) = 0 ∧
    wLeave.dev.xduOutstanding 0 = 0 :=
  by
  refine ⟨?_, ?_, ?_, ?_, ?_, ?_, ?_, ?_, ?_, ?_, ?_, ?_, ?_, ?_, ?_, ?_, ?_, ?_, ?_, ?_, ?_, ?_, ?_, ?_, ?_⟩ <;> decide +kernel

/-- DispatchBatchResults: its hypotheses can be met. -/
theorem test_DispatchBatchResults :
    ((wDone 0 0).dev.live = true) ∧
    ((takeFirst (fun (m : NocMsg) => decide (m.toEngine = some 0x40)) (wDone 0 2).dev.tl.noc).isSome) ∧
    (epochKind 200 ((wDone 200 0).dev.roleEpoch 0) ≠ .current) ∧
    (epochKind 0 ((wDone 0 0).dev.roleEpoch 0) = .current) ∧
    (((wDone 0 0).dev.xduFind (fun b => b.isDone 7 0)).map (fun p => (p.1, p.2.2.site)) = some (0, .here 0 3 0x1000 1088)) ∧
    ((wDone 0 0).dev.memStatus false (clusterBase 0 + 0x1000 + 64) 1024 = .ok) ∧
    ((wDone 0 0).dev.fget Reg.XDU_BATCH_TIMEOUT_LIMIT_US ≠ 0) ∧
    (((wDone 0 0).dev.xduFind (fun b => decide (b.id = 7))).isSome) ∧
    (((wFrom 1 0 9 2 (List.replicate 8 0)).dev.dispatchMsg 1).map (fun m => (m.1, m.2.1.length, m.2.2)) = some (0, 9, [])) ∧
    (let h := (xHeader 1 0 1 9 0 2 1 256 0).toNat; fld h 0 8 = 1 ∧ fld h 32 32 = 9 ∧ fld h 80 16 = 2 ∧ fld h 96 16 = 1 ∧ fld h 112 16 = 256) ∧
    (let d := (wFrom 1 0 9 2 (List.replicate 8 0)).dev; d.pickCluster (fun c => c / 8) (eptMask (d.eptEntry 2)) = some 0 ∧
      d.areaFind 0 0 (roomServed 1 256 0) = some 0x1440 ∧ d.engineCredit 3 2 = 8 ∧
      d.memStatus true (clusterBase 0 + 0x1440) (roomServed 1 256 0) = .ok ∧ d.pickCluster (fun c => c / 8) (eptMask (d.eptEntry 3)) = none) ∧
    (((wFrom 2 0 8 2 (List.replicate 16 0)).dev.dispatchMsg 1).isSome) ∧
    (((wFrom 2 2 8 2 []).dev.dispatchMsg 1).isSome) ∧
    (((wFrom 2 2 5 2 []).dev.dispatchMsg 1).isSome) ∧
    (((wFrom 2 0 8 2 []).dev.xduFind (fun b => decide (b.id.toNat = 8) && decide (b.site = .peer 1))).isSome) ∧
    ((wFrom 2 2 5 2 []).dev.xduFind (fun b => decide (b.id.toNat = 5) && decide (b.site = .peer 1)) = none) ∧
    (let e := wFlag.dev.xduCombineAll 0; e.xdu.ctxs.find 0 = some { mkCtx with rows := [0] } ∧ xPath mkCtx.desc = 1 ∧
      (e.keyWrite mkCtx.user (xOutKey mkCtx.desc) (xFlagAddr mkCtx.desc) mkCtx.flag true).2 = none) :=
  by
  refine ⟨?_, ?_, ?_, ?_, ?_, ?_, ?_, ?_, ?_, ?_, ?_, ?_, ?_, ?_, ?_, ?_, ?_⟩ <;> decide +kernel

/-- LinkStateResults: its hypotheses can be met. -/
theorem test_LinkStateResults :
    (dLink 0).running = true ∧
    ((dLink 0).onfLink 0).testing = false ∧
    ((dLink 0).onfLink 63).testing = false ∧
    (dLink 0).linkState 0 = 0 ∧
    (dLink 0).linkState 63 = 0 ∧
    (dLink 0).fon (Reg.ONF_LINKn_CTL_DISABLE 63) = false ∧
    (dLink 1).running = true ∧
    (dLink 1).linkState 0 = 1 ∧
    popBits 4 ((dLink 1).goodLanes 0 7).toNat = 3 ∧
    popBits 4 ((dLink 1).goodLanes 0 3).toNat = 2 ∧
    wIdent.dev.running = true ∧
    wIdent.dev.linkState 0 = 2 ∧
    wIdent.dev.admitReason 0 true = 0 ∧
    wIdent.dev.admitReason 0 false = 5 ∧
    (dLink 2).admitReason 0 true = 1 ∧
    (dLink 5).running = true ∧
    (dLink 5).linkState 0 = 5 ∧
    popBits 4 ((dLink 5).goodLanes 0 15).toNat = 4 ∧
    popBits 4 ((dLink 5).goodLanes 0 11).toNat = 3 ∧
    (dLink 6).running = true ∧
    ((dLink 6).fset (Reg.ONF_LINKn_CTL_DISABLE 0) 0).linkState 0 = 6 ∧
    bitAt 1 0 = true ∧
    bitAt 2 1 = true ∧
    bitAt 2 0 = false ∧
    (dLink 3).linkOpen 0 = true ∧
    (dLink 4).linkOpen 0 = true :=
  by
  refine ⟨?_, ?_, ?_, ?_, ?_, ?_, ?_, ?_, ?_, ?_, ?_, ?_, ?_, ?_, ?_, ?_, ?_, ?_, ?_, ?_, ?_, ?_, ?_, ?_, ?_, ?_⟩ <;> decide +kernel

/-- LinkCellResults: its hypotheses can be met. -/
theorem test_LinkCellResults :
    (dLink 3).live = true ∧
    (dLink 3).linkOpen 0 = true ∧
    (dLink 3).linkState 0 ≠ 1 ∧
    (dLink 1).live = true ∧
    (dLink 1).linkState 0 = 1 ∧
    ((dLink 3).takeCell 0 (hTo 0)).2 = true ∧
    ((dLink 3).takeCell 0 (hTo 0)).1.rankFenced 1 = false ∧
    hdrDst (hTo 0) = (dLink 3).rank ∧
    ((dLink 3).takeCell 0 (hTo 0)).1.mapRank 0 = 1 ∧
    ((dLink 3).takeCell 0 (hTo 2)).2 = true ∧
    hdrDst (hTo 2) ≠ (dLink 3).rank ∧
    wFenced.dev.live = true ∧
    (wFenced.dev.takeCell 0 (hTo 0)).2 = true ∧
    (wFenced.dev.takeCell 0 (hTo 0)).1.rankFenced ((wFenced.dev.takeCell 0 (hTo 0)).1.mapRank 0) = true :=
  by
  refine ⟨?_, ?_, ?_, ?_, ?_, ?_, ?_, ?_, ?_, ?_, ?_, ?_, ?_, ?_⟩ <;> decide +kernel

/-- FabricControlResults: its hypotheses can be met. -/
theorem test_FabricControlResults :
    (let e := ((dLink 3).takeCell 0 hCtl.hdr); e.2 = true ∧ e.1.rankFenced (e.1.mapRank 0) = false ∧ e.1.onf.seen = [] ∧ e.1.leads = false) ∧
    hCtl.scope = 2 ∧
    (((dLink 3).takeCell 0 hCtl.hdr).1.relay 0 (hdrSrc hCtl.hdr) 0 (.claim 2)).2 = true ∧
    (((dLink 3).takeCell 0 hCtl.hdr).1.relay 0 (hdrSrc hCtl.hdr) 0 (.claim 2)).1.onf.closed = false ∧
    (let e := (wLead.dev.takeCell 0 hCtl.hdr); e.2 = true ∧ e.1.rankFenced (e.1.mapRank 0) = false ∧ e.1.leads = true) ∧
    wLead.dev.alive = true ∧
    wLead.dev.leads = true ∧
    (dLink 3).alive = true ∧
    (dLink 3).leads = false ∧
    bitsOf 64 1 = [0] ∧
    bitsOf 64 0x8000000000000000 = [63] ∧
    (dLink 3).fget (Reg.ONF_LINKn_LAT_LAT_NOW 0) + (dLink 3).linkG 0 ≤ (dLink 3).linkPMax 0 ∧
    wSlip.dev.alive = true ∧
    wSlip.dev.linkPMax 0 < wSlip.dev.fget (Reg.ONF_LINKn_LAT_LAT_NOW 0) + wSlip.dev.linkG 0 ∧
    bitAt 3 2 = false ∧
    bitAt 7 2 = true ∧
    (wLead.dev.fset Reg.ONF_ROUTE_CMD_SET 3).leads = true ∧
    wSwitch.dev.live = true ∧
    wSwitch.dev.onf.switches.length = 1 ∧
    wSwitch.dev.onf.links.ents = [] :=
  by
  refine ⟨?_, ?_, ?_, ?_, ?_, ?_, ?_, ?_, ?_, ?_, ?_, ?_, ?_, ?_, ?_, ?_, ?_, ?_, ?_, ?_⟩ <;> decide +kernel

/-- PodTimeResults: its hypotheses can be met. -/
theorem test_PodTimeResults :
    (let e := ((dLink 3).takeCell 0 hCtl.hdr); e.2 = true ∧ e.1.rankFenced (e.1.mapRank 0) = false ∧ e.1.onf.seen = [] ∧ e.1.podtimeTaken 1 = true) ∧
    wLead.dev.live = true ∧
    wLead.dev.leads = true ∧
    (let d := (wElect 255).dev; d.live = true ∧ d.fon Reg.GLB_STRAPS_LEADER = true ∧ d.committed = true ∧ d.imageLeader = 0xFF ∧ d.onf.upSeen = true ∧
      d.onf.closed = false ∧ d.onf.follows = false ∧ d.rank ≤ d.onf.claim.getD 64) ∧
    (let d := (wElect 1).dev; d.live = true ∧ d.committed = true ∧ d.onf.upSeen = true ∧ d.onf.closed = false ∧ d.onf.follows = false ∧
      d.imageLeader = 1) ∧
    (let d := wMember.dev; d.live = true ∧ d.committed = true ∧ d.leads = false ∧ d.onf.closed = true ∧
      (listOf 4 (fun i => (d.sec secPodTopology).u8 (8 + i))).filter (fun r => decide (r < 64) && !d.rankLost r) = [2, 0, 0, 0]) ∧
    (let d := wMember.dev; d.frameAligned = true ∧ (List.range 64).all (fun n => decide (d.linkState n ≠ 1 ∧ d.linkState n ≠ 2)) = true) ∧
    (wMember.dev.onf.cmapEn = true) :=
  by
  refine ⟨?_, ?_, ?_, ?_, ?_, ?_, ?_, ?_⟩ <;> decide +kernel

/-- CollectiveResults: its hypotheses can be met. -/
theorem test_CollectiveResults :
    wColl.dev.live = true ∧
    (wColl.dev.wqFind 12).bind Wq.front = some ⟨0, mkRed 1⟩ ∧
    (wColl.dev.wqFind 12).map (fun q => wqClass q.ctx) = some 3 ∧
    ((wColl.dev.wqTurn (1 + wColl.dev.smvDie ⟨0, mkRed 1⟩) 3 12 (fun _ _ x => wColl.dev.smvCan (wColl.dev.smvDie ⟨0, mkRed 1⟩) x)).isSome) ∧
    (let d := (wCell 1 1 1 7 0 []).dev; d.live = true ∧ (d.smvBurst 0 0).isSome = true ∧
      (d.smvMatch 0 { (mkColl 1 1 false []).cell 1 with phase := 2 }).isSome = true) ∧
    (let d := (wCell 0 1 1 9 0 []).dev; let x := { (mkColl 0 1 false []).cell 1 with seq := 9, phase := 2 }; (d.smvBurst 0 1).isSome = true ∧
      d.smvMatch 0 x = none ∧ (d.grpMembers x.group).head? = some x.anchor ∧ (d.grp x.group).slice = 0 ∧ d.seqAhead x.group x.seq = true ∧
      d.seqAhead 3 6 = false ∧ d.seqAhead 3 8 = true) ∧
    (let c := mkColl 1 1 false []; c.phase = 1 ∧ opPair c.op = false ∧ c.me ≠ 0 ∧ c.succ = 0 ∧ (mkColl 0 3 true []).succ ≠ 0) ∧
    ((wCell 1 1 2 7 0 []).dev.smvBurst 0 0).isSome ∧
    ((wCell 1 1 2 6 0 []).dev.smvMatch 0 { (mkColl 1 1 false []).cell 2 with seq := 6 } = none) ∧
    ((wCell 1 2 3 7 0 []).dev.smvBurst 0 0).isSome ∧
    ((wCell 0 3 3 7 0 []).dev.smvBurst 0 1).isSome ∧
    ((wCell 0 3 4 7 0 []).dev.smvBurst 0 1).isSome ∧
    ((wCell 1 3 4 7 0 []).dev.smvMatch 0 ((mkColl 1 3 false []).cell 4) = some (mkColl 1 3 false [])) ∧
    (let d := (wCell 1 2 5 7 0 [0]).dev; let c := mkColl 1 2 false []; let x := { c.cell 5 with phase := 2, chunk := 0 }; d.smvMatch 0 x = some c ∧
      (d.smvBurst 0 0).isSome = true ∧ c.expected.contains (2, 0) = true ∧ c.members.getD c.pred 64 = 0 ∧
      1 + c.dataCells x ≤ (d.smvMessage 0 0 (1 + c.dataCells x)).1.length ∧ c.expected.contains (2, 1) = false) ∧
    (let d := (wReady 0).dev; let c := mkColl 0 2 false [(1, 0), (1, 1), (2, 0), (2, 1)]; d.live = true ∧ d.smv.colls.find 3 = some c ∧
      (c.expected.all (fun k => decide (k ∈ c.got))) = true ∧ c.me = 0) ∧
    (let d := (wReady 1).dev; let c := mkColl 1 2 false [(1, 0), (1, 1), (2, 0), (2, 1)]; d.live = true ∧ d.smv.colls.find 3 = some c ∧
      (c.expected.all (fun k => decide (k ∈ c.got))) = true ∧ c.me ≠ 0) :=
  by
  refine ⟨?_, ?_, ?_, ?_, ?_, ?_, ?_, ?_, ?_, ?_, ?_, ?_, ?_, ?_, ?_, ?_⟩ <;> decide +kernel

/-- CollectiveControlResults: its hypotheses can be met. -/
theorem test_CollectiveControlResults :
    (let e := ((dLink 3).takeCell 0 hCtl.hdr); e.2 = true ∧ e.1.rankFenced (e.1.mapRank 0) = false ∧ e.1.onf.seen = []) ∧
    hCtl.scope = 2 ∧
    (0x15 = Status.varianceRefused.code) ∧
    wLead.dev.alive = true ∧
    bitAt 1 0 = true ∧
    wLead.dev.leads = true ∧
    bitAt 1 1 = false ∧
    wHeldG.dev.live = true ∧
    (takeFirst (fun (h : SmvHeld) => decide (h.group = 3)) wHeldG.dev.smv.held).isSome = true ∧
    (let d := (wReady 1).dev; d.live = true ∧ (d.smv.colls.find 3).bind Coll.waitsFor = some 0) :=
  by
  refine ⟨?_, ?_, ?_, ?_, ?_, ?_, ?_, ?_, ?_, ?_⟩ <;> decide +kernel

/-- HostWindowResults: its hypotheses can be met. -/
theorem test_HostWindowResults :
    (let d := wHost.dev; d.live = true ∧ d.alive = true ∧ d.isFn 0 = true ∧ d.fnState 0 = 1 ∧ d.pageGroup 0 0 = some 0 ∧ d.bar4Shut = false) ∧
    (let q := { mkWq 4 0 0 with fetched := [], tail := 2 }; wHost.dev.wqFind 0 = some q ∧ fld 0x20000 2 14 = 0 ∧ fld 0x20000 48 16 = 0 ∧
      dbFits q (fld 0x20000 16 32) = true ∧ dbFits q 64 = true ∧ dbFits q 65 = false) ∧
    (let v := 63 * 2 ^ 48 + 64 * 2 ^ 16; fld v 2 14 = 0 ∧ fld v 48 16 = 63 ∧ fld v 16 32 = 64 ∧ 64 * 0 + 0x1F8 % 4096 / 8 = 63 ∧
      (wHost.dev.wqFind 63).any (fun q => dbFits q 64) = true) ∧
    ((wHost.dev.ev.eqs.find 0).map (fun q => (q.written, q.consumed)) = some (5, 2)) ∧
    (let d := wHost.dev; d.fget (Reg.HIF_WINk_w_KEY (fnLink 0) 0) = 257 ∧ d.fget (Reg.HIF_WINk_w_KEY (fnLink 0) 254) = 0 ∧ mrBase (d.mrEntry 1) + d.fget (Reg.HIF_WINk_w_OFFSET_4K 0 0) * 4096 + 64 = 64 ∧ (match d.checkKey 257 (d.peerUser 0) 64 4 with | .dev p => decide (p = 64) | _ => false) = true ∧ d.memStatus true 64 4 = .ok) ∧
    (let d := wHost.dev; d.cxlRegion.any (fun r => decide (d.memStatus true r.base 64 = .ok) &&
      decide (d.memStatus false (r.base + 64 * (r.len / 64 - 1)) 64 = .ok) && decide (64 * (r.len / 64 - 1) < r.len)) = true) :=
  by
  refine ⟨?_, ?_, ?_, ?_, ?_, ?_⟩ <;> decide +kernel

/-- QueueCommandResults: its hypotheses can be met. -/
theorem test_QueueCommandResults :
    wStage.dev.alive = true ∧
    wStage.dev.inStandby = false ∧
    wStage.dev.fon Reg.WQS_CMD_STATUS_BUSY = false ∧
    wStage.dev.createWqCheck 0 wStage.dev.stagedWq = .ok ∧
    wStage.dev.createWqCheck 63 wStage.dev.stagedWq = .ok ∧
    wStage.dev.createWqCheck 64 wStage.dev.stagedWq = .accessError ∧
    wHost.dev.alive = true ∧
    wHost.dev.inStandby = false ∧
    wHost.dev.fon Reg.WQS_CMD_STATUS_BUSY = false ∧
    (wHost.dev.wqFind 0).map Wq.state = some .active ∧
    wHost.dev.wqFind 2 = none ∧
    (let d := (wOf dHost).dev; let x := d.dataWords Reg.WQS_CMD_DATAi 3; d.isFn 0 = true ∧ fld x 0 64 % 4096 = 0 ∧ fld x 64 16 < fnVectors 0 ∧
      fld x 90 6 = 0 ∧ fld x 80 10 = 0 ∧ (d.ev.eqs.find 0).isSome = false) ∧
    ((wHost.dev.ev.eqs.find 0).isSome = true) ∧
    (let d := ((dHost.upDtu (fun t => { t with roots := ⟨[(1023, ⟨0x10030000000, 5, 0⟩)]⟩ })).putWords Reg.WQS_CMD_DATAi 3 (1023 * 2 ^ 80 + 63 * 2 ^ 64)); let x := d.dataWords Reg.WQS_CMD_DATAi 3; d.isFn 5 = true ∧
      fld x 0 64 % 4096 = 0 ∧ fld x 64 16 < fnVectors 5 ∧ fld x 90 6 = 0 ∧ (d.dtu.roots.find (fld x 80 10)).map (·.fn) = some 5) :=
  by
  refine ⟨?_, ?_, ?_, ?_, ?_, ?_, ?_, ?_, ?_, ?_, ?_, ?_, ?_, ?_⟩ <;> decide +kernel

/-- EntryAndLinkResults: its hypotheses can be met. -/
theorem test_EntryAndLinkResults :
    (let d := wHost.dev; d.live = true ∧
      (d.wqFind 0).map (fun q => (q.state, q.fetchIdx, q.tail, q.fetched.length, q.tries)) = some (.active, 0, 2, 0, 0) ∧
      ((d.readEnd (.ring 0)).wqXlate 0 0x10000 false).2.isSome = true ∧ (d.wqFind 0).map (fun q => wqSlot q q.fetchIdx) = some 0x10000) ∧
    (let d := wHost.dev; (d.wqFind 63).map (fun q => (q.state, q.fetchIdx, q.tail, q.tries, wqSlot q q.fetchIdx)) = some (.active, 0, 2, 1, 0x10000) ∧
      (((d.finc Reg.WQS_REFETCH_COUNT).readEnd (.ring 63)).wqXlate 63 0x10000 false).2.isSome = true) ∧
    ((wHost.dev.wqFind 1).map (fun q => (q.finished.length, q.unpub, q.state)) = some (1, true, .active)) ∧
    descSeq 0 = 0 ∧
    descSeq 0x10000 ≠ 0 ∧
    ((wHif 2 []).dev.fget (Reg.HIF_LINKk_STATUS_STATE 0) = 2) ∧
    (let d := (wHif 3 []).dev; d.alive = true ∧ d.linkPresent 0 = true ∧ d.pw.initDone = true ∧ d.pw.perst.getLsbD 0 = true ∧
      d.fget (Reg.HIF_LINKk_STATUS_STATE 0) = 3) ∧
    (let d := (wHif 1 []).dev; d.alive = true ∧ d.fget (Reg.HIF_LINKk_STATUS_STATE 0) = 1 ∧ (d.linkWidths 0).contains 16 = true ∧
      (d.linkWidths 0).contains 1 = true) ∧
    (let d := (wHif 2 []).dev; d.alive = true ∧ d.live = true ∧ d.linkUp 0 = true ∧ d.reads (.ring 0) = true ∧
      d.hif.reissued.contains (.ring 0) = false) ∧
    (let d := (wHif 2 [.ring 0]).dev; d.linkUp 0 = true ∧ d.reads (.ring 0) = true ∧ d.hif.reissued.contains (.ring 0) = true) :=
  by
  refine ⟨?_, ?_, ?_, ?_, ?_, ?_, ?_, ?_, ?_, ?_⟩ <;> decide +kernel

/-- TranslationResults: its hypotheses can be met. -/
theorem test_TranslationResults :
    (let d := (wMr 0).dev; (d.alive = true ∧ d.inStandby = false ∧ d.fon Reg.DTU_CMD_STATUS_BUSY = false) ∧
      d.regMrCheck 2 (BitVec.ofNat 256 (d.dataWords Reg.DTU_CMD_DATAi 8)) = .ok ∧
      d.regMrCheck 1 (BitVec.ofNat 256 (d.dataWords Reg.DTU_CMD_DATAi 8)) = .accessError ∧ mrState (d.mrEntry 1) = 1 ∧ mrState (d.mrEntry 2) ≠ 1 ∧
      d.dtu.revoking.length < 64) ∧
    (let d := (wMr 64).dev; (d.alive = true ∧ d.inStandby = false ∧ d.fon Reg.DTU_CMD_STATUS_BUSY = false) ∧ mrState (d.mrEntry 1) = 1 ∧
      64 ≤ d.dtu.revoking.length ∧ d.dtu.revoking.contains 65 = true ∧ d.dtu.syncs = [(none, 0)]) ∧
    (let d := wRoot.dev; let x := d.dataWords Reg.DTU_CMD_DATAi 4; let table := fld x 0 64; (d.alive = true ∧ d.inStandby = false ∧
      d.fon Reg.DTU_CMD_STATUS_BUSY = false) ∧ d.isFn (fld x 64 16) = true ∧ d.linkPresent (fld x 80 8) = true ∧ fld x 88 40 = 0 ∧ table % 4096 = 0 ∧
      poolBase ≤ table ∧ table < poolEnd ∧ d.dtu.roots.find 1023 = none) ∧
    (let bs := leBytes 8 (poolEnd - 8) ++ leBytes 8 5; let r := (updateRecords bs 1).headD (0, 0); wRoot.dev.fget Reg.DTU_UPDATE_COUNT_COUNT = 1 ∧
      (updateRecords bs 1).length = 1 ∧ r.1 % 8 = 0 ∧ poolBase ≤ r.1 ∧ r.1 < poolEnd) ∧
    (let r := (updateRecords (leBytes 8 poolEnd ++ leBytes 8 5) 1).headD (0, 0); r.1 = poolEnd) ∧
    (wRoot.dev.alive = true) :=
  by
  refine ⟨?_, ?_, ?_, ?_, ?_, ?_⟩ <;> decide +kernel

/-- PortFrameResults: its hypotheses can be met. -/
theorem test_PortFrameResults :
    (let d := wEth.dev; d.live = true ∧ d.alive = true ∧ d.portExists 0 = true ∧ d.portState 0 = 3 ∧ d.fget (Reg.ETH_PORTp_CTL_MTU 0) = 9216 ∧
      d.fget (Reg.ETH_PORTp_MAC_ADDR 0) = 0 ∧ d.fon (Reg.ETH_PORTp_CTL_PROMISC 0) = false ∧ d.fon (Reg.ETH_PORTp_CTL_MACSEC 0) = false) ∧
    (let b := mkFrame 64 0x8808 0x0101; b.length = 64 ∧ leNat (b.drop 60) = (crc32 (b.take 60)).toNat ∧
      leNat (b.drop 60) ≠ (crc32 (b.take 59)).toNat ∧ (beAt b 0 1).testBit 0 = true ∧ beAt (b.take 60) 12 2 = 0x8808 ∧ beAt (b.take 60) 14 2 = 0x0101) ∧
    (let b := mkFrame 64 0x8808 0x0101 ; let c := b.take 63 ++ [b.getD 63 0 + 1]; c.length = 64 ∧ leNat (c.drop 60) ≠ (crc32 (c.take 60)).toNat) ∧
    (let b := mkFrame 64 0x0800 0; b.length = 64 ∧ leNat (b.drop 60) = (crc32 (b.take 60)).toNat ∧ beAt (b.take 60) 12 2 ≠ 0x8808) ∧
    mkUni.length = 64 ∧
    leNat (mkUni.drop 60) = (crc32 (mkUni.take 60)).toNat ∧
    (beAt mkUni 0 1).testBit 0 = false ∧
    beAt mkUni 0 6 ≠ 0 ∧
    (wOf (wEth.dev.fset (Reg.ETH_PORTp_CTL_MTU 0) 63)).dev.fget (Reg.ETH_PORTp_CTL_MTU 0) < 64 ∧
    (let d := wEth.dev; d.fcMode 0 ≠ 1 ∧ d.eth.xoff.contains (8 * 0 + 7) = true ∧
      d.fget (Reg.ETH_PORTp_BUFc_XON 0 7) < d.cellsOf 0 7 false + d.cellsOf 0 7 true ∧ d.fcMode 0 ≠ 0) ∧
    (((wEth.dev.noteGateWaits 0).txPick 0).map (fun r => r.1.fin) = some none) ∧
    wTrain.dev.committed = false ∧
    wEth.dev.committed = true ∧
    (let d := wTrain.dev; d.running = true ∧ d.alive = true ∧ d.portExists 0 = true ∧ d.portState 0 = 2 ∧ d.portBarred 0 = false) ∧
    (let e (l : Bool) := (wTrain.dev.fset (Reg.TXS_GATEp_CTL_LIST 0) (b2n l)).fset (Reg.TXS_GATEp_CTL_EN 0) 1; (e false).gateListOk 0 0 = true ∧
      (e true).gateListOk 0 1 = false) ∧
    ((wEth.dev.txs.pend.find 0).isSome = true) :=
  by
  refine ⟨?_, ?_, ?_, ?_, ?_, ?_, ?_, ?_, ?_, ?_, ?_, ?_, ?_, ?_, ?_, ?_⟩ <;> decide +kernel

/-- EthernetTableResults: its hypotheses can be met. -/
theorem test_EthernetTableResults :
    (let d := wRule.dev; d.alive = true ∧ d.ethWords Reg.ETH_STR_DATAi 16 = 1 ∧ d.ethWords Reg.ETH_SA_DATAi 8 = 1 ∧ dHost.alive = true ∧
      dHost.ethWords Reg.ETH_STR_DATAi 16 = 0 ∧ dHost.ethWords Reg.ETH_SA_DATAi 8 = 0) ∧
    wEth.dev.live = true ∧
    (wEth.dev.txs.wheel.filter (fun w => decide (w.coarse = false) && decide (w.slot = 9))).length = 1 ∧
    (let d := (wSample 64).dev; d.live = true ∧ d.committed = true ∧ d.txs.ready = [] ∧ d.fon Reg.TXS_SAMPLE_CTL_EN = true ∧ d.subscribers ≤ 4096 ∧
      ringFull d.txs.written (d.fget Reg.TXS_SAMPLE_TAIL_TAIL) (d.fget Reg.TXS_SAMPLE_CTL_RING_LOG2) = true) ∧
    (let d := (wSample 63).dev; d.live = true ∧ d.committed = true ∧ d.txs.ready = [] ∧ d.fon Reg.TXS_SAMPLE_CTL_EN = true ∧ d.subscribers ≤ 4096 ∧
      d.pf0Root (d.fget Reg.TXS_SAMPLE_CTL_ROOT) = true ∧
      ringFull d.txs.written (d.fget Reg.TXS_SAMPLE_TAIL_TAIL) (d.fget Reg.TXS_SAMPLE_CTL_RING_LOG2) = false) ∧
    (wEth.dev.eth.txts.get [] 31 = [(3, 1000)]) :=
  by
  refine ⟨?_, ?_, ?_, ?_, ?_, ?_⟩ <;> decide +kernel

/-- QpCommandResults: its hypotheses can be met. -/
theorem test_QpCommandResults :
    (let d := (wQpCmd none).dev; (d.alive = true ∧ d.inStandby = false ∧ d.fon Reg.QPE_CMD_STATUS_BUSY = false) ∧
      d.createQpCheck 5 (Qp.fresh (BitVec.ofNat 2048 (d.stagedQp.toNat % 2 ^ 768))) = .ok ∧
      d.createQpCheck 4 (Qp.fresh (BitVec.ofNat 2048 (d.stagedQp.toNat % 2 ^ 768))) = .malformed) ∧
    (let d := (wQpCmd (some (mkQp 1 []))).dev; let q := { mkQp 1 [] with ctx := bvSet (mkQp 1 []).ctx (8 * 0x10) (8 * 0x50) (bvFld d.stagedQp (8 * 0x10) (8 * 0x50)) }; (d.alive = true ∧
      d.inStandby = false ∧ d.fon Reg.QPE_CMD_STATUS_BUSY = false) ∧ d.qp 5 = some (mkQp 1 []) ∧ (mkQp 1 []).state = 1 ∧ d.qpPathOk q = true ∧
      q.prot = false ∧ d.qpSlotOk q = true) ∧
    (let d := (wQpCmd (some (mkQp 2 []))).dev; let g := d.stagedQp; let q := mkQp 2 []; let r := { q with ctx := bvSet (bvSet (bvSet q.ctx 56 8 (bvFld g 56 8)) 112 8 (bvFld g 112 8)) 192 32 (bvFld g 192 32) }; (d.alive = true ∧
      d.inStandby = false ∧ d.fon Reg.QPE_CMD_STATUS_BUSY = false) ∧ q.state = 2 ∧ q.state ≠ 1 ∧ q.state ≠ 5 ∧ q.state ≠ 4 ∧ r.retryOk = true ∧
      r.get 0x1B 1 = 0) ∧
    (let q := { mkQp 4 [] with drained := true }; let d := (wQpCmd (some q)).dev; (d.alive = true ∧ d.inStandby = false ∧
      d.fon Reg.QPE_CMD_STATUS_BUSY = false) ∧ d.qp 5 = some q ∧ q.state = 4) ∧
    (let d := dQp 0; let a := BitVec.ofNat 512 (d.dataWords Reg.QPE_CMD_DATAi 16); (d.alive = true ∧ d.inStandby = false ∧
      d.fon Reg.QPE_CMD_STATUS_BUSY = false) ∧ bvFld a (8 * 0x18) 8 < 64 ∧ bvFld a (8 * 0x1D) 8 = 0 ∧ bvFld a (8 * 0x30) 128 = 0 ∧
      d.isFn (bvFld a (8 * 0x1E) 16) = true ∧ d.live = true) :=
  by
  refine ⟨?_, ?_, ?_, ?_, ?_⟩ <;> decide +kernel

/-- WorkRequestResults: its hypotheses can be met. -/
theorem test_WorkRequestResults :
    ((List.range 7).all (fun k => let d := (wReq (k + 1) 0).dev; let f := (d.wqFind 20).bind Wq.front; d.live &&
      (f.map (fun f => descOpcode f.desc) = some (k + 1)) && (d.wqTurn 0 0 20 d.qpeCan).isSome && f.any (fun f => !d.waitsTrigger 20 f.desc)) = true) ∧
    (let d := (wReq 1 (5 + 2 ^ 30)).dev; let f := (d.wqFind 20).bind Wq.front; d.live = true ∧ (d.wqTurn 0 0 20 d.qpeCan).isSome = true ∧
      f.any (fun f => d.waitsTrigger 20 f.desc) = true) ∧
    (let q := { mkQp 3 [] with recvs := [⟨0, 0, 0, 0, 64, none, none, some .ok, 0⟩], trigs := [3] }; (wQp q).dev.qp 5 = some q ∧
      (q.recvs.find? (fun r => r.done.isSome)).bind RecvUse.done = some .ok) ∧
    (let d := dHost.setQp 5 (mkQp 4 []); d.qp 5 = some (mkQp 4 []) ∧ (mkQp 4 []).state = 4 ∧ d.flushOver 20 = true ∧ d.flushOver 21 = true) :=
  by
  refine ⟨?_, ?_, ?_, ?_⟩ <;> decide +kernel

/-- PacketArrivalResults: its hypotheses can be met. -/
theorem test_PacketArrivalResults :
    rxOk 1 (mkQp 3 []) (mkPkt 0x0C 0 (List.replicate 16 0)) = true ∧
    (mkQp 3 []).classify 0 = .serve ∧
    (mkQp 3 []).unord = false ∧
    rxOk 1 (mkQp 3 []) (mkPkt 0x0C 0xFFFFFF (List.replicate 16 0)) = true ∧
    (mkQp 3 []).classify 0xFFFFFF = .duplicate ∧
    (mkQp 3 []).classify 0x800000 = .duplicate ∧
    (mkQp 3 []).classify 0x7FFFFF = .ahead ∧
    (let q := { mkQp 3 [] with atomics := [(0xFFFFFF, 7)] }; rxOk 2 q (mkPkt 0x14 0 (List.replicate 28 0)) = true ∧
      rxOk 2 q (mkPkt 0x13 0xFFFFFF (List.replicate 28 0)) = true ∧ q.classify 0xFFFFFF = .duplicate) ∧
    [0, 1, 0xFFFFFF].all (fun p => rxOk 0 (mkQp 3 []) (mkPkt 4 p [])) = true ∧
    (wRx (mkQp 3 []) (mkPkt 4 0 [])).dev.recvWaits (mkQp 3 []) = false ∧
    rxOk 3 qOpen (mkPkt 0x11 3 [0x1F, 0, 0, 0]) = true ∧
    rxOk 4 qOpen (mkPkt 0x11 3 [0x60, 0, 0, 0]) = true ∧
    psnSub 3 qOpen.una < qOpen.open_ ∧
    rxOk 5 qOpen (mkPkt 0x11 0 [0x3F, 0, 0, 0]) = true ∧
    qOpen.get 7 1 / 16 % 8 ≠ 7 ∧
    qOpen.get 0x97 1 / 16 % 8 ≠ 0 ∧
    rxOk 6 qOpen (mkPkt 0x11 3 [0x61, 0, 0, 0]) = true ∧
    (let q := qOpen.put 0x97 1 0; rxOk 5 q (mkPkt 0x11 0 [0x20, 0, 0, 0]) = true ∧ q.get 0x97 1 / 16 % 8 = 0 ∧ psnSub 0 q.una < q.open_) ∧
    (let q := qAsk .read 4; let x := mkPkt 0x10 0 (List.replicate 8 0); let d := (wRx q x).dev; rxOk 7 q x = true ∧
      (q.answerFor true 0).isSome = true ∧ q.prot = false ∧ min q.mtu (q.streamLen 4) = 4 ∧ (d.pktData q x (q.hdrAt + 4) (some 4)).length = 4 ∧
      (d.keyWrite q.localWrite 257 64 [0, 0, 0, 0] false).2 = none) ∧
    (let q := qAsk .atomic 8; let x := mkPkt 0x12 0 (List.replicate 12 0); let d := (wRx q x).dev; rxOk 8 q x = true ∧
      (q.answerFor false 0).isSome = true ∧ (d.keyWrite q.localWrite 257 64 (leBytes 8 0) false).2 = none) ∧
    rxOk 11 (mkQp 3 []) (mkPkt 0xC0 0 (List.replicate 32 0)) = true ∧
    rxOk 12 (mkQp 3 []) (mkPkt 0xC1 0 (List.replicate 32 0)) = true ∧
    (let d := (wRx (mkQp 3 []) (mkPkt 0xC1 0 (List.replicate 32 0))).dev.fset Reg.QPE_CC_EN_EN 0; d.live = true ∧
      (d.takeRx 5 (fun y => decide (d.pktRow 5 y = 12))).any (fun r => !r.2.fon Reg.QPE_CC_EN_EN) = true) ∧
    (mkQp 3 []).isUd = false ∧
    (let q := mkQp 3 [(1, 1, 1), (0x10, 3, 0)]; let x := mkPkt 0x64 0 (beBytes 4 9 ++ List.replicate 4 0); rxOk 9 q x = true ∧
      (wRx q x).dev.recvWaits q = false ∧ q.raw = false ∧ beAt x.bytes 12 4 ≠ q.get 0x14 4) ∧
    (let x := { mkPkt 0 0 (List.replicate 52 0) with raw := true }; let d := (wRx qRaw x).dev; rxOk 9 qRaw x = true ∧ d.recvWaits qRaw = false ∧
      qRaw.isUd = true ∧ qRaw.raw = true ∧ (d.recvTake 5 0 0).any (fun r => decide (r.2 = 0) &&
      ((r.1.qp 5).bind (fun q => q.recvs.find? (fun r => decide (r.idx = 0)))).any (fun u => decide (64 ≤ dFld u.desc 0x1C 4) &&
      decide ((r.1.landUd qRaw u.desc [(0, x.bytes), (64, [])]).2 = none))) = true) ∧
    (let d := (wRx (mkQp 3 []) (mkPkt 0x81 0 (List.replicate 16 0))).dev.fset Reg.QPE_CC_EN_EN 1; d.live = true ∧
      (d.takeRx 5 (fun x => decide (d.pktRow 5 x = 10))).any (fun r => r.2.ccOn (mkQp 3 [])) = true) :=
  by
  refine ⟨?_, ?_, ?_, ?_, ?_, ?_, ?_, ?_, ?_, ?_, ?_, ?_, ?_, ?_, ?_, ?_, ?_, ?_, ?_, ?_, ?_, ?_, ?_, ?_, ?_, ?_, ?_⟩ <;> decide +kernel

/-- QpTimerResults: its hypotheses can be met. -/
theorem test_QpTimerResults :
    (let q := mkQp 3 [(0x6C, 4, 0xFFFFFFFF)]; let d := (wQp q).dev.fset Reg.QPE_CC_EN_EN 1; d.live = true ∧ d.qp 5 = some q ∧ q.state = 3 ∧
      d.ccOn q = true ∧ d.fget Reg.QPE_CC_BINC_B_INC ≤ q.get 0x6C 4) ∧
    (let q := { mkQp 3 [(2, 2, 0x80), (0x18, 3, 1)] with unacked := 1 }; let d := (wQp q).dev; d.live = true ∧ d.qp 5 = some q ∧ q.state = 3 ∧
      q.flag 7 = true ∧ q.isUd = false ∧ q.open_ ≠ 0) ∧
    (let q := { mkQp 3 [] with rnrWait := some 3 }; let d := (wQp q).dev; d.live = true ∧ d.qp 5 = some q ∧ q.state = 3) ∧
    (let q := { mkQp 3 [(2, 2, 1)] with bitmap := [2] }; let d := (wQp q).dev; d.live = true ∧ d.qp 5 = some q ∧ q.state = 3 ∧ q.unord = true) :=
  by
  refine ⟨?_, ?_, ?_, ?_⟩ <;> decide +kernel

/-- FunctionResults: its hypotheses can be met. -/
theorem test_FunctionResults :
    (let d := (wVf 1 0 0).dev; d.alive = true ∧ d.vfmFn 5 = true ∧ d.vfmFn 255 = true ∧ d.vfmFn 262 = true ∧ d.mboxOpen 5 = true ∧
      d.fon (Reg.VFM_FNf_MBOX_CTL_FROM_FULL 5) = false ∧ d.fon (Reg.VFM_FNf_MBOX_CTL_TO_BUSY 5) = false ∧ d.fnState 5 = 1 ∧ (d.alive = true ∧
      d.inStandby = false ∧ d.fon Reg.VFM_CMD_STATUS_BUSY = false) ∧ (d.fnPart 5).isSome = true ∧ d.vf.vfEnable = true ∧ 5 ≤ d.vf.numVfs) ∧
    (let d := (wVf 1 1 0).dev; d.alive = true ∧ d.mboxOpen 5 = true ∧ d.fon (Reg.VFM_FNf_MBOX_CTL_FROM_FULL 5) = true ∧
      d.fon (Reg.VFM_FNf_MBOX_CTL_TO_BUSY 5) = true) ∧
    (let d := (wVf 0 0 0).dev; d.alive = true ∧ d.mboxOpen 5 = false ∧ d.fnState 5 = 0 ∧ d.inStandby = false) ∧
    (let d := (wVf 2 0 1).dev; d.alive = true ∧ d.fnState 5 = 2 ∧ d.fon (Reg.VFM_FNf_STATE_DRAIN_STUCK 5) = true) ∧
    (let d := (wVf 2 0 0).dev; d.alive = true ∧ d.fon (Reg.VFM_FNf_STATE_DRAIN_STUCK 5) = false) ∧
    (let d := (wVf 5 0 0).dev; (d.alive = true ∧ d.inStandby = false ∧ d.fon Reg.VFM_CMD_STATUS_BUSY = false) ∧ d.fnState 5 = 5) :=
  by
  refine ⟨?_, ?_, ?_, ?_, ?_, ?_⟩ <;> decide +kernel

/-- MigrationResults: its hypotheses can be met. -/
theorem test_MigrationResults :
    (let d := (wVf 1 0 0).dev; (d.alive = true ∧ d.inStandby = false ∧ d.fon Reg.VFM_CMD_STATUS_BUSY = false) ∧ isVf 5 = true ∧ isVf 255 = true ∧
      d.fnState 5 = 1) ∧
    (let d := (wVf 3 0 0).dev; (d.alive = true ∧ d.inStandby = false ∧ d.fon Reg.VFM_CMD_STATUS_BUSY = false) ∧ d.live = true ∧ d.fnState 5 = 3 ∧
      d.fnQuiet 5 = true) ∧
    (let d := (wVf 4 0 0).dev; let e := d.fset Reg.VFM_IMG_NEED_BYTES (d.vfSize 5); (d.alive = true ∧ d.inStandby = false ∧
      d.fon Reg.VFM_CMD_STATUS_BUSY = false) ∧ d.fnState 5 = 4 ∧ d.vfSize 5 ≤ e.fget Reg.VFM_IMG_LEN_LEN ∧ (e.fnRegions 5 1).length ≤ 262144 ∧
      (e.fnRoots 5).length ≤ 16 ∧ e.linkUp 0 = true) ∧
    (let d := (wVf 4 0 0).dev.fset Reg.VFM_IMG_LEN_LEN 1663; (d.fset Reg.VFM_IMG_NEED_BYTES (d.vfSize 5)).fget Reg.VFM_IMG_LEN_LEN < d.vfSize 5) ∧
    (let d := (wVf 0 0 0).dev; (d.alive = true ∧ d.inStandby = false ∧ d.fon Reg.VFM_CMD_STATUS_BUSY = false) ∧ d.fnState 5 = 0 ∧
      d.restoreCheck (mkBlob []) 5 = .malformed) ∧
    (let d := (wVf 0 0 0).dev; d.restoreCheck (mkBlob ((wVf 4 0 0).dev.vfImage 5)) 5 = .ok) :=
  by
  refine ⟨?_, ?_, ?_, ?_, ?_, ?_⟩ <;> decide +kernel

/-- CipherResults: its hypotheses can be met. -/
theorem test_CipherResults :
    (let d := (wKey false).dev; (d.alive = true ∧ d.inStandby = false ∧ d.fon Reg.CAD_CMD_STATUS_BUSY = false) ∧ d.committed = true ∧
      d.slotMode 2 ≠ 0 ∧ (d.slot 2).loaded = false ∧ (d.slot 2).old = false ∧ d.linkUp 0 = true ∧ d.parentKey 2 = some (keyK1 7) ∧
      (d.slot 1).loaded = true ∧ d.keyInUse 1 = false) ∧
    (let d := (wKey true).dev; (d.alive = true ∧ d.inStandby = false ∧ d.fon Reg.CAD_CMD_STATUS_BUSY = false) ∧ (d.slot 1).loaded = true ∧
      d.keyInUse 1 = true) ∧
    (let d := (wKey false).dev; d.running = true ∧ (d.slot 3).old = true ∧ d.keyInUse 3 = false ∧ d.cad.waiting = none) ∧
    ([0x70, 0x71].all (fun op => let d := (wCip op).dev; d.live && ((d.wqFind 22).bind Wq.front).any (fun e => decide (descOpcode e.desc = op)) &&
      (d.wqFind 22).any (fun q => decide (wqClass q.ctx = 4)) && decide (d.cad.streams.ents.length < 256) &&
      (d.wqTurn 5 4 22 (fun _ _ _ => true)).isSome) = true) ∧
    (let d := (wUnit 0x70).dev; let x : CadStream := ⟨22, 0, mkCip 0x70, 0, 0, 1, [(0, 9)], none⟩; d.live = true ∧ d.cad.streams.find 255 = some x ∧
      2 ^ cShift x.desc = 512 ∧ ((d.readEnd (.stream 255)).keyRead (x.user false) (cSrcKey x.desc) (cSrc x.desc + 0 * 512) 512 .lost).2.2 = none ∧
      d.cipherOverlap x.desc = false ∧ (d.keyWrite (x.user true) (cDstKey x.desc) (cDst x.desc + 0 * 512) (List.replicate 512 1) false).2 = none ∧
      cLen x.desc / 512 ≤ x.next) :=
  by
  refine ⟨?_, ?_, ?_, ?_, ?_⟩ <;> decide +kernel

/-- TrustResults: its hypotheses can be met. -/
theorem test_TrustResults :
    (let d := (wTrust none 3 none).dev; d.alive = true ∧ d.fon Reg.SEC_CMD_STATUS_BUSY = false ∧ d.rollback = 0 ∧ d.committed = true ∧
      64 ≤ d.fget Reg.GLB_IMAGE_INFO_SECURITY_VERSION ∧ d.fget Reg.IMG_STATUS_STATE = 0 ∧ d.linkUp 0 = true ∧ d.ownerSet = false ∧
      (d.upTr (fun t => { t with owner := some 5 })).ownerSet = true ∧ d.pw.cold = false ∧ d.spdmUp true = true ∧ d.spdmUp false = true ∧
      d.spdmState true = 3 ∧ d.spdmState false = 3 ∧ d.canSign = true) ∧
    (let d := (wTrust (some (0, 2, true)) 0 (some (.challenge true false 0))).dev; d.alive = true ∧ d.tr.blow = some (0, 2, true) ∧
      d.spdmState true < 3 ∧ d.canSign = false) ∧
    (let d := (wTrust (some (63, 64, false)) 3 (some (.measurements true [] 0))).dev; d.alive = true ∧ d.tr.blow = some (63, 64, false) ∧
      d.canSign = false ∧ d.spdmState true = 3 ∧ d.pw.cold = false ∧ d.tr.signing = some (.measurements true [] 0)) ∧
    (0 : BitVec 16).toNat < (wTrust none 3 none).dev.certChain.length :=
  ⟨by decide +kernel, by decide +kernel, by decide +kernel, by simp [Dev.certChain, bytes256, leBytes]⟩

/-- ImageResults: its hypotheses can be met. -/
theorem test_ImageResults :
    (let d := (wImg 0 []).dev; d.alive = true ∧ d.inStandby = false ∧ d.imgState = 0 ∧ (wImg 5 []).dev.imgState = 5 ∧ (wImg 4 []).dev.imgState = 4 ∧
      (wImg 4 []).dev.alive = true ∧ (wImg 4 []).dev.inStandby = false) ∧
    (let d := (wImg 3 [(0x15, 1, 1)]).dev.fset Reg.IMG_POLICY_REFUSE_VARIANT 1; let b := mkSec 16384 [(0x15, 1, 1)]; d.alive = true ∧ d.imgState = 3 ∧
      d.img.staged = some ⟨b⟩ ∧ (imgVariant b && d.fon Reg.IMG_POLICY_REFUSE_VARIANT) = true) ∧
    (let d := (wImg 3 [(0x13, 1, 1), (0x28, 4, 9)]).dev; let b := mkSec 16384 [(0x13, 1, 1), (0x28, 4, 9)]; d.imgState = 3 ∧ (imgVariant b &&
      d.fon Reg.IMG_POLICY_REFUSE_VARIANT) = false ∧ (imgScoped b && !d.epochsMatch b (imgPart b)) = true) ∧
    (let d := (wImg 3 [(0x13, 1, 1)]).dev; let b := mkSec 16384 [(0x13, 1, 1)]; d.imgState = 3 ∧ imgVariant b = false ∧ imgScoped b = true ∧
      d.epochsMatch b (imgPart b) = true ∧ d.stageBad 0 b.len = false) ∧
    (let d := (wImg 3 []).dev; let b := mkSec 16384 []; d.alive = true ∧ d.inStandby = false ∧ d.imgState = 3 ∧ d.img.staged = some ⟨b⟩ ∧
      imgVariant b = false ∧ imgScoped b = false ∧ d.stageBad 0 b.len = false) ∧
    (let d := (wImg 1 []).dev; d.live = true ∧ d.imgState = 1) ∧
    (let d := (wImg 2 []).dev; d.live = true ∧ d.imgState = 2 ∧ d.img.staged = some ⟨mkSec 16384 []⟩ ∧ d.stageBad 0 4096 = false ∧
      d.stageBad (16384 - 7856) 7856 = false) ∧
    (let d := (wDrain 31).dev; d.live = true ∧ d.partHeld 31 = true ∧ d.partBusy 31 = false ∧ (wDrain 0).dev.partHeld 0 = true ∧
      (wDrain 0).dev.partBusy 0 = true) ∧
    (let d := (wImg 0 []).dev; d.fon Reg.SEC_CMD_STATUS_BUSY = false ∧ (d.fset Reg.SEC_CMD_STATUS_BUSY 1).imgState ≠ 4 ∧
      ((wImg 4 []).dev.fset Reg.SEC_CMD_STATUS_BUSY 1).imgState = 4 ∧ (d.upTr (fun t => { t with sanitizing := true })).tr.sanitizing = true) :=
  by
  refine ⟨?_, ?_, ?_, ?_, ?_, ?_, ?_, ?_, ?_⟩ <;> decide +kernel

/-- ErrorResults: its hypotheses can be met. -/
theorem test_ErrorResults :
    (let d := (wErr [.hbmTraining 7 15, .d2d 7 31]).dev; d.running = true ∧ d.alive = true ∧ d.inStandby = false ∧
      d.ras.pending.contains (.d2d 7 31) = true ∧ d.ras.pending.contains (.d2d 6 31) = false ∧ (d.siteUnit (.d2d 7 31)).1 ≠ 4 ∧
      d.ras.pending.contains (.hbmTraining 7 15) = true ∧ d.cad.fenced.contains 95 = false ∧ fenceNames 0 0 = false ∧ fenceNames 3 127 = true ∧
      d.isFenced 3 127 = false) ∧
    (let a : BitVec 42 := 0x10000000000; let d := (wErr [.word a]).dev; d.running = true ∧ d.ras.pending.contains (.word a) = true ∧
      (d.siteUnit (.word a)).1 = 4 ∧ repeatsOf (d.upRas (fun r => { r with pending := [] })).ras.repeats (4, (d.siteUnit (.word a)).2.1) ≠ 0) :=
  by
  refine ⟨?_, ?_⟩ <;> decide +kernel

/-- SelfTestResults: its hypotheses can be met. -/
theorem test_SelfTestResults :
    (let d := (wPost 0x7F 0).dev; d.pw.cold = false ∧ d.pw.kettle = true ∧ d.pw.initDone = false ∧ d.fon Reg.BST_POST_STATUS_FAIL = false ∧
      d.bst.started.getLsbD 6 = true ∧ d.bst.started.getLsbD 3 = true ∧ d.bst.ended.getLsbD 3 = false ∧ d.fget (Reg.BST_GROUPg_LASTING 3) < 255) ∧
    (let d := (wSvc none).dev; (d.alive = true ∧ d.inStandby = false ∧ d.fon Reg.BST_SVC_STATUS_BUSY = false) ∧ d.running = true ∧
      d.svcLinkIdle 0 = true ∧ d.svcLinkIdle 63 = false ∧ d.portExists 0 = true ∧ d.portState 0 = 1) ∧
    (let d := (wSvc (some (1, .quiet))).dev; d.running = true ∧ (d.svcLink 0 .quiet).isSome = true ∧ d.linkQuiet 0 = true) ∧
    (let d := (wSvc (some (1, .prbs))).dev; d.running = true ∧ d.bst.svc = some ⟨1, 0, .prbs, 0⟩ ∧
      (wSvc (some (2, .prbs))).dev.bst.svc = some ⟨2, 0, .prbs, 0⟩) ∧
    (let d := (wSvc (some (1, .restore))).dev; let e := (d.fset (Reg.ONF_LINKn_STATE_LANES 0) 7).updLink 0 (fun l => { l with testing := false, saved := none }); d.running = true ∧
      (d.svcLink 0 .restore).isSome = true ∧ e.fon (Reg.ONF_LINKn_CTL_DISABLE 0) = false ∧ popBits 4 (d.goodLanes 0 7).toNat = 3 ∧
      (d.onfLink 0).saved.isSome = true ∧
      ((d.fset (Reg.ONF_LINKn_CTL_DISABLE 0) 1).fset (Reg.ONF_LINKn_STATE_LANES 0) 7).fon (Reg.ONF_LINKn_CTL_DISABLE 0) = true) :=
  by
  refine ⟨?_, ?_, ?_, ?_, ?_⟩ <;> decide +kernel

/-- PowerControlResults: its hypotheses can be met. -/
theorem test_PowerControlResults :
    (let d := (wPow false 800).dev; d.pw.brakePin = false ∧ (d.upPw (fun p => { p with brakePin := true })).alive = true ∧
      (State.reset.dev.upPw (fun p => { p with brakePin := true })).alive = false ∧ State.reset.dev.pw.brakePin = false ∧
      (d.upPw (fun p => { p with brakePin := false })).fon Reg.PWR_BRAKE_ACTIVE = false ∧ d.pw.falling = some 3) ∧
    (let e := (wPow true 800).dev.upPw (fun p => { p with brakePin := false }); e.alive = true ∧ e.fon Reg.PWR_BRAKE_ACTIVE = true) ∧
    (let d := (wPow false 800).dev; d.alive = true ∧ d.sensed = true ∧ d.fget Reg.PWR_CAP_CAP_W < d.fget Reg.PWR_EST_AVG_W ∧ d.pw.cap < 6 ∧
      1 ≤ d.fget Reg.PWR_CAP_WINDOW_MS ∧ d.tooHot = false ∧ d.temp d.hotSensor < d.throt - 48) ∧
    (let d := (wPow false 1600).dev; d.alive = true ∧ d.tooHot = true ∧ d.pw.thermal < 6 ∧ d.pw.hot = false ∧
      (d.upPw (fun p => { p with hot := true })).tooHot = true) ∧
    (let d := (wPow false 800).dev; d.sensed = true ∧ d.temp d.hotSensor < 16 * 105) ∧
    (let d := (wState 0).dev; d.alive = true ∧ d.fon Reg.PWR_CMD_STATUS_BUSY = false ∧ d.canStandby = true ∧ d.inStandby = false ∧
      (wState 2).dev.alive = true ∧ (wState 2).dev.canStandby = false ∧ (wState 2).dev.inStandby = true) ∧
    (wState 1).dev.fget Reg.PWR_STATE_STATE = 1 ∧
    (wState 3).dev.fget Reg.PWR_STATE_STATE = 3 :=
  by
  refine ⟨?_, ?_, ?_, ?_, ?_, ?_, ?_, ?_⟩ <;> decide +kernel

/-- ResetResults: its hypotheses can be met. -/
theorem test_ResetResults :
    State.reset.dev.pw.pwrok = false ∧
    State.reset.dev.pw.cold = true ∧
    State.reset.dev.pw.kettle = false ∧
    State.reset.dev.pw.initDone = false ∧
    State.reset.dev.alive = false ∧
    (let d := (wState 0).dev; d.pw.cold = false ∧ d.pw.pwrok = true ∧ d.pw.kettle = true ∧ d.alive = true ∧ d.fon Reg.PWR_CMD_STATUS_BUSY = false ∧
      d.pw.initDone = true ∧ tapLevel .bypass = 0 ∧ tapLevel .boundary ≤ d.fget Reg.SEC_DEBUG_LEVEL ∧ tapLevel .scan ≠ 0 ∧
      d.fget Reg.SEC_DEBUG_LEVEL < tapLevel .scan) ∧
    (let d := (wPow false 2000).dev; d.pw.pwrok = true ∧ d.pw.thermtrip = false ∧ 16 * 125 ≤ d.temp 47) ∧
    (let d := (wState 0).dev.upPw (fun p => { p with cold := true }); d.pw.pwrok = true ∧ d.pw.thermtrip = false ∧ d.pw.cold = true) ∧
    (let d := (wState 0).dev.upPw (fun p => { p with kettle := false }); d.pw.cold = false ∧ d.pw.kettle = false) ∧
    (let d := (wPost 0xFF 0xFF).dev; d.pw.cold = false ∧ d.pw.kettle = true ∧ d.pw.initDone = false ∧ d.bst.ended = 0xFF ∧
      d.fon Reg.BST_POST_STATUS_FAIL = false ∧ d.fget Reg.PWR_STATE_STATE ≠ 4 ∧ (d.fset Reg.PWR_STATE_STATE 4).fget Reg.PWR_STATE_STATE = 4) :=
  by
  refine ⟨?_, ?_, ?_, ?_, ?_, ?_, ?_, ?_, ?_, ?_⟩ <;> decide +kernel

/-- ManagementResults: its hypotheses can be met. -/
theorem test_ManagementResults :
    (wState 0).dev.mgtUp = true ∧
    (let d := (wState 0).dev.fset Reg.MGT_STATUS_ALERT 1; d.mgtUp = true ∧ d.fon Reg.MGT_STATUS_ALERT = true ∧ d.sensorOp 1 ≠ 2 ∧
      d.mg.disabled.contains 55 = false ∧ d.mg.events = [] ∧ d.pw.cold = false) ∧
    (let d := (wState 0).dev.upMg (fun m => { m with events := [(55, 3)] }); d.mgtUp = true ∧ d.mg.events = [(55, 3)] ∧ d.mg.pend = []) ∧
    (wState 0).dev.fon Reg.MGT_CTL_RESET_EN = true ∧
    ((wState 0).dev.fset Reg.MGT_CTL_RESET_EN 0).fon Reg.MGT_CTL_RESET_EN = false ∧
    ((wState 0).dev.fset Reg.MGT_CTL_RESET_EN 0).mgtUp = true :=
  by
  refine ⟨?_, ?_, ?_, ?_, ?_, ?_⟩ <;> decide +kernel

/-- RegisterAccessResults: its hypotheses can be met. -/
theorem test_RegisterAccessResults :
    (let f : FieldDef := ⟨63, 1, .w1c, 0, false, none⟩; f.own = false ∧ f.lo + f.w ≤ 64) ∧
    (let d := (wState 0).dev; d.alive = true ∧ (findReg Reg.PWR_CAP).any (fun r => !r.wide) = true ∧ Reg.PWR_CAP % 4 = 0 ∧
      (findReg Reg.DTU_FAULT_BASE).any (fun r => r.wide) = true ∧ findReg (Reg.DTU_FAULT_BASE + 4) = none) ∧
    findReg 0xFFFFFC = none ∧
    upperOf 0xFFFFFC = none ∧
    mboxAt 0xFFFFFC = none ∧
    0xFFFFFC % 4 = 0 ∧
    barAccess 3 4 = false :=
  by
  refine ⟨?_, ?_, ?_, ?_, ?_, ?_, ?_⟩ <;> decide +kernel

/-- StepRunsFront: its hypotheses can be met. -/
theorem test_StepRunsFront :
    State.reset.pending = [] ∧
    State.reset.dev.tick.turnTile = none ∧
    wTile.pending = [] ∧
    wTile.dev.tick.turnTile = some 3 ∧
    (({ wTile with pending := [.load] } : State)).pending = [.load] ∧
    wNop.pending = [] ∧
    wNop.dev.tick.turnTile = some 3 ∧
    tileDecode 3 (wNop.dev.tick.fetchWord 3 (wNop.dev.tick.tile 3).pc) = some (.nop 3 hTrue ⟨0, 0, 0, 0, 0⟩) ∧
    (tileDecode 3 (wTile.dev.tick.fetchWord 3 (wTile.dev.tick.tile 3).pc) = none) :=
  by
  refine ⟨?_, ?_, ?_, ?_, ?_, ?_, ?_, ?_, ?_⟩ <;> decide +kernel

/-- TileWordRoundTrip: its hypotheses can be met. -/
theorem test_TileWordRoundTrip :
    tileDecode 511 0x7000000000000000 = some (.nop 511 hTrue ⟨0, 0, 0, 0, 0⟩) ∧
    tileEncode (.nop 511 hTrue ⟨0, 0, 0, 0, 0⟩) = some 0x7000000000000000 ∧
    instrTile (.nop 511 hTrue ⟨0, 0, 0, 0, 0⟩) = some 511 ∧
    tileDecode 0 0xFFFFFFFFFFFFFFFF = none :=
  by
  refine ⟨?_, ?_, ?_, ?_⟩ <;> decide +kernel

/-- MemoryStaysCanonical: its hypotheses can be met. -/
theorem test_MemoryStaysCanonical :
    State.reset.dev.mem.ram.wf = true ∧
    ({ wMem with pending := [.load] } : State).dev.mem.ram.wf = true ∧
    dHost.mem.ram.wf = true ∧
    dHost.mem.ram.cells ≠ [] :=
  by
  refine ⟨?_, ?_, ?_, ?_⟩ <;> decide +kernel

/-- StoreFrame: its hypotheses can be met. -/
theorem test_StoreFrame :
    (let d := dHost; d.holdingMove 0x10000000000 = false ∧ d.mem.bad = [] ∧ d.cryptAt 0x10000000000 = none ∧
      (d.site (d.serve 0x10000000000)).isSome = true ∧
      ((d.site (d.serve 0x10000000001)).map Site.place) ≠ ((d.site (d.serve 0x10000000000)).map Site.place)) ∧
    (let a := 0x20000000000; let d := (wPass.dev.upMem (fun m => { m with moves := [wMove 0 0 true] })); d.holdingMove a = true) :=
  by
  refine ⟨?_, ?_⟩ <;> decide +kernel

/-- RollbackCount: its hypotheses can be met. -/
theorem test_RollbackCount :
    (wState 0).dev.alive = true ∧
    (let d := (wImg 2 []).dev; d.live = true ∧ d.imgState = 2 ∧ d.img.staged = some ⟨mkSec 16384 []⟩ ∧ d.stageBad 0 4096 = false ∧
      d.stageBad (16384 - 7856) 7856 = false) :=
  by
  refine ⟨?_, ?_⟩ <;> decide +kernel

/-! ## Ill-formed commands -/

/-- The check refuses a command for each of its conditions. -/
theorem test_wellFormed :
    (Instr.registerWrite 1 0xFFFFD 4 0).wellFormed = false ∧ (Instr.registerWrite 0 0 4 0x100000000).wellFormed = false ∧
    (Instr.registerWrite 0 0x3FFFFFC 4 0xFFFFFFFF).wellFormed = true ∧
    (Instr.rcRead 0 0 9).wellFormed = false ∧ (Instr.lowerHalfWrite 4 0).wellFormed = false ∧ (Instr.upperHalfWrite 8 0).wellFormed = false ∧
    (Instr.lowerHalfRead 0x4000000).wellFormed = false ∧ (Instr.imageCopyDone (.ok ⟨4, ⟨[(4, 1)]⟩⟩)).wellFormed = false ∧
    (Instr.restore 1 (.ok ⟨0, ⟨[(0, 1)]⟩⟩)).wellFormed = false ∧ (Instr.placementEpochEnd [(1, 2), (1, 3)]).wellFormed = false ∧
    (Instr.placementEpochEnd [(1, 64)]).wellFormed = false ∧ (Instr.place hCtl 0 0 0 0 (2 ^ 54)).wellFormed = false ∧
    (Instr.switch hCtl 0 (2 ^ 54) 0 0 0).wellFormed = false ∧ (Instr.zoneCounterWrite 0 (255 * 134217728 - 1) 4 false).wellFormed = false ∧
    (Instr.peerWrite 0 0 [] false).wellFormed = false ∧ (Instr.peerWrite 0 (256 * 134217728) [0] false).wellFormed = false ∧
    (Instr.bar4Read 0 (256 * 134217728)).wellFormed = false ∧ (Instr.doorbell 1 0x3FFFD 4 0).wellFormed = false ∧
    (Instr.podtime hCtl 0 0 0 false 64).wellFormed = false ∧ (Instr.entryFetch 0 (.ok (List.replicate 65 0))).wellFormed = false ∧
    (Instr.refetch 0 (.ok (List.replicate 65 0))).wellFormed = false ∧ (Instr.import 0 (.ok (List.replicate 89 0))).wellFormed = false ∧
    (Instr.debugToken (.ok (List.replicate 7921 0))).wellFormed = false ∧ (Instr.programOwnerKey (.ok (List.replicate 33 0))).wellFormed = false ∧
    (Instr.bistGroupDone 3 [⟨.hbm 0 0, 0, true⟩] 0).wellFormed = false ∧
    (Instr.bistGroupDone 3 [⟨.hbm 0 0, 1, true⟩, ⟨.hbm 0 0, 2, true⟩] 0).wellFormed = false ∧ Instr.load.wellFormed = true := by
  refine ⟨?_, ?_, ?_, ?_, ?_, ?_, ?_, ?_, ?_, ?_, ?_, ?_, ?_, ?_, ?_, ?_, ?_, ?_, ?_, ?_, ?_, ?_, ?_, ?_, ?_, ?_, ?_⟩ <;> decide +kernel

/-! ## Words of tile instructions -/

/-- CLASS in [63:60], OP in [59:52], predicate in [51:49], N in [48] and the fields of each format (R121, R122, R125). -/
theorem test_tileWords :
    -- ADD s1, s2, s3 under p0: CLASS 0, OP 0x01, Format R
    tileDecode 0 (0b0000_00000001_000_0_00001_00010_00011_00000_0000000000000000000000000000) = some (.add 0 ⟨0, false⟩ (.reg ⟨1, 2, 3, 0, 0⟩)) ∧
    -- ADD s31, s0, −1 under not p1: OP bit 7 set, Format I
    tileDecode 5 (0b0000_10000001_001_1_11111_00000_000000_11111111111111111111111111111111) = some (.add 5 ⟨1, true⟩ (.imm ⟨31, 0, 0, 0xFFFFFFFF⟩)) ∧
    -- LD s4, [s5 + 8]: CLASS 0, OP 0x18, Format IM
    tileDecode 511 (0b0000_00011000_000_0_00100_00101_00000000000000_000000000000000000001000) = some (.ld 511 ⟨0, false⟩ ⟨4, 5, 0, 8⟩) ∧
    -- VADD v1, v2, v3: CLASS 1, OP 0x01
    tileDecode 1 (0b0001_00000001_000_0_00001_00010_00011_00000_0000000000000000000000000000) = some (.vadd 1 ⟨0, false⟩ ⟨1, 2, 3, 0, 0⟩) ∧
    -- MMA acc1 with s2, s3, s4, s5: CLASS 2, OP 0x01, Format M
    tileDecode 1 (0b0010_00000001_000_0_001_00_00010_00011_00100_00101_0110_0111_1_0_1_0_00000000000) =
      some (.mma 1 ⟨0, false⟩ ⟨1, 0, 2, 3, 4, 5, 6, 7, true, false, true, false, 0⟩) ∧
    -- DMA with s8, context 1: CLASS 4, OP 0x01, Format X
    tileDecode 1 (0b0100_00000001_000_0_00000_01000_00000_000000001_000000000000000000000000) = some (.dma 1 ⟨0, false⟩ ⟨0, 8, 0, 1, 0⟩) ∧
    -- SEND v3 on channel 2: CLASS 5, OP 0x01
    tileDecode 1 (0b0101_00000001_000_0_00000_00011_00000_000000010_000000000000000000000000) = some (.send 1 ⟨0, false⟩ ⟨0, 3, 0, 2, 0⟩) ∧
    -- BAR 7: CLASS 6, OP 0x01; HALT: CLASS 7, OP 0x01; an unassigned class
    tileDecode 1 (0b0110_00000001_000_0_00000_00000_00000_000000111_000000000000000000000000) = some (.bar 1 ⟨0, false⟩ ⟨0, 0, 0, 7, 0⟩) ∧
    tileDecode 1 0x7010000000000000 = some (.halt 1 ⟨0, false⟩ ⟨0, 0, 0, 0, 0⟩) ∧ tileDecode 1 0x8010000000000000 = none ∧
    decodeTableWord 64 0x7010000000000000 = none := by
  refine ⟨?_, ?_, ?_, ?_, ?_, ?_, ?_, ?_, ?_, ?_, ?_⟩ <;> decide +kernel

end Sys2Proof.Tests
end

section
/-! PROOFS. What leaves memory's bytes alone. `Dev.foo_ram` says of a function of the device that it stores no byte;
in the order of the definitions. -/
namespace Sys2Proof.Machine
open Sys2Proof

@[simp] theorem Dev.ite_ram (c : Prop) [Decidable c] (a b : Dev) :
    (if c then a else b).mem.ram = if c then a.mem.ram else b.mem.ram := by split <;> rfl

@[simp] theorem Dev.foldl_ram {α : Type} (f : Dev → α → Dev) (hf : ∀ d a, (f d a).mem.ram = d.mem.ram) (l : List α) (d : Dev) :
    (l.foldl f d).mem.ram = d.mem.ram := by
  induction l generalizing d with
  | nil => rfl
  | cons a r ih => rw [List.foldl_cons, ih, hf]

@[simp] theorem Dev.ite_fst_ram {α : Type} (c : Prop) [Decidable c] (a b : Dev × α) :
    (if c then a else b).1.mem.ram = if c then a.1.mem.ram else b.1.mem.ram := by split <;> rfl

@[simp] theorem Dev.fadd_ram (d : Dev) (f : RegField) (n : Nat) : (d.fadd f n).mem.ram = d.mem.ram := by simp [Dev.fadd]

@[simp] theorem Dev.finc_ram (d : Dev) (f : RegField) : (d.finc f).mem.ram = d.mem.ram := by simp [Dev.finc]

@[simp] theorem Dev.forb_ram (d : Dev) (f : RegField) (mask : Nat) : (d.forb f mask).mem.ram = d.mem.ram := by simp [Dev.forb]

@[simp] theorem Dev.fclr_ram (d : Dev) (f : RegField) (mask : Nat) : (d.fclr f mask).mem.ram = d.mem.ram := by simp [Dev.fclr]

@[simp] theorem Dev.setRoleEpoch_ram (d : Dev) (p : Nat) (e : BitVec 8) : (d.setRoleEpoch p e).mem.ram = d.mem.ram := by simp [Dev.setRoleEpoch]

@[simp] theorem Dev.keyEmptyNote_ram (d : Dev) (st : Status) : (d.keyEmptyNote st).mem.ram = d.mem.ram := by simp [Dev.keyEmptyNote]

@[simp] theorem Dev.readEnd_ram (d : Dev) (u : ReadUser) : (d.readEnd u).mem.ram = d.mem.ram := by simp [Dev.readEnd]

@[simp] theorem Dev.hostWrite_ram (d : Dev) (link addr : Nat) (bytes : List Byte) (flagged : Bool) :
    (d.hostWrite link addr bytes flagged).mem.ram = d.mem.ram := by simp [Dev.hostWrite]

@[simp] theorem Dev.sendMsix_ram (d : Dev) (fn vec : Nat) : (d.sendMsix fn vec).mem.ram = d.mem.ram := by simp [Dev.sendMsix]

@[simp] theorem Dev.writeFault_ram (d : Dev) (r : FaultRec) : (d.writeFault r).mem.ram = d.mem.ram := by simp [Dev.writeFault]

@[simp] theorem Dev.collapse_ram (d : Dev) (fn ty status : Nat) (body : BitVec 128) : (d.collapse fn ty status body).mem.ram = d.mem.ram := by
  simp [Dev.collapse]

@[simp] theorem Dev.eqWrite_ram (d : Dev) (fn ty status : Nat) (collapsed : Bool) (count : Nat) (body : BitVec 128) :
    (d.eqWrite fn ty status collapsed count body).1.mem.ram = d.mem.ram := by
  unfold Dev.eqWrite
  repeat' split
  all_goals simp

@[simp] theorem Dev.postOnce_ram (d : Dev) (fn ty status : Nat) (body : BitVec 128) : (d.postOnce fn ty status body).1.mem.ram = d.mem.ram := by
  simp [Dev.postOnce]

@[simp] theorem Dev.eqFault_ram (d : Dev) (fn : Nat) : (d.eqFault fn).mem.ram = d.mem.ram := by simp [Dev.eqFault]

@[simp] theorem Dev.post_ram (d : Dev) (fn : Nat) (ty : EventType) (status body : Nat) : (d.post fn ty status body).mem.ram = d.mem.ram := by
  simp [Dev.post]

@[simp] theorem Dev.postPending_ram (d : Dev) (fn fuel : Nat) : (d.postPending fn fuel).mem.ram = d.mem.ram := by
  induction fuel generalizing d with
  | zero => rfl
  | succ n ih =>
    simp only [Dev.postPending]
    repeat' split
    all_goals simp [ih]

@[simp] theorem Dev.sensorEvent_ram (d : Dev) (id : Nat) : (d.sensorEvent id).mem.ram = d.mem.ram := by simp [Dev.sensorEvent]

@[simp] theorem Dev.sensorRefill_ram (d : Dev) (fuel : Nat) : (d.sensorRefill fuel).mem.ram = d.mem.ram := by
  induction fuel generalizing d with
  | zero => rfl
  | succ n ih =>
    unfold Dev.sensorRefill
    repeat' split
    all_goals simp [ih]

@[simp] theorem Dev.noteState_ram (d : Dev) (id old : Nat) : (d.noteState id old).mem.ram = d.mem.ram := by simp [Dev.noteState]

@[simp] theorem Dev.noteLevel_ram (d : Dev) (id : Nat) : (d.noteLevel id).mem.ram = d.mem.ram := by simp [Dev.noteLevel]

@[simp] theorem Dev.noteLevels_ram (d : Dev) (ids : List Nat) : (d.noteLevels ids).mem.ram = d.mem.ram := by simp [Dev.noteLevels]

@[simp] theorem Dev.rasRing_ram (d : Dev) (bits : BitVec 512) : (d.rasRing bits).mem.ram = d.mem.ram := by simp [Dev.rasRing]

@[simp] theorem Dev.rasCount_ram (d : Dev) (sev : Nat) : (d.rasCount sev).mem.ram = d.mem.ram := by
  unfold Dev.rasCount
  split <;> simp

@[simp] theorem Dev.rasRecord_ram (d : Dev) (r : RasRec) : (d.rasRecord r).mem.ram = d.mem.ram := by simp [Dev.rasRecord]

@[simp] theorem Dev.wordRecord_ram (d : Dev) (a sev action status kind part fn ctx : Nat) :
    (d.wordRecord a sev action status kind part fn ctx).mem.ram = d.mem.ram := by simp [Dev.wordRecord]

@[simp] theorem Dev.fencedRecord_ram (d : Dev) (s : Site) (action status kind part fn ctx : Nat) :
    (d.fencedRecord s action status kind part fn ctx).mem.ram = d.mem.ram := by
  unfold Dev.fencedRecord
  split <;> simp

@[simp] theorem Dev.badWordRecord_ram (d : Dev) (a n action kind part fn ctx : Nat) :
    (d.badWordRecord a n action kind part fn ctx).mem.ram = d.mem.ram := by
  simp only [Dev.badWordRecord]
  repeat' split
  all_goals simp

@[simp] theorem Dev.faultUnit_ram (d : Dev) (r : FaultRec) (toFn : Nat) : (d.faultUnit r toFn).mem.ram = d.mem.ram := by simp [Dev.faultUnit]

@[simp] theorem Dev.cadBlocks_ram (d : Dev) (cls n : Nat) : (d.cadBlocks cls n).mem.ram = d.mem.ram := by simp [Dev.cadBlocks]

@[simp] theorem Dev.updLink_ram (d : Dev) (n : Nat) (f : OnfLink → OnfLink) : (d.updLink n f).mem.ram = d.mem.ram := by simp [Dev.updLink]

@[simp] theorem Dev.setLinkState_ram (d : Dev) (n st : Nat) : (d.setLinkState n st).mem.ram = d.mem.ram := by simp [Dev.setLinkState]

@[simp] theorem Dev.wire_ram (d : Dev) (n : Nat) (c : OnfCell) : (d.wire n c).mem.ram = d.mem.ram := by
  unfold Dev.wire
  split <;> simp

@[simp] theorem Dev.sendPlain_ram (d : Dev) (n type : Nat) : (d.sendPlain n type).mem.ram = d.mem.ram := by simp [Dev.sendPlain]

@[simp] theorem Dev.pump_ram (d : Dev) (k fuel : Nat) : (d.pump k fuel).mem.ram = d.mem.ram := by
  induction fuel generalizing d with
  | zero => rfl
  | succ n ih =>
    simp only [Dev.pump]
    repeat' split
    all_goals simp [ih]

@[simp] theorem Dev.noteWaiting_ram (d : Dev) (k : Nat) : (d.noteWaiting k).mem.ram = d.mem.ram := by simp [Dev.noteWaiting]

@[simp] theorem Dev.pushCells_ram (d : Dev) (k : Nat) (cs : List OnfCell) : (d.pushCells k cs).mem.ram = d.mem.ram := by simp [Dev.pushCells]

@[simp] theorem Dev.queueBurst_ram (d : Dev) (k : Nat) (b : OnfBurst) : (d.queueBurst k b).mem.ram = d.mem.ram := by simp [Dev.queueBurst]

@[simp] theorem Dev.sendBurst_ram (d : Dev) (b : OnfBurst) : (d.sendBurst b).mem.ram = d.mem.ram := by
  unfold Dev.sendBurst
  repeat' split
  all_goals simp

@[simp] theorem Dev.sendMessage_ram (d : Dev) (cls dst unit part : Nat) (ps : List (BitVec 512)) (n : Nat) :
    (d.sendMessage cls dst unit part ps n).mem.ram = d.mem.ram := by
  induction n generalizing d ps with
  | zero => rfl
  | succ n ih => simp [Dev.sendMessage, ih]

@[simp] theorem Dev.sendStatic_ram (d : Dev) (stream dst unit part : Nat) (ps : List (BitVec 512)) :
    (d.sendStatic stream dst unit part ps).mem.ram = d.mem.ram := by
  unfold Dev.sendStatic
  repeat' split
  all_goals simp

@[simp] theorem Dev.releaseHeld_ram (d : Dev) : (d.releaseHeld).mem.ram = d.mem.ram := by simp [Dev.releaseHeld]

@[simp] theorem Dev.forward_ram (d : Dev) (c : OnfCell) : (d.forward c).mem.ram = d.mem.ram := by
  unfold Dev.forward
  repeat' split
  all_goals simp

@[simp] theorem Dev.takeReturns_ram (d : Dev) (k : Nat) (h : BitVec 96) : (d.takeReturns k h).mem.ram = d.mem.ram := by simp [Dev.takeReturns]

@[simp] theorem Dev.startRetrain_ram (d : Dev) (k : Nat) : (d.startRetrain k).mem.ram = d.mem.ram := by simp [Dev.startRetrain]

@[simp] theorem Dev.cellFailed_ram (d : Dev) (k : Nat) : (d.cellFailed k).mem.ram = d.mem.ram := by simp [Dev.cellFailed]

@[simp] theorem Dev.takeCell_ram (d : Dev) (k : Nat) (h : BitVec 96) : (d.takeCell k h).1.mem.ram = d.mem.ram := by simp [Dev.takeCell]

@[simp] theorem Dev.replayAll_ram (d : Dev) (k : Nat) : (d.replayAll k).mem.ram = d.mem.ram := by simp [Dev.replayAll]

@[simp] theorem Dev.sendCtl_ram (d : Dev) (k dst src scope bseq : Nat) (m : CtlMsg) : (d.sendCtl k dst src scope bseq m).mem.ram = d.mem.ram := by
  simp [Dev.sendCtl]

@[simp] theorem Dev.broadcast_ram (d : Dev) (m : CtlMsg) : (d.broadcast m).mem.ram = d.mem.ram := by simp [Dev.broadcast]

@[simp] theorem Dev.relay_ram (d : Dev) (from_ src bseq : Nat) (m : CtlMsg) :
    (d.relay from_ src bseq m).1.mem.ram = d.mem.ram := by simp [Dev.relay]

@[simp] theorem Dev.toLeader_ram (d : Dev) (src : Nat) (m : CtlMsg) : (d.toLeader src m).mem.ram = d.mem.ram := by
  unfold Dev.toLeader
  split <;> simp

@[simp] theorem Dev.wqSet_ram (d : Dev) (qid : Nat) (q : Wq) : (d.wqSet qid q).mem.ram = d.mem.ram := by simp [Dev.wqSet]

@[simp] theorem Dev.wqUpd_ram (d : Dev) (qid : Nat) (f : Wq → Wq) : (d.wqUpd qid f).mem.ram = d.mem.ram := by
  unfold Dev.wqUpd
  split <;> simp

@[simp] theorem Dev.wqReset_ram (d : Dev) (qid : Nat) : (d.wqReset qid).mem.ram = d.mem.ram := by simp [Dev.wqReset]

@[simp] theorem Dev.wqErrorEvent_ram (d : Dev) (qid : Nat) (q : Wq) (st : Status) : (d.wqErrorEvent qid q st).mem.ram = d.mem.ram := by
  simp [Dev.wqErrorEvent]

@[simp] theorem Dev.wqRingFail_ram (d : Dev) (qid : Nat) (st : Status) : (d.wqRingFail qid st).mem.ram = d.mem.ram := by
  unfold Dev.wqRingFail
  repeat' split
  all_goals simp

@[simp] theorem Dev.wqXlate_ram (d : Dev) (qid va : Nat) (write : Bool) : (d.wqXlate qid va write).1.mem.ram = d.mem.ram := by
  unfold Dev.wqXlate
  repeat' split
  all_goals simp

@[simp] theorem Dev.wqWrite_ram (d : Dev) (qid va : Nat) (bs : List Byte) (flagged : Bool) :
    (d.wqWrite qid va bs flagged).1.mem.ram = d.mem.ram := by
  have hx := Dev.wqXlate_ram d qid va true
  unfold Dev.wqWrite
  split <;> rename_i he <;> rw [he] at hx <;> simpa using hx

@[simp] theorem Dev.wqIrq_ram (d : Dev) (q : Wq) : (d.wqIrq q).mem.ram = d.mem.ram := by simp [Dev.wqIrq]

@[simp] theorem Dev.wqPostDone_ram (d : Dev) (qid fn : Nat) (l : List (Nat × Status × Nat)) : (d.wqPostDone qid fn l).mem.ram = d.mem.ram := by
  induction l generalizing d with
  | nil => rfl
  | cons a r ih =>
    simp [Dev.wqPostDone, ih]

@[simp] theorem Dev.wqPublish_ram (d : Dev) (qid : Nat) : (d.wqPublish qid).mem.ram = d.mem.ram := by
  unfold Dev.wqPublish
  split
  · rfl
  next q _ =>
    have hx := Dev.wqWrite_ram d qid (wqCword q.ctx) (leBytes 4 q.head ++ leBytes 4 q.fails) true
    split <;> rename_i he <;> rw [he] at hx <;> simpa using hx

@[simp] theorem Dev.wqDrained_ram (d : Dev) (qid : Nat) : (d.wqDrained qid).mem.ram = d.mem.ram := by
  unfold Dev.wqDrained
  split <;> simp

@[simp] theorem Dev.wqComplete_ram (d : Dev) (qid : Nat) (x : WqDone) : (d.wqComplete qid x).mem.ram = d.mem.ram := by
  simp only [Dev.wqComplete]
  repeat' split
  all_goals simp

@[simp] theorem Dev.wqFinish_ram (d : Dev) (qid idx : Nat) (st : Status) (bytes imm : Nat) :
    (d.wqFinish qid idx st bytes imm).mem.ram = d.mem.ram := by simp [Dev.wqFinish]

@[simp] theorem Dev.deviceHalt_ram (d : Dev) (qid idx fn : Nat) : (d.deviceHalt qid idx fn).mem.ram = d.mem.ram := by simp [Dev.deviceHalt]

@[simp] theorem Dev.wqMalformed_ram (d : Dev) (qid idx : Nat) : (d.wqMalformed qid idx).mem.ram = d.mem.ram := by
  simp only [Dev.wqMalformed]
  repeat' split
  all_goals simp

@[simp] theorem Dev.wqStart_ram (d : Dev) (qid : Nat) : (d.wqStart qid).mem.ram = d.mem.ram := by simp [Dev.wqStart]

@[simp] theorem Dev.wqSettle_ram (d : Dev) (qid fuel : Nat) : (d.wqSettle qid fuel).mem.ram = d.mem.ram := by
  induction fuel generalizing d with
  | zero => rfl
  | succ n ih =>
    unfold Dev.wqSettle
    repeat' split
    all_goals simp [ih]

@[simp] theorem Dev.wqFlush_ram (d : Dev) (qid fuel : Nat) : (d.wqFlush qid fuel).mem.ram = d.mem.ram := by
  induction fuel generalizing d with
  | zero => rfl
  | succ n ih =>
    unfold Dev.wqFlush
    repeat' split
    all_goals simp [ih]

@[simp] theorem Dev.setPortState_ram (d : Dev) (p st : Nat) : (d.setPortState p st).mem.ram = d.mem.ram := by simp [Dev.setPortState]

@[simp] theorem Dev.meter_ram (d : Dev) (k n : Nat) (pre : Colour) : (d.meter k n pre).1.mem.ram = d.mem.ram := by simp [Dev.meter]

@[simp] theorem Dev.police_ram (d : Dev) (p : Nat) (ctl : Bool) (fn : Option Nat) (i : FrameInfo) (n : Nat) :
    (d.police p ctl fn i n).1.mem.ram = d.mem.ram := by
  unfold Dev.police
  split <;> simp

@[simp] theorem Dev.sendPause_ram (d : Dev) (p c q : Nat) : (d.sendPause p c q).mem.ram = d.mem.ram := by simp [Dev.sendPause]

@[simp] theorem Dev.checkXoff_ram (d : Dev) (p c : Nat) : (d.checkXoff p c).mem.ram = d.mem.ram := by simp [Dev.checkXoff]

@[simp] theorem Dev.checkXon_ram (d : Dev) (p c : Nat) : (d.checkXon p c).mem.ram = d.mem.ram := by simp [Dev.checkXon]

@[simp] theorem Dev.wheelEnter_ram (d : Dev) (who time : Nat) : (d.wheelEnter who time).mem.ram = d.mem.ram := by simp [Dev.wheelEnter]

@[simp] theorem Dev.activate_ram (d : Dev) (who : Nat) : (d.activate who).mem.ram = d.mem.ram := by simp [Dev.activate]

@[simp] theorem Dev.hwmNote_ram (d : Dev) (s : Nat) : (d.hwmNote s).mem.ram = d.mem.ram := by simp [Dev.hwmNote]

@[simp] theorem Dev.stage_ram (d : Dev) (f : TxFrame) : (d.stage f).mem.ram = d.mem.ram := by simp [Dev.stage]

@[simp] theorem Dev.rootWrite_ram (d : Dev) (root a : Nat) (bs : List Byte) (flagged : Bool) :
    (d.rootWrite root a bs flagged).1.mem.ram = d.mem.ram := by
  unfold Dev.rootWrite
  dsimp only
  split
  · refine Dev.foldl_ram _ (fun e p => ?_) _ _
    split <;> simp
  · rfl

@[simp] theorem Dev.readUnits_ram (d : Dev) (u : KeyUser) (key : Nat) (rd : HostRead) (done : Nat) (l : List (Nat × Nat)) :
    (d.readUnits u key rd done l).1.mem.ram = d.mem.ram := by
  induction l generalizing d done with
  | nil => rfl
  | cons p r ih =>
    obtain ⟨a, n⟩ := p
    simp only [Dev.readUnits]
    repeat' split
    all_goals simp [ih]

@[simp] theorem Dev.keyRead_ram (d : Dev) (u : KeyUser) (key a n : Nat) (rd : HostRead) : (d.keyRead u key a n rd).1.mem.ram = d.mem.ram := by
  simp [Dev.keyRead]

@[simp] theorem Dev.unitFault_ram (d : Dev) (c : UnitCtx) (f : UnitFail) (write atomic : Bool) :
    (d.unitFault c f write atomic).mem.ram = d.mem.ram := by
  unfold Dev.unitFault
  split <;> simp

@[simp] theorem Dev.freeze_ram (d : Dev) : (d.freeze).mem.ram = d.mem.ram := by simp [Dev.freeze]

@[simp] theorem Dev.deriveAlias_ram (d : Dev) : (d.deriveAlias).mem.ram = d.mem.ram := by simp [Dev.deriveAlias]

@[simp] theorem Dev.tapClose_ram (d : Dev) : (d.tapClose).mem.ram = d.mem.ram := by simp [Dev.tapClose]

@[simp] theorem Dev.trustCommit_ram (d : Dev) (header : List Byte) : (d.trustCommit header).mem.ram = d.mem.ram := by simp [Dev.trustCommit]

@[simp] theorem Dev.trustPartCommit_ram (d : Dev) (p : Nat) (header : List Byte) : (d.trustPartCommit p header).mem.ram = d.mem.ram := by
  simp [Dev.trustPartCommit]

@[simp] theorem Dev.cadStatus_ram (d : Dev) (st : Status) : (d.cadStatus st).mem.ram = d.mem.ram := by simp [Dev.cadStatus]

@[simp] theorem Dev.updSlot_ram (d : Dev) (n : Nat) (f : KeySlot → KeySlot) : (d.updSlot n f).mem.ram = d.mem.ram := by simp [Dev.updSlot]

@[simp] theorem Dev.importKeyInto_ram (d : Dev) (n : Nat) (rd : HostRead) : (d.importKeyInto n rd).mem.ram = d.mem.ram := by
  unfold Dev.importKeyInto
  repeat' split
  all_goals simp

@[simp] theorem Dev.streamEnd_ram (d : Dev) (k : Nat) (st : Status) : (d.streamEnd k st).mem.ram = d.mem.ram := by
  unfold Dev.streamEnd
  split <;> simp

@[simp] theorem Dev.freeBytes_ram (d : Dev) (n : Nat) : (d.freeBytes n).1.mem.ram = d.mem.ram := by simp [Dev.freeBytes]

@[simp] theorem Dev.streamFill_ram (d : Dev) (k fuel : Nat) : (d.streamFill k fuel).mem.ram = d.mem.ram := by
  induction fuel generalizing d with
  | zero => rfl
  | succ n ih =>
    unfold Dev.streamFill
    repeat' split
    all_goals simp [ih]

@[simp] theorem Dev.streamStart_ram (d : Dev) (qid : Nat) (q : Wq) (e : WqEntry) : (d.streamStart qid q e).mem.ram = d.mem.ram := by
  unfold Dev.streamStart
  repeat' split
  all_goals simp

theorem Dev.wqTurn_ram {d e : Dev} {eng cls qid : Nat} {can : Nat → Wq → WqEntry → Bool} {x : WqEntry}
    (h : d.wqTurn eng cls qid can = some (e, x)) : e.mem.ram = d.mem.ram := by
  unfold Dev.wqTurn at h
  repeat' split at h
  all_goals simp at h
  simp [← h.1]

@[simp] theorem Dev.cipherTurn_ram (d : Dev) (qid op : Nat) : (d.cipherTurn qid op).mem.ram = d.mem.ram := by
  unfold Dev.cipherTurn
  split
  · rfl
  · split
    · rfl
    · split
      · rfl
      · split
        · rfl
        · split
          next h => simp [Dev.wqTurn_ram h]
          · rfl

@[simp] theorem Dev.setEptRank_ram (d : Dev) (i rank : Nat) : (d.setEptRank i rank).mem.ram = d.mem.ram := by simp [Dev.setEptRank]

@[simp] theorem Dev.setBlk_ram (d : Dev) (i : Nat) (e : BitVec 128) : (d.setBlk i e).mem.ram = d.mem.ram := by simp [Dev.setBlk]

@[simp] theorem Dev.blkSetState_ram (d : Dev) (i st : Nat) : (d.blkSetState i st).mem.ram = d.mem.ram := by simp [Dev.blkSetState]

@[simp] theorem Dev.dropMove_ram (d : Dev) (m : Move) : (d.dropMove m).mem.ram = d.mem.ram := by simp [Dev.dropMove]

@[simp] theorem Dev.setMove_ram (d : Dev) (m : Move) : (d.setMove m).mem.ram = d.mem.ram := by simp [Dev.setMove]

@[simp] theorem Dev.blkFree_ram (d : Dev) (i : Nat) : (d.blkFree i).mem.ram = d.mem.ram := by simp [Dev.blkFree]

@[simp] theorem Dev.blkSwitch_ram (d : Dev) (i : Nat) (toHome : Bool) (target : Nat) : (d.blkSwitch i toHome target).mem.ram = d.mem.ram := by
  simp [Dev.blkSwitch]

@[simp] theorem Dev.unregSettle_ram (d : Dev) (i : Nat) : (d.unregSettle i).mem.ram = d.mem.ram := by simp [Dev.unregSettle]

@[simp] theorem Dev.noteSwitch_ram (d : Dev) (i rank frame : Nat) : (d.noteSwitch i rank frame).mem.ram = d.mem.ram := by simp [Dev.noteSwitch]

theorem Dev.announce_keeps (P : Mem → Prop) (d : Dev) (m : CtlMsg) (act : Dev → Dev)
    (hact : ∀ d, P d.mem.ram → P (act d).mem.ram) (h : P d.mem.ram) : P (d.announce m act).mem.ram := by
  unfold Dev.announce
  split
  · exact hact _ (by simpa using h)
  · simpa using h

@[simp] theorem Dev.announceSwitch_ram (d : Dev) (i rank : Nat) : (d.announceSwitch i rank).mem.ram = d.mem.ram := by
  unfold Dev.announceSwitch
  split
  · rfl
  · dsimp only
    split
    · simp
    · exact Dev.announce_keeps (· = d.mem.ram) _ _ _ (fun e h => by simpa using h) rfl

@[simp] theorem Dev.engineSend_ram (d : Dev) (ep t mb part : Nat) (data : BitVec 512) : (d.engineSend ep t mb part data).mem.ram = d.mem.ram := by
  simp [Dev.engineSend]

@[simp] theorem Dev.sendDispatch_ram (d : Dev) (rank die part : Nat) (cs : List (BitVec 512)) :
    (d.sendDispatch rank die part cs).mem.ram = d.mem.ram := by simp [Dev.sendDispatch]

@[simp] theorem Dev.xduEnd_ram (d : Dev) (key : Nat) (st : Status) : (d.xduEnd key st).mem.ram = d.mem.ram := by
  unfold Dev.xduEnd
  split <;> simp

@[simp] theorem Dev.xduMsgDone_ram (d : Dev) (key gen : Nat) (flag : Bool) (st : Status) :
    (d.xduMsgDone key gen flag st).mem.ram = d.mem.ram := by
  unfold Dev.xduMsgDone
  split <;> simp

@[simp] theorem Dev.xduEndWhere_ram (d : Dev) (hit : XSite → Bool) (st : Status) : (d.xduEndWhere hit st).mem.ram = d.mem.ram := by
  simp [Dev.xduEndWhere]

@[simp] theorem Dev.xduTileStopped_ram (d : Dev) (t : Nat) (uncorrectable : Bool) : (d.xduTileStopped t uncorrectable).mem.ram = d.mem.ram := by
  simp [Dev.xduTileStopped]

@[simp] theorem Dev.xduPathLost_ram (d : Dev) (hit : Nat → Bool) : (d.xduPathLost hit).mem.ram = d.mem.ram := by simp [Dev.xduPathLost]

@[simp] theorem Dev.sendStatics_ram (d : Dev) (stream dst unit part : Nat) (ps : List (BitVec 512)) (n : Nat) :
    (d.sendStatics stream dst unit part ps n).mem.ram = d.mem.ram := by
  induction n generalizing d ps with
  | zero => rfl
  | succ n ih => simp [Dev.sendStatics, ih]

@[simp] theorem Dev.smvSend_ram (d : Dev) (c : Coll) (ring : Bool) (k : Nat) (ps : List (BitVec 512)) :
    (d.smvSend c ring k ps).mem.ram = d.mem.ram := by simp [Dev.smvSend]

@[simp] theorem Dev.smvRecord_ram (d : Dev) (g : Nat) (a : SmvAbort) : (d.smvRecord g a).mem.ram = d.mem.ram := by simp [Dev.smvRecord]

@[simp] theorem Dev.writeAux_ram (d : Dev) (qid idx : Nat) (members : W64) : (d.writeAux qid idx members).mem.ram = d.mem.ram := by
  unfold Dev.writeAux
  split <;> simp

@[simp] theorem Dev.smvLag_ram (d : Dev) (c : Coll) : (d.smvLag c).mem.ram = d.mem.ram := by simp -implicitDefEqProofs [Dev.smvLag]

@[simp] theorem Dev.smvClose_ram (d : Dev) (g : Nat) (st : Status) (members : W64) : (d.smvClose g st members).mem.ram = d.mem.ram := by
  unfold Dev.smvClose
  split <;> simp

@[simp] theorem Dev.smvAbort_ram (d : Dev) (g anchor seq : Nat) (st : Status) (members : W64) :
    (d.smvAbort g anchor seq st members).mem.ram = d.mem.ram := by simp [Dev.smvAbort]

@[simp] theorem Dev.smvTell_ram (d : Dev) (g anchor seq : Nat) (st : Status) (members : W64) :
    (d.smvTell g anchor seq st members).mem.ram = d.mem.ram :=
  Dev.announce_keeps (· = d.mem.ram) _ _ _ (fun e h => by simpa using h) rfl

@[simp] theorem Dev.smvFail_ram (d : Dev) (g : Nat) (st : Status) (members : W64) : (d.smvFail g st members).mem.ram = d.mem.ram := by
  unfold Dev.smvFail
  split <;> simp

@[simp] theorem Dev.smvFailWhere_ram (d : Dev) (hit : Coll → Bool) (st : Status) (members : Coll → W64) :
    (d.smvFailWhere hit st members).mem.ram = d.mem.ram := by simp [Dev.smvFailWhere]

@[simp] theorem Dev.smvRankLost_ram (d : Dev) (r : Nat) : (d.smvRankLost r).mem.ram = d.mem.ram := by simp [Dev.smvRankLost]

@[simp] theorem Dev.smvPathLost_ram (d : Dev) (hit : Nat → Bool) : (d.smvPathLost hit).mem.ram = d.mem.ram := by simp [Dev.smvPathLost]

@[simp] theorem Dev.smvNak_ram (d : Dev) (p : BitVec 512) : (d.smvNak p).mem.ram = d.mem.ram := by simp [Dev.smvNak]

@[simp] theorem Dev.smvDieEnd_ram (d : Dev) (die : Nat) (st : Status) : (d.smvDieEnd die st).mem.ram = d.mem.ram := by simp [Dev.smvDieEnd]

@[simp] theorem Dev.smvRead_ram (d : Dev) (c : Coll) (a n : Nat) : (d.smvRead c a n).1.mem.ram = d.mem.ram := by
  have hx := Dev.keyRead_ram d (collUser c.part false) (sSrcKey c.desc) a n .lost
  unfold Dev.smvRead
  split <;> rename_i he <;> rw [he] at hx <;> simpa using hx

@[simp] theorem Dev.smvGatherOn_ram (d : Dev) (c : Coll) (j n : Nat) (bs : List Byte) : (d.smvGatherOn c j n bs).mem.ram = d.mem.ram := by
  simp [Dev.smvGatherOn]

@[simp] theorem Dev.smvReduceOn_ram (d : Dev) (c : Coll) (j : Nat) (ps : List W32) : (d.smvReduceOn c j ps).mem.ram = d.mem.ram := by
  simp [Dev.smvReduceOn]

@[simp] theorem Dev.smvSlabRead_ram (d : Dev) (c : Coll) (k : Nat) : (d.smvSlabRead c k).1.mem.ram = d.mem.ram := by
  have hx := Dev.smvRead_ram d c (sAux c.desc + k * mapBytes (sCount c.desc)) (mapBytes (sCount c.desc))
  unfold Dev.smvSlabRead
  dsimp only
  split <;> rename_i he <;> rw [he] at hx
  · exact hx
  · refine foldl_keeps (fun p : Dev × Option (List Byte × List Byte) => p.1.mem.ram = d.mem.ram) _ (fun p b hp => ?_) _ _ hx
    split
    · exact hp
    next m acc _ =>
      have hy := Dev.smvRead_ram p.1 c (sSrc c.desc + (k * sCount c.desc + b) * sBlock c.desc) (sBlock c.desc)
      split <;> rename_i he <;> rw [he] at hy <;> exact hy.trans hp

@[simp] theorem Dev.smvPut_ram (d : Dev) (c : Coll) : (d.smvPut c).mem.ram = d.mem.ram := by simp [Dev.smvPut]

@[simp] theorem Dev.smvCommit_ram (d : Dev) (c : Coll) : (d.smvCommit c).mem.ram = d.mem.ram := by simp [Dev.smvCommit]

@[simp] theorem Dev.smvRefuse_ram (d : Dev) (qid : Nat) (e : WqEntry) (g seq me anchor : Nat) (st : Status) :
    (d.smvRefuse qid e g seq me anchor st).mem.ram = d.mem.ram := by simp [Dev.smvRefuse]

@[simp] theorem Dev.smvBase_ram (d : Dev) (all : Bool) (g base : Nat) : (d.smvBase all g base).mem.ram = d.mem.ram := by simp [Dev.smvBase]

@[simp] theorem Dev.dtuStatus_ram (d : Dev) (st : Status) : (d.dtuStatus st).mem.ram = d.mem.ram := by simp [Dev.dtuStatus]

@[simp] theorem Dev.putWords_ram (d : Dev) (reg : Nat → Nat) (n x : Nat) : (d.putWords reg n x).mem.ram = d.mem.ram := by
  simp -implicitDefEqProofs [Dev.putWords]

@[simp] theorem Dev.revokePoint_ram (d : Dev) (i : Nat) : (d.revokePoint i).mem.ram = d.mem.ram := by simp [Dev.revokePoint]

@[simp] theorem Dev.revokeEnd_ram (d : Dev) (i : Nat) : (d.revokeEnd i).mem.ram = d.mem.ram := by
  simp only [Dev.revokeEnd]
  repeat' split
  all_goals simp

@[simp] theorem Dev.dbDrop_ram (d : Dev) : (d.dbDrop).mem.ram = d.mem.ram := by simp [Dev.dbDrop]

@[simp] theorem Dev.dbBad_ram (d : Dev) (fn qid tail : Nat) : (d.dbBad fn qid tail).mem.ram = d.mem.ram := by simp [Dev.dbBad]

@[simp] theorem Dev.dbArm_ram (d : Dev) (qid : Nat) : (d.dbArm qid).mem.ram = d.mem.ram := by
  unfold Dev.dbArm
  split <;> simp

@[simp] theorem Dev.dbAccept_ram (d : Dev) (qid tail : Nat) (arm inv : Bool) : (d.dbAccept qid tail arm inv).mem.ram = d.mem.ram := by
  simp only [Dev.dbAccept]
  repeat' split
  all_goals simp

@[simp] theorem Dev.consumerWord_ram (d : Dev) (fn : Nat) (val : W64) : (d.consumerWord fn val).mem.ram = d.mem.ram := by
  unfold Dev.consumerWord
  split <;> simp

@[simp] theorem Dev.p2pDrop_ram (d : Dev) (fn off : Nat) : (d.p2pDrop fn off).mem.ram = d.mem.ram := by simp [Dev.p2pDrop]

@[simp] theorem Dev.wqsStatus_ram (d : Dev) (st : Status) : (d.wqsStatus st).mem.ram = d.mem.ram := by simp [Dev.wqsStatus]

@[simp] theorem Dev.wqDrain_ram (d : Dev) (qid : Nat) : (d.wqDrain qid).mem.ram = d.mem.ram := by simp [Dev.wqDrain]

@[simp] theorem Dev.wqTake_ram (d : Dev) (qid : Nat) (q : Wq) (x : BitVec 512) : (d.wqTake qid q x).mem.ram = d.mem.ram := by simp [Dev.wqTake]

@[simp] theorem Dev.wqFetch_ram (d : Dev) (qid : Nat) (again : Bool) (rd : HostRead) : (d.wqFetch qid again rd).mem.ram = d.mem.ram := by
  unfold Dev.wqFetch
  split
  · rfl
  next q _ =>
    split
    · rfl
    · have hx := Dev.wqXlate_ram ((if again = true then d.finc Reg.WQS_REFETCH_COUNT else d).readEnd (.ring (BitVec.ofNat 16 qid))) qid
        (wqSlot q q.fetchIdx) false
      dsimp only
      split <;> rename_i he <;> rw [he] at hx
      · simpa using hx
      · split <;> simpa using hx

@[simp] theorem Dev.hifState_ram (d : Dev) (k st : Nat) : (d.hifState k st).mem.ram = d.mem.ram := by simp [Dev.hifState]

@[simp] theorem Dev.pcieLink_ram (d : Dev) (k : Nat) : (d.pcieLink k).mem.ram = d.mem.ram := by simp [Dev.pcieLink]

@[simp] theorem Dev.setQp_ram (d : Dev) (n : Nat) (q : Qp) : (d.setQp n q).mem.ram = d.mem.ram := by simp [Dev.setQp]

@[simp] theorem Dev.updQp_ram (d : Dev) (n : Nat) (f : Qp → Qp) : (d.updQp n f).mem.ram = d.mem.ram := by
  unfold Dev.updQp
  split <;> simp

@[simp] theorem Dev.qpSend_ram (d : Dev) (n : Nat) (q : Qp) (path : NetPath) (ovr : Option (Nat × Nat)) (bytes : List Byte) (ect : Bool)
    (tag : Option Nat) (fin : Option (Nat × Nat)) :
    (d.qpSend n q path ovr bytes ect tag fin).mem.ram = d.mem.ram := by
  unfold Dev.qpSend
  repeat' split
  all_goals simp

@[simp] theorem Dev.rcSend_ram (d : Dev) (n : Nat) (bytes : List Byte) (ect : Bool) (tag : Option Nat) :
    (d.rcSend n bytes ect tag).mem.ram = d.mem.ram := by
  unfold Dev.rcSend
  split <;> simp

@[simp] theorem Dev.sendAeth_ram (d : Dev) (n psn synd : Nat) : (d.sendAeth n psn synd).mem.ram = d.mem.ram := by
  unfold Dev.sendAeth
  split <;> simp

@[simp] theorem Dev.ackNow_ram (d : Dev) (n : Nat) : (d.ackNow n).mem.ram = d.mem.ram := by
  unfold Dev.ackNow
  split <;> simp

@[simp] theorem Dev.msgDone_ram (d : Dev) (o : MsgOwner) (st : Status) : (d.msgDone o st).mem.ram = d.mem.ram := by
  unfold Dev.msgDone
  split <;> simp

@[simp] theorem Dev.qpError_ram (d : Dev) (n : Nat) (st : Status) (psn synd : Nat) (bad : MsgOwner → Bool) (badRecv : Nat → Bool) :
    (d.qpError n st psn synd bad badRecv).mem.ram = d.mem.ram := by
  unfold Dev.qpError
  split
  · rfl
  · split
    · rfl
    · simp only [Dev.post_ram, Dev.wqFlush_ram]
      rw [Dev.foldl_ram]
      · simp
      · intro e r
        split <;> simp

@[simp] theorem Dev.qpTimer_ram (d : Dev) (n : Nat) : (d.qpTimer n).mem.ram = d.mem.ram := by simp [Dev.qpTimer]

@[simp] theorem Dev.qpResend_ram (d : Dev) (n psn : Nat) : (d.qpResend n psn).mem.ram = d.mem.ram := by
  unfold Dev.qpResend
  split <;> simp

@[simp] theorem Dev.qpRetry_ram (d : Dev) (n psn : Nat) : (d.qpRetry n psn).mem.ram = d.mem.ram := by
  unfold Dev.qpRetry
  split <;> simp

@[simp] theorem Dev.qpPump_ram (d : Dev) (n : Nat) : (d.qpPump n).mem.ram = d.mem.ram := by
  unfold Dev.qpPump
  repeat' split
  all_goals simp

@[simp] theorem Dev.rcPost_ram (d : Dev) (n : Nat) (m : OutMsg) : (d.rcPost n m).mem.ram = d.mem.ram := by
  unfold Dev.rcPost
  split <;> simp

@[simp] theorem Dev.rcRequest_ram (d : Dev) (n : Nat) (m : QpMsg) (segs : Nat) : (d.rcRequest n m segs).mem.ram = d.mem.ram := by
  unfold Dev.rcRequest
  split <;> simp

@[simp] theorem Dev.qpAck_ram (d : Dev) (n a : Nat) : (d.qpAck n a).mem.ram = d.mem.ram := by
  unfold Dev.qpAck
  split <;> simp

@[simp] theorem Dev.udStart_ram (d : Dev) (n qid : Nat) (q : Qp) (e : WqEntry) (rd : HostRead) :
    (d.udStart n qid q e rd).mem.ram = d.mem.ram := by
  simp only [Dev.udStart]
  repeat' split
  all_goals simp

@[simp] theorem Dev.qpStart_ram (d : Dev) (qid : Nat) (e : WqEntry) (rd : HostRead) : (d.qpStart qid e rd).mem.ram = d.mem.ram := by
  simp only [Dev.qpStart]
  repeat' split
  all_goals simp

@[simp] theorem Dev.updTile_ram (d : Dev) (t : Nat) (f : Tile → Tile) : (d.updTile t f).mem.ram = d.mem.ram := by simp [Dev.updTile]

@[simp] theorem Dev.tileRecord_ram (d : Dev) (t : Nat) (c : Cause) (addr : Nat) : (d.tileRecord t c addr).mem.ram = d.mem.ram := by
  simp [Dev.tileRecord]

@[simp] theorem Dev.claimSpare_ram (d : Dev) (t : Nat) : (d.claimSpare t).mem.ram = d.mem.ram := by simp [Dev.claimSpare]

@[simp] theorem Dev.tileDown_ram (d : Dev) (t : Nat) (c : Cause) (addr : Nat) :
    (d.tileDown t c addr).mem.ram = d.mem.ram := by simp [Dev.tileDown]

@[simp] theorem Dev.tileTrap_ram (d : Dev) (t : Nat) (c : Cause) (addr : Nat) :
    (d.tileTrap t c addr).mem.ram = d.mem.ram := by simp [Dev.tileTrap]

@[simp] theorem Dev.toPc_ram (d : Dev) (t next : Nat) (loops : List LoopRec) : (d.toPc t next loops).mem.ram = d.mem.ram := by simp [Dev.toPc]

@[simp] theorem Dev.seqTo_ram (d : Dev) (t next : Nat) : (d.seqTo t next).mem.ram = d.mem.ram := by simp [Dev.seqTo]

@[simp] theorem Dev.advance_ram (d : Dev) (t : Nat) : (d.advance t).mem.ram = d.mem.ram := by simp [Dev.advance]

@[simp] theorem Dev.branchTo_ram (d : Dev) (t : Nat) (target : Int) : (d.branchTo t target).mem.ram = d.mem.ram := by simp [Dev.branchTo]

@[simp] theorem Dev.sendMsg_ram (d : Dev) (t ch : Nat) (data : BitVec 512) : (d.sendMsg t ch data).mem.ram = d.mem.ram := by simp [Dev.sendMsg]

@[simp] theorem Dev.returnCredit_ram (d : Dev) (t mb : Nat) (fuel : Sender) : (d.returnCredit t mb fuel).mem.ram = d.mem.ram := by
  unfold Dev.returnCredit
  split <;> simp

@[simp] theorem Dev.releaseBar_ram (d : Dev) (b u : Nat) : (d.releaseBar b u).mem.ram = d.mem.ram := by simp [Dev.releaseBar]

@[simp] theorem Dev.discardMail_ram (d : Dev) (t : Nat) (dest : Sender → Bool) : (d.discardMail t dest).mem.ram = d.mem.ram := by
  simp [Dev.discardMail]

@[simp] theorem Dev.xduFire_ram (d : Dev) (key qid : Nat) (w : Wq) (e : WqEntry) (part : Nat) :
    (d.xduFire key qid w e part).mem.ram = d.mem.ram := by
  simp only [Dev.xduFire]
  repeat' split
  all_goals simp

@[simp] theorem Dev.xduDefer_ram (d : Dev) (key expert : Nat) (left : List Nat) : (d.xduDefer key expert left).mem.ram = d.mem.ram := by
  unfold Dev.xduDefer
  split <;> simp

@[simp] theorem Dev.xduLeft_ram (d : Dev) (key : Nat) (b : XBatch) (n window idx : Nat) : (d.xduLeft key b n window idx).mem.ram = d.mem.ram := by
  unfold Dev.xduLeft
  split <;> simp

@[simp] theorem Dev.eptRecord_ram (d : Dev) (idx action ctx part fn : Nat) : (d.eptRecord idx action ctx part fn).mem.ram = d.mem.ram := by
  simp [Dev.eptRecord]

@[simp] theorem Dev.xduBatchFail_ram (d : Dev) (key : Nat) (b : XBatch) (st : Status) : (d.xduBatchFail key b st).mem.ram = d.mem.ram := by
  unfold Dev.xduBatchFail
  split <;> simp

@[simp] theorem Dev.xduReturn_ram (d : Dev) (s : XServed) (st : Status) : (d.xduReturn s st).mem.ram = d.mem.ram := by simp [Dev.xduReturn]

@[simp] theorem Dev.requeue_ram (d : Dev) (c : OnfCell) : (d.requeue c).mem.ram = d.mem.ram := by
  unfold Dev.requeue
  repeat' split
  all_goals simp

@[simp] theorem Dev.showReason_ram (d : Dev) (n : Nat) (aligned : Bool) : (d.showReason n aligned).mem.ram = d.mem.ram := by simp [Dev.showReason]

@[simp] theorem Dev.startTraining_ram (d : Dev) (n : Nat) : (d.startTraining n).mem.ram = d.mem.ram := by simp [Dev.startTraining]

@[simp] theorem Dev.measure_ram (d : Dev) (n lat : Nat) : (d.measure n lat).mem.ram = d.mem.ram := by simp [Dev.measure]

@[simp] theorem Dev.takeLeader_ram (d : Dev) (r : Nat) (follow : Bool) : (d.takeLeader r follow).mem.ram = d.mem.ram := by simp [Dev.takeLeader]

@[simp] theorem Dev.alignTo_ram (d : Dev) (link : Nat) (time : W64) : (d.alignTo link time).mem.ram = d.mem.ram := by simp [Dev.alignTo]

@[simp] theorem Dev.cmapWrite_ram (d : Dev) (r : List Byte) : (d.cmapWrite r).mem.ram = d.mem.ram := by
  unfold Dev.cmapWrite
  dsimp only
  split
  · simp
  · have hx := Dev.rootWrite_ram d (d.fget Reg.ONF_CMAP_CTL_ROOT) ((d.regGet Reg.ONF_CMAP_BASE).toNat +
      576 * (d.onf.written % 2 ^ max 6 (min 16 (d.fget Reg.ONF_CMAP_CTL_RING_LOG2)))) r false
    split <;> rename_i he <;> rw [he] at hx <;> simpa using hx

@[simp] theorem Dev.cmapPart_ram (d : Dev) (r part : Nat) (data : BitVec 384) :
    (d.cmapPart r part data).mem.ram = d.mem.ram := by simp [Dev.cmapPart]

@[simp] theorem Dev.epochNak_ram (d : Dev) (h : BitVec 96) (p : BitVec 512) : (d.epochNak h p).mem.ram = d.mem.ram := by
  unfold Dev.epochNak
  split <;> simp

@[simp] theorem Dev.burstCheck_ram (d : Dev) (h : BitVec 96) (p : BitVec 512) : (d.burstCheck h p).1.mem.ram = d.mem.ram := by
  simp only [Dev.burstCheck]
  repeat' split
  all_goals simp

@[simp] theorem Dev.deliver_ram (d : Dev) (b : OnfBurst) : (d.deliver b).mem.ram = d.mem.ram := by simp [Dev.deliver]

@[simp] theorem Dev.takeData_ram (d : Dev) (h : BitVec 96) (p : BitVec 512) : (d.takeData h p).mem.ram = d.mem.ram := by
  simp only [Dev.takeData]
  repeat' split
  all_goals simp

@[simp] theorem Dev.rxPause_ram (d : Dev) (p : Nat) (b : List Byte) : (d.rxPause p b).mem.ram = d.mem.ram := by simp [Dev.rxPause]

@[simp] theorem Dev.macsecOpen_ram (d : Dev) (p : Nat) (b : List Byte) : (d.macsecOpen p b).1.mem.ram = d.mem.ram := by
  simp only [Dev.macsecOpen]
  repeat' split
  all_goals simp

@[simp] theorem Dev.rxDeliver_ram (d : Dev) (p cls cells : Nat) (head : Bool) (steer stamp : Option Nat) (i : FrameInfo) (b : List Byte) :
    (d.rxDeliver p cls cells head steer stamp i b).mem.ram = d.mem.ram := by
  unfold Dev.rxDeliver
  split <;> simp

@[simp] theorem Dev.rxClassify_ram (d : Dev) (p : Nat) (b : List Byte) : (d.rxClassify p b).mem.ram = d.mem.ram := by
  unfold Dev.rxClassify
  extract_lets i r act cls cnp ctl steer qpn fn n pol cells
  split
  · simp
  · have hp : pol.1.mem.ram = d.mem.ram := by
      unfold pol
      split <;> simp
    clear_value pol
    split
    · simpa using hp
    · dsimp only
      split <;> simpa using hp

@[simp] theorem Dev.cbsSent_ram (d : Dev) (p c n : Nat) : (d.cbsSent p c n).mem.ram = d.mem.ram := by simp [Dev.cbsSent]

@[simp] theorem Dev.pushTxts_ram (d : Dev) (p tag : Nat) : (d.pushTxts p tag).mem.ram = d.mem.ram := by simp [Dev.pushTxts]

@[simp] theorem Dev.pace_ram (d : Dev) (f : TxFrame) : (d.pace f).mem.ram = d.mem.ram := by
  unfold Dev.pace
  split <;> simp

@[simp] theorem Dev.unstage_ram (d : Dev) (f : TxFrame) : (d.unstage f).mem.ram = d.mem.ram := by simp [Dev.unstage]

@[simp] theorem Dev.noteGateWaits_ram (d : Dev) (p : Nat) : (d.noteGateWaits p).mem.ram = d.mem.ram := by simp [Dev.noteGateWaits]

@[simp] theorem Dev.txWire_ram (d : Dev) (f : TxFrame) : (d.txWire f).mem.ram = d.mem.ram := by
  simp only [Dev.txWire]
  repeat' split
  all_goals simp

@[simp] theorem Dev.portStop_ram (d : Dev) (p st : Nat) : (d.portStop p st).mem.ram = d.mem.ram := by simp [Dev.portStop]

@[simp] theorem Dev.showGates_ram (d : Dev) (p : Nat) : (d.showGates p).mem.ram = d.mem.ram := by simp [Dev.showGates]

@[simp] theorem Dev.ethPut_ram (d : Dev) (reg : Nat → Nat) (n x : Nat) : (d.ethPut reg n x).mem.ram = d.mem.ram := by
  simp -implicitDefEqProofs [Dev.ethPut]

@[simp] theorem Dev.ecnNote_ram (d : Dev) (n : Nat) (q : Qp) (x : RxPkt) : (d.ecnNote n q x).mem.ram = d.mem.ram := by simp [Dev.ecnNote]

@[simp] theorem Dev.recvSkip_ram (d : Dev) (rq fuel : Nat) : (d.recvSkip rq fuel).mem.ram = d.mem.ram := by
  induction fuel generalizing d with
  | zero => rfl
  | succ n ih =>
    unfold Dev.recvSkip
    repeat' split
    all_goals simp [ih]

@[simp] theorem Dev.recvBack_ram (d : Dev) (n idx : Nat) : (d.recvBack n idx).mem.ram = d.mem.ram := by
  unfold Dev.recvBack
  split <;> simp

@[simp] theorem Dev.respFail_ram (d : Dev) (n psn synd : Nat) (st : Status) (recv : Option Nat) :
    (d.respFail n psn synd st recv).mem.ram = d.mem.ram := by simp [Dev.respFail]

@[simp] theorem Dev.respRnr_ram (d : Dev) (n psn : Nat) : (d.respRnr n psn).mem.ram = d.mem.ram := by
  unfold Dev.respRnr
  split <;> simp

@[simp] theorem Dev.ackPolicy_ram (d : Dev) (n : Nat) (last : Bool) : (d.ackPolicy n last).mem.ram = d.mem.ram := by
  unfold Dev.ackPolicy
  split <;> simp

@[simp] theorem Dev.endMessage_ram (d : Dev) (n : Nat) (r : ReqPkt) (recv : Option Nat) (bytes : Nat) :
    (d.endMessage n r recv bytes).mem.ram = d.mem.ram := by
  unfold Dev.endMessage
  repeat' split
  all_goals simp

@[simp] theorem Dev.respAhead_ram (d : Dev) (n : Nat) : (d.respAhead n).mem.ram = d.mem.ram := by
  unfold Dev.respAhead
  split <;> simp

@[simp] theorem Dev.qpeStatus_ram (d : Dev) (st : Status) : (d.qpeStatus st).mem.ram = d.mem.ram := by simp [Dev.qpeStatus]

@[simp] theorem Dev.serveRead_ram (d : Dev) (n : Nat) (q : Qp) (r : ReqPkt) (dup : Bool) (rd : HostRead) :
    (d.serveRead n q r dup rd).mem.ram = d.mem.ram := by
  unfold Dev.serveRead
  extract_lets u seg x slot whole segs stream d1 total sealed q1 q2 q3 pk d2
  split
  · simp
  · split
    · simp
    · split
      · simp
      · have h1 : d1.mem.ram = d.mem.ram := by
          unfold d1
          split <;> simp [x]
        have h2 : d2.mem.ram = d.mem.ram := by simp [d2, h1]
        clear_value d2
        split
        · exact h2
        · split <;> simpa using h2

@[simp] theorem Dev.sendAtomicAck_ram (d : Dev) (n psn : Nat) (v : W64) : (d.sendAtomicAck n psn v).mem.ram = d.mem.ram := by
  unfold Dev.sendAtomicAck
  split <;> simp

@[simp] theorem Dev.answerFail_ram (d : Dev) (n : Nat) (q : Qp) (m : QpMsg) (p : Nat) (st : Status) (f : Option UnitFail) (atomic : Bool) :
    (d.answerFail n q m p st f atomic).mem.ram = d.mem.ram := by
  unfold Dev.answerFail
  split <;> simp

@[simp] theorem Dev.answerDone_ram (d : Dev) (n : Nat) (q : Qp) (m : QpMsg) (p : Nat) : (d.answerDone n q m p).mem.ram = d.mem.ram := by
  simp [Dev.answerDone]

@[simp] theorem Dev.fnSet_ram (d : Dev) (f st : Nat) : (d.fnSet f st).mem.ram = d.mem.ram := by simp [Dev.fnSet]

@[simp] theorem Dev.vfmStatus_ram (d : Dev) (st : Status) : (d.vfmStatus st).mem.ram = d.mem.ram := by simp [Dev.vfmStatus]

@[simp] theorem Dev.fnCmdDone_ram (d : Dev) (f op : Nat) (st : Status) (bytes : Nat) : (d.fnCmdDone f op st bytes).mem.ram = d.mem.ram := by
  simp [Dev.fnCmdDone]

@[simp] theorem Dev.mboxClear_ram (d : Dev) (f : Nat) : (d.mboxClear f).mem.ram = d.mem.ram := by simp -implicitDefEqProofs [Dev.mboxClear]

@[simp] theorem Dev.errorQps_ram (d : Dev) (f : Nat) : (d.errorQps f).mem.ram = d.mem.ram := by simp [Dev.errorQps]

@[simp] theorem Dev.drainEnd_ram (d : Dev) (f : Nat) : (d.drainEnd f).mem.ram = d.mem.ram := by simp [Dev.drainEnd]

@[simp] theorem Dev.finishDrain_ram (d : Dev) (f : Nat) : (d.finishDrain f).mem.ram = d.mem.ram := by simp [Dev.finishDrain]

@[simp] theorem Dev.restoreEvents_ram (d : Dev) (b : Blob) (f : Nat) : (d.restoreEvents b f).mem.ram = d.mem.ram := by simp [Dev.restoreEvents]

@[simp] theorem Dev.restoreInto_ram (d : Dev) (b : Blob) (f : Nat) : (d.restoreInto b f).mem.ram = d.mem.ram := by
  simp -implicitDefEqProofs [Dev.restoreInto]

@[simp] theorem Dev.blkCmdStart_ram (d : Dev) (n : Nat) (st : Status) : (d.blkCmdStart n st).mem.ram = d.mem.ram := by simp [Dev.blkCmdStart]

@[simp] theorem Dev.startMove_ram (d : Dev) (p : Nat) (m : Move) : (d.startMove p m).mem.ram = d.mem.ram := by
  unfold Dev.startMove
  split <;> simp

@[simp] theorem Dev.copyError_ram (d : Dev) (a n : Nat) : (d.copyError a n).mem.ram = d.mem.ram := by simp [Dev.copyError]

@[simp] theorem Dev.switchBlocks_ram (d : Dev) (i rank : Nat) : (d.switchBlocks i rank).mem.ram = d.mem.ram := by simp [Dev.switchBlocks]

@[simp] theorem Dev.dmaReadIn_ram (d : Dev) (t n : Nat) (l : List Nat) : (d.dmaReadIn t n l).1.mem.ram = d.mem.ram := by
  induction l generalizing d with
  | nil => rfl
  | cons a r ih =>
    simp only [Dev.dmaReadIn]
    repeat' split
    all_goals simp [ih]

@[simp] theorem Dev.dmaRead_ram (d : Dev) (t part key : Nat) (rd : HostRead) (off n : Nat) (rows : List Nat) :
    (d.dmaRead t part key rd off n rows).1.mem.ram = d.mem.ram := by simp [Dev.dmaRead]

@[simp] theorem Dev.dmaEnd_ram (d : Dev) (t ctx part : Nat) (x : BitVec 512) (f : UnitFail) (write : Bool) :
    (d.dmaEnd t ctx part x f write).mem.ram = d.mem.ram := by simp [Dev.dmaEnd]

@[simp] theorem Dev.dmaNotice_ram (d : Dev) (t part : Nat) (x : BitVec 512) (rd : HostRead) :
    (d.dmaNotice t part x rd).1.mem.ram = d.mem.ram := by
  simp only [Dev.dmaNotice]
  repeat' split
  all_goals simp

@[simp] theorem Dev.dmaNotify_ram (d : Dev) (t ctx part : Nat) (x : BitVec 512) (rd : HostRead) :
    (d.dmaNotify t ctx part x rd).mem.ram = d.mem.ram := by simp [Dev.dmaNotify]

@[simp] theorem Dev.tileStop_ram (d : Dev) (t : Nat) : (d.tileStop t).mem.ram = d.mem.ram := by simp [Dev.tileStop]

@[simp] theorem Dev.setImgState_ram (d : Dev) (st : Nat) : (d.setImgState st).mem.ram = d.mem.ram := by simp [Dev.setImgState]

@[simp] theorem Dev.imgDone_ram (d : Dev) (state : Nat) (st : Status) (reason sec : Nat) :
    (d.imgDone state st reason sec).mem.ram = d.mem.ram := by
  simp [Dev.imgDone]

@[simp] theorem Dev.imgReject_ram (d : Dev) (st : Status) (reason sec : Nat) : (d.imgReject st reason sec).mem.ram = d.mem.ram := by
  simp [Dev.imgReject]

@[simp] theorem Dev.imgDrop_ram (d : Dev) : (d.imgDrop).mem.ram = d.mem.ram := by simp [Dev.imgDrop]

@[simp] theorem Dev.stageHeal_ram (d : Dev) (n : Nat) : (d.stageHeal n).mem.ram = d.mem.ram := by simp [Dev.stageHeal]

@[simp] theorem Dev.wholeCandidate_ram (d : Dev) (b : Blob) : (d.wholeCandidate b).mem.ram = d.mem.ram := by simp [Dev.wholeCandidate]

@[simp] theorem Dev.enterExperts_ram (d : Dev) (p : Nat) : (d.enterExperts p).mem.ram = d.mem.ram := by
  unfold Dev.enterExperts
  refine Dev.foldl_ram _ (fun e k => ?_) _ _
  dsimp only
  split
  · rfl
  · split
    · rw [Dev.foldl_ram, Dev.upXdu_mem]
      intro _ _
      rw [Dev.setBlk_ram]
    · rw [Dev.upXdu_mem]

@[simp] theorem Dev.leaveExperts_ram (d : Dev) (p : Nat) : (d.leaveExperts p).mem.ram = d.mem.ram := by simp [Dev.leaveExperts]

@[simp] theorem Dev.substitute_ram (d : Dev) (c : Nat) : (d.substitute c).mem.ram = d.mem.ram := by
  unfold Dev.substitute
  split <;> simp

@[simp] theorem Dev.regBack_ram (d : Dev) (off : Nat) : (d.regBack off).mem.ram = d.mem.ram := by simp [Dev.regBack]

@[simp] theorem Dev.qpLinkLost_ram (d : Dev) (k n : Nat) (q : Qp) : (d.qpLinkLost k n q).mem.ram = d.mem.ram := by simp [Dev.qpLinkLost]

@[simp] theorem Dev.dmaStop_ram (d : Dev) (t c : Nat) (st : Status) : (d.dmaStop t c st).mem.ram = d.mem.ram := by simp [Dev.dmaStop]

@[simp] theorem Dev.reinit_ram (d : Dev) (k : Nat) : (d.reinit k).mem.ram = d.mem.ram := by simp [Dev.reinit]

@[simp] theorem Dev.linksDown_ram (d : Dev) : (d.linksDown).mem.ram = d.mem.ram := by simp [Dev.linksDown]

@[simp] theorem Dev.endQuiet_ram (d : Dev) : (d.endQuiet).mem.ram = d.mem.ram := by simp [Dev.endQuiet]

@[simp] theorem Dev.goFatal_ram (d : Dev) (loc detail : Nat) : (d.goFatal loc detail).mem.ram = d.mem.ram := by simp [Dev.goFatal]

@[simp] theorem Dev.controlRecord_ram (d : Dev) (loc detail action kind part fn ctx : Nat) :
    (d.controlRecord loc detail action kind part fn ctx).mem.ram = d.mem.ram := by simp [Dev.controlRecord]

@[simp] theorem Dev.siteRecord_ram (d : Dev) (x : ErrSite) (sev action kind part fn ctx : Nat) :
    (d.siteRecord x sev action kind part fn ctx).mem.ram = d.mem.ram := by simp [Dev.siteRecord]

@[simp] theorem Dev.plainRecord_ram (d : Dev) (x : ErrSite) (sev action : Nat) : (d.plainRecord x sev action).mem.ram = d.mem.ram := by
  simp [Dev.plainRecord]

@[simp] theorem Dev.markBad_ram (d : Dev) (a : Nat) : (d.markBad a).mem.ram = d.mem.ram := by
  unfold Dev.markBad
  split <;> simp

@[simp] theorem Dev.correctedLasting_ram (d : Dev) (x : ErrSite) : (d.correctedLasting x).mem.ram = d.mem.ram := by simp [Dev.correctedLasting]

@[simp] theorem Dev.nakContext_ram (d : Dev) (payload : BitVec 512) : (d.nakContext payload).mem.ram = d.mem.ram := by simp [Dev.nakContext]

@[simp] theorem Dev.recalWrite_ram (d : Dev) (w : W64) : (d.recalWrite w).mem.ram = d.mem.ram := by simp [Dev.recalWrite]

@[simp] theorem Dev.bistFailure_ram (d : Dev) (code : Nat) : (d.bistFailure code).mem.ram = d.mem.ram := by simp [Dev.bistFailure]

@[simp] theorem Dev.onfLaneBad_ram (d : Dev) (lane : Nat) : (d.onfLaneBad lane).mem.ram = d.mem.ram := by simp [Dev.onfLaneBad]

@[simp] theorem Dev.ethLaneBad_ram (d : Dev) (lane : Nat) : (d.ethLaneBad lane).mem.ram = d.mem.ram := by simp [Dev.ethLaneBad]

@[simp] theorem Dev.pcieLaneBad_ram (d : Dev) (lane code : Nat) : (d.pcieLaneBad lane code).mem.ram = d.mem.ram := by simp [Dev.pcieLaneBad]

@[simp] theorem Dev.fincSat_ram (d : Dev) (f : RegField) (top : Nat) : (d.fincSat f top).mem.ram = d.mem.ram := by simp [Dev.fincSat]

@[simp] theorem Dev.bistSettle_ram (d : Dev) : (d.bistSettle).mem.ram = d.mem.ram := by simp [Dev.bistSettle]

@[simp] theorem Dev.svcRefuse_ram (d : Dev) : (d.svcRefuse).mem.ram = d.mem.ram := by simp [Dev.svcRefuse]

@[simp] theorem Dev.svcStart_ram (d : Dev) (kind index : Nat) (stage : SvcStage) : (d.svcStart kind index stage).mem.ram = d.mem.ram := by
  simp [Dev.svcStart]

@[simp] theorem Dev.svcDone_ram (d : Dev) (t : SvcTest) (st : Status) (result : Nat) : (d.svcDone t st result).mem.ram = d.mem.ram := by
  simp [Dev.svcDone]

@[simp] theorem Dev.svcRecord_ram (d : Dev) (t : SvcTest) (lane : Nat) : (d.svcRecord t lane).mem.ram = d.mem.ram := by simp [Dev.svcRecord]

@[simp] theorem Dev.svcAbandon_ram (d : Dev) : (d.svcAbandon).mem.ram = d.mem.ram := by
  unfold Dev.svcAbandon
  split <;> simp

@[simp] theorem Dev.secStatus_ram (d : Dev) (st : Status) : (d.secStatus st).mem.ram = d.mem.ram := by simp [Dev.secStatus]

@[simp] theorem Dev.rollbackDone_ram (d : Dev) (st : Status) : (d.rollbackDone st).mem.ram = d.mem.ram := by simp [Dev.rollbackDone]

@[simp] theorem Dev.spdmSend_ram (d : Dev) (mctp : Bool) (r : SpdmRsp) : (d.spdmSend mctp r).mem.ram = d.mem.ram := by simp [Dev.spdmSend]

@[simp] theorem Dev.spdmSet_ram (d : Dev) (mctp : Bool) (n : Nat) : (d.spdmSet mctp n).mem.ram = d.mem.ram := by simp [Dev.spdmSet]

@[simp] theorem Dev.powerEvent_ram (d : Dev) (kind : Nat) (st : Status) (val : Nat) : (d.powerEvent kind st val).mem.ram = d.mem.ram := by
  simp [Dev.powerEvent]

@[simp] theorem Dev.applyNotch_ram (d : Dev) : (d.applyNotch).mem.ram = d.mem.ram := by simp [Dev.applyNotch]

@[simp] theorem Dev.brakeOn_ram (d : Dev) : (d.brakeOn).mem.ram = d.mem.ram := by simp -implicitDefEqProofs [Dev.brakeOn]

@[simp] theorem Dev.showStraps_ram (d : Dev) (x : Straps) : (d.showStraps x).mem.ram = d.mem.ram := by simp [Dev.showStraps]

@[simp] theorem Dev.keyRecord_ram (d : Dev) (ok : Bool) : (d.keyRecord ok).mem.ram = d.mem.ram := by simp [Dev.keyRecord]

@[simp] theorem Dev.pwrStatus_ram (d : Dev) (st : Status) : (d.pwrStatus st).mem.ram = d.mem.ram := by simp [Dev.pwrStatus]

@[simp] theorem Dev.mgtAnswer_ram (d : Dev) (r : MgtRsp) : (d.mgtAnswer r).mem.ram = d.mem.ram := by simp [Dev.mgtAnswer]

@[simp] theorem Dev.pldmBase_ram (d : Dev) (command code : Nat) (body : List Byte) : (d.pldmBase command code body).mem.ram = d.mem.ram := by
  simp [Dev.pldmBase]

@[simp] theorem Dev.pldmMon_ram (d : Dev) (command code : Nat) (body : List Byte) : (d.pldmMon command code body).mem.ram = d.mem.ram := by
  simp [Dev.pldmMon]

@[simp] theorem Dev.sensorEnable_ram (d : Dev) (l : List Nat) (command id : Nat) (on : Bool) :
    (d.sensorEnable l command id on).mem.ram = d.mem.ram := by simp [Dev.sensorEnable]

@[simp] theorem Dev.vendor_ram (d : Dev) (command code : Nat) (body : List Byte) : (d.vendor command code body).mem.ram = d.mem.ram := by
  simp [Dev.vendor]

@[simp] theorem Dev.readEffect_ram (d : Dev) (off : Nat) (r : RegDef) : (d.readEffect off r).mem.ram = d.mem.ram := by
  unfold Dev.readEffect
  repeat' split
  all_goals simp

@[simp] theorem Dev.read32_ram (d : Dev) (off : Nat) : (d.read32 off).1.mem.ram = d.mem.ram := by
  unfold Dev.read32
  repeat' split
  all_goals simp

@[simp] theorem Dev.selfRead32_ram (d : Dev) (f off : Nat) : (d.selfRead32 f off).1.mem.ram = d.mem.ram := by simp [Dev.selfRead32]

@[simp] theorem Dev.bar0Read32_ram (d : Dev) (f off : Nat) : (d.bar0Read32 f off).1.mem.ram = d.mem.ram := by simp [Dev.bar0Read32]

@[simp] theorem Dev.bar0Read_ram (d : Dev) (f off size : Nat) : (d.bar0Read f off size).1.mem.ram = d.mem.ram := by
  unfold Dev.bar0Read
  repeat' split
  all_goals simp

@[simp] theorem Dev.selfWrite32_ram (d : Dev) (f off : Nat) (v : W32) : (d.selfWrite32 f off v).mem.ram = d.mem.ram := by simp [Dev.selfWrite32]

@[simp] theorem Dev.ptpTick_ram (d : Dev) : (d.ptpTick).mem.ram = d.mem.ram := by simp [Dev.ptpTick]

@[simp] theorem Dev.cbsTick_ram (d : Dev) : (d.cbsTick).mem.ram = d.mem.ram := by simp [Dev.cbsTick]

@[simp] theorem Dev.tick_ram (d : Dev) : (d.tick).mem.ram = d.mem.ram := by simp [Dev.tick]

theorem Dev.takeRx_ram {d e : Dev} {n : Nat} {ok : RxPkt → Bool} {x : RxPkt} (h : d.takeRx n ok = some (x, e)) : e.mem.ram = d.mem.ram := by
  unfold Dev.takeRx at h
  repeat' split at h
  all_goals simp at h
  all_goals simp [← h.2]

theorem Dev.txPick_ram {d e : Dev} {p : Nat} {f : TxFrame} (h : d.txPick p = some (f, e)) : e.mem.ram = d.mem.ram := by
  simp only [Dev.txPick] at h
  repeat' split at h
  all_goals simp at h
  all_goals simp [← h.2]

@[simp] theorem sampleEnd_ram (root w : Nat) (r : Dev × Bool) : (sampleEnd root w r).mem.ram = r.1.mem.ram := by
  obtain ⟨d, _ | _⟩ := r <;> simp [sampleEnd]

@[simp] theorem Dev.qpeTurn_ram (d : Dev) (qid : Nat) (rd : HostRead) (ok : Dev → BitVec 512 → Bool) :
    (d.qpeTurn qid rd ok).mem.ram = d.mem.ram := by
  unfold Dev.qpeTurn
  split
  · rfl
  · split
    · rfl
    · split
      · rfl
      · split
        next h => rw [Dev.qpStart_ram, Dev.wqTurn_ram h]
        · rfl

theorem Dev.recvTake_ram {d e : Dev} {n first src i : Nat} (h : d.recvTake n first src = some (e, i)) : e.mem.ram = d.mem.ram := by
  simp only [Dev.recvTake] at h
  repeat' split at h
  all_goals simp at h
  simp [← h.1]

theorem Dev.recvNumber_ram {d e : Dev} {n num first fuel i : Nat} (h : d.recvNumber n num first fuel = some (e, i)) : e.mem.ram = d.mem.ram := by
  induction fuel generalizing d with
  | zero => simp [Dev.recvNumber] at h
  | succ k ih =>
    unfold Dev.recvNumber at h
    repeat' split at h
    · simp at h
    · simp at h
      rw [h.1]
    next ht => rw [ih h, Dev.recvTake_ram ht]
    · simp at h

end Sys2Proof.Machine
end

section
/-! PROOFS. What stores. `Dev.foo_wf` says of a function of the device that it keeps memory in its canonical form;
in the order of the definitions. `-implicitDefEqProofs`: the `_mem` lemmas hold by `rfl`, and a deep chain of them, left
implicit, is too deep for the kernel to unfold. -/
namespace Sys2Proof.Machine
open Sys2Proof

@[simp] theorem Mem.ite_wf (c : Prop) [Decidable c] (a b : Mem) : (if c then a else b).wf = if c then a.wf else b.wf := by split <;> rfl

theorem Dev.foldl_wf {α : Type} {f : Dev → α → Dev} (hf : ∀ d a, d.mem.ram.wf = true → (f d a).mem.ram.wf = true) (l : List α)
    {d : Dev} (h : d.mem.ram.wf = true) : (l.foldl f d).mem.ram.wf = true :=
  foldl_keeps (fun e : Dev => e.mem.ram.wf = true) f hf l d h

theorem fst_wf_of_eq {α : Type} {p : Dev × α} {e : Dev} {x : α} (he : p = (e, x)) (hp : p.1.mem.ram.wf = true) : e.mem.ram.wf = true := by
  subst he
  exact hp

@[simp] theorem Dev.writeUnits_wf (d : Dev) (u : KeyUser) (key : Nat) (bs : List Byte) (flagged : Bool) (done : Nat) (l : List (Nat × Nat))
    (h : d.mem.ram.wf = true) : (d.writeUnits u key bs flagged done l).1.mem.ram.wf = true := by
  induction l generalizing d done with
  | nil => exact h
  | cons p r ih =>
    obtain ⟨a, n⟩ := p
    simp only [Dev.writeUnits]
    split
    · exact h
    · split
      · split
        · exact Dev.memWrite_wf _ _ _ h
        · exact ih _ _ (Dev.memWrite_wf _ _ _ h)
      · exact h
    · split
      · exact h
      · exact ih _ _ (by simpa using h)

@[simp] theorem Dev.keyWrite_wf (d : Dev) (u : KeyUser) (key a : Nat) (bs : List Byte) (flagged : Bool) (h : d.mem.ram.wf = true) :
    (d.keyWrite u key a bs flagged).1.mem.ram.wf = true := by
  simp -implicitDefEqProofs [Dev.keyWrite, h]

@[simp] theorem Dev.spoilUnits_wf (d : Dev) (x : CadStream) (units : List Nat) (h : d.mem.ram.wf = true) :
    (d.spoilUnits x units).mem.ram.wf = true := by
  unfold Dev.spoilUnits
  refine Dev.foldl_wf (fun e x he => ?_) _ h
  simp -implicitDefEqProofs [he]

@[simp] theorem Dev.streamFail_wf (d : Dev) (k : Nat) (x : CadStream) (st : Status) (h : d.mem.ram.wf = true) :
    (d.streamFail k x st).mem.ram.wf = true := by
  simp -implicitDefEqProofs [Dev.streamFail, h]

@[simp] theorem Dev.streamsEnd_wf (d : Dev) (hit : CadStream → Bool) (st : Status) (h : d.mem.ram.wf = true) :
    (d.streamsEnd hit st).mem.ram.wf = true := by
  unfold Dev.streamsEnd
  refine Dev.foldl_wf (fun e x he => ?_) _ h
  simp -implicitDefEqProofs [he]

@[simp] theorem Dev.subStore_wf (d : Dev) (a : Nat) (bs : List Byte) (h : d.mem.ram.wf = true) : (d.subStore a bs).mem.ram.wf = true := by
  unfold Dev.subStore
  split
  · exact Dev.placeStore_wf _ _ _ h
  · split
    · exact h
    · exact Dev.foldl_wf (fun e k he => Dev.placeStore_wf _ _ _ he) _ h

@[simp] theorem Dev.copySub_wf (d : Dev) (src dst : Nat) (h : d.mem.ram.wf = true) : (d.copySub src dst).mem.ram.wf = true := by
  unfold Dev.copySub
  split
  · refine Dev.foldl_wf (fun e g he => ?_) _ h
    split
    · exact Dev.copyPlace_wf _ _ _ _ he
    · exact he
  · dsimp only
    refine Dev.subStore_wf _ _ _ ?_
    repeat' split
    all_goals simpa using h

@[simp] theorem Dev.copySubs_wf (d : Dev) (m : Move) (subs : List Nat) (h : d.mem.ram.wf = true) : (d.copySubs m subs).mem.ram.wf = true := by
  unfold Dev.copySubs
  split
  · exact Dev.foldl_wf (fun e u he => Dev.copySub_wf _ _ _ he) _ h
  · exact h

@[simp] theorem Dev.landHeld_wf (d : Dev) (ws : List (Nat × List Byte)) (h : d.mem.ram.wf = true) : (d.landHeld ws).mem.ram.wf = true := by
  unfold Dev.landHeld
  exact Dev.foldl_wf (fun e x he => by simp -implicitDefEqProofs [Dev.storeSound_wf, he]) _ h

@[simp] theorem Dev.abandonMove_wf (d : Dev) (m : Move) (count : Nat → RegField) (h : d.mem.ram.wf = true) :
    (d.abandonMove m count).mem.ram.wf = true := by
  simp -implicitDefEqProofs [Dev.abandonMove, h]

@[simp] theorem Dev.memPathLost_wf (d : Dev) (hit : Nat → Bool) (h : d.mem.ram.wf = true) : (d.memPathLost hit).mem.ram.wf = true := by
  unfold Dev.memPathLost
  refine Dev.foldl_wf (fun e q he => ?_) _ (Dev.foldl_wf (fun e m he => Dev.abandonMove_wf _ _ _ he) _ h)
  simpa using he

@[simp] theorem Dev.smvWrite_wf (d : Dev) (c : Coll) (a : Nat) (bs : List Byte) (h : d.mem.ram.wf = true) :
    (d.smvWrite c a bs).1.mem.ram.wf = true := by
  have hw := Dev.keyWrite_wf d (collUser c.part true) (sDstKey c.desc) a bs false h
  unfold Dev.smvWrite
  split <;> rename_i he <;> simpa using fst_wf_of_eq he hw

@[simp] theorem Dev.smvSlab_wf (d : Dev) (c : Coll) (k : Nat) (map blocks : List Byte) (h : d.mem.ram.wf = true) :
    (d.smvSlab c k map blocks).1.mem.ram.wf = true := by
  unfold Dev.smvSlab
  refine foldl_keeps (fun r : Dev × Bool => r.1.mem.ram.wf = true) _ (fun r b hr => ?_) _ _ (Dev.smvWrite_wf _ _ _ _ h)
  split
  · exact hr
  · split
    · exact Dev.smvWrite_wf _ _ _ _ hr
    · split
      · exact Dev.smvWrite_wf _ _ _ _ hr
      · exact hr

@[simp] theorem Dev.smvSlabs_wf (d : Dev) (c : Coll) (l : List Nat) (h : d.mem.ram.wf = true) : (d.smvSlabs c l).mem.ram.wf = true := by
  induction l generalizing d with
  | nil => exact h
  | cons k r ih =>
    unfold Dev.smvSlabs
    split <;> rename_i he
    · exact fst_wf_of_eq he (by simpa using h)
    · have hr := fst_wf_of_eq he (by simpa using h)
      split
      · split <;> rename_i hs
        · exact ih _ (fst_wf_of_eq hs (Dev.smvSlab_wf _ _ _ _ _ hr))
        · exact fst_wf_of_eq hs (Dev.smvSlab_wf _ _ _ _ _ hr)
      · exact ih _ (by simpa using hr)

@[simp] theorem Dev.smvData_wf (d : Dev) (c : Coll) (h : d.mem.ram.wf = true) : (d.smvData c).mem.ram.wf = true := by
  unfold Dev.smvData
  extract_lets x w ch own
  split
  case h_1 =>
    split <;> rename_i he
    · exact fst_wf_of_eq he (by simp -implicitDefEqProofs [h])
    · have hr := fst_wf_of_eq he (by simp -implicitDefEqProofs [h])
      split <;> rename_i hw <;> simp -implicitDefEqProofs [fst_wf_of_eq hw (Dev.smvWrite_wf _ _ _ _ hr)]
  case h_2 => exact Dev.smvSlabs_wf _ _ _ h
  case h_3 | h_4 =>
    split
    · exact h
    · split <;> rename_i he <;> simp -implicitDefEqProofs [fst_wf_of_eq he (by simp -implicitDefEqProofs [h])]
  case h_5 | h_6 =>
    split
    · exact h
    · split <;> rename_i he
      · exact fst_wf_of_eq he (by simp -implicitDefEqProofs [h])
      · have hr := fst_wf_of_eq he (by simp -implicitDefEqProofs [h])
        extract_lets r
        have hp : r.1.mem.ram.wf = true := by simp -implicitDefEqProofs [r, hr]
        split
        · exact Dev.foldl_wf (fun e k he => by simp -implicitDefEqProofs [he]) _ hp
        · exact hp
  case h_7 => exact h

@[simp] theorem Dev.smvVerdict_wf (d : Dev) (c : Coll) (h : d.mem.ram.wf = true) : (d.smvVerdict c).mem.ram.wf = true := by
  simp -implicitDefEqProofs [Dev.smvVerdict, h]

@[simp] theorem Dev.smvRoot_wf (d : Dev) (c : Coll) (h : d.mem.ram.wf = true) : (d.smvRoot c).mem.ram.wf = true := by
  simp -implicitDefEqProofs [Dev.smvRoot, h]

@[simp] theorem Dev.smvGather_wf (d : Dev) (c : Coll) (src : Nat) (x : SmvCell) (h : d.mem.ram.wf = true) :
    (d.smvGather c src x).mem.ram.wf = true := by
  simp -implicitDefEqProofs [Dev.smvGather, h]

@[simp] theorem Dev.smvFence_wf (d : Dev) (g : Nat) (h : d.mem.ram.wf = true) : (d.smvFence g).mem.ram.wf = true := by
  unfold Dev.smvFence
  repeat' split
  all_goals simp -implicitDefEqProofs [h]

@[simp] theorem Dev.smvMeet_wf (d : Dev) (c : Coll) (h : d.mem.ram.wf = true) : (d.smvMeet c).mem.ram.wf = true := by
  unfold Dev.smvMeet
  refine Dev.foldl_wf (fun e x he => ?_) _ h
  split <;> simp -implicitDefEqProofs [he]

@[simp] theorem Dev.smvTake_wf (d : Dev) (qid : Nat) (q : Wq) (e : WqEntry) (h : d.mem.ram.wf = true) :
    (d.smvTake qid q e).mem.ram.wf = true := by
  simp only [Dev.smvTake]
  repeat' split
  all_goals simp -implicitDefEqProofs [h]

@[simp] theorem Dev.smvReduce_wf (d : Dev) (c : Coll) (j : Nat) (bs : List Byte) (h : d.mem.ram.wf = true) :
    (d.smvReduce c j bs).mem.ram.wf = true := by
  unfold Dev.smvReduce
  dsimp only
  split <;> rename_i he
  · exact fst_wf_of_eq he (by simpa using h)
  · have hr := fst_wf_of_eq he (by simpa using h)
    split
    · simpa using hr
    · split <;> rename_i hw
      · have hd := fst_wf_of_eq hw (Dev.smvWrite_wf _ _ _ _ hr)
        split <;> simpa using hd
      · exact fst_wf_of_eq hw (Dev.smvWrite_wf _ _ _ _ hr)

@[simp] theorem Dev.smvTakeData_wf (d : Dev) (c : Coll) (x : SmvCell) (bs : List Byte) (h : d.mem.ram.wf = true) :
    (d.smvTakeData c x bs).mem.ram.wf = true := by
  unfold Dev.smvTakeData
  dsimp only
  split
  · exact Dev.smvReduce_wf _ _ _ _ h
  · split
    · split <;> rename_i hw
      · have hd := fst_wf_of_eq hw (Dev.smvWrite_wf _ _ _ _ h)
        split <;> simpa using hd
      · exact fst_wf_of_eq hw (Dev.smvWrite_wf _ _ _ _ h)
    · split
      · exact Dev.smvSlab_wf _ _ _ _ _ h
      · exact Dev.smvWrite_wf _ _ _ _ h

@[simp] theorem Dev.applyUpdates_wf (d : Dev) (l : List (Nat × Nat)) (h : d.mem.ram.wf = true) : (d.applyUpdates l).mem.ram.wf = true := by
  induction l generalizing d with
  | nil => simp -implicitDefEqProofs [Dev.applyUpdates, h]
  | cons p r ih =>
    obtain ⟨a, v⟩ := p
    unfold Dev.applyUpdates
    split
    · simp -implicitDefEqProofs [h]
    · exact ih _ (Dev.memStoreN_wf _ _ _ h)

@[simp] theorem Dev.storeRows_wf (d : Dev) (base pitch i : Nat) (l : List (List Byte)) (h : d.mem.ram.wf = true) :
    (d.storeRows base pitch i l).mem.ram.wf = true := by
  induction l generalizing d i with
  | nil => exact h
  | cons r rest ih => exact ih _ _ (Dev.memWrite_wf _ _ _ h)

@[simp] theorem Dev.startTile_wf (d : Dev) (t : Nat) (cred : Tab Nat) (h : d.mem.ram.wf = true) : (d.startTile t cred).mem.ram.wf = true := by
  simp -implicitDefEqProofs [Dev.startTile, Dev.clearRam_wf, h]

@[simp] theorem Dev.restartTile_wf (d : Dev) (t : Nat) (h : d.mem.ram.wf = true) : (d.restartTile t).mem.ram.wf = true := by
  simp -implicitDefEqProofs [Dev.restartTile, h]

@[simp] theorem Dev.xduRow_wf (d : Dev) (key : Nat) (c : XCtx) (t : Nat) (row : List Byte) (h : d.mem.ram.wf = true) :
    (d.xduRow key c t row).1.mem.ram.wf = true := by
  unfold Dev.xduRow
  dsimp only
  split
  · split <;> rename_i hw <;> simpa using fst_wf_of_eq hw (Dev.keyWrite_wf _ _ _ _ _ _ h)
  · split
    · simpa using h
    · split <;> simpa using h

@[simp] theorem Dev.xduCombine_wf (d : Dev) (key fuel : Nat) (h : d.mem.ram.wf = true) : (d.xduCombine key fuel).mem.ram.wf = true := by
  induction fuel generalizing d with
  | zero => exact h
  | succ n ih =>
    unfold Dev.xduCombine
    split
    · exact h
    · split
      · exact h
      · split
        · exact h
        · split <;> rename_i hr
          · exact ih _ (fst_wf_of_eq hr (Dev.xduRow_wf _ _ _ _ _ h))
          · exact fst_wf_of_eq hr (Dev.xduRow_wf _ _ _ _ _ h)

@[simp] theorem Dev.xduCombineAll_wf (d : Dev) (key : Nat) (h : d.mem.ram.wf = true) : (d.xduCombineAll key).mem.ram.wf = true := by
  simp -implicitDefEqProofs [Dev.xduCombineAll, h]

@[simp] theorem Dev.xduLeave_wf (d : Dev) (key : Nat) (c : XCtx) (expert idx n window : Nat) (tokens : List Nat) (h : d.mem.ram.wf = true) :
    (d.xduLeave key c expert idx n window tokens).mem.ram.wf = true := by
  simp only [Dev.xduLeave]
  repeat' split
  all_goals simp -implicitDefEqProofs [Dev.memWrite_wf, h]

@[simp] theorem Dev.xduOutputs_wf (d : Dev) (key : Nat) (b : XBatch) (rows : List (List W32)) (h : d.mem.ram.wf = true) :
    (d.xduOutputs key b rows).mem.ram.wf = true := by
  unfold Dev.xduOutputs
  repeat' split
  all_goals simp -implicitDefEqProofs [h]

@[simp] theorem Dev.xduCollect_wf (d : Dev) (key : Nat) (c : XCtx) (b : XBatch) (a len : Nat) (h : d.mem.ram.wf = true) :
    (d.xduCollect key c b a len).mem.ram.wf = true := by
  unfold Dev.xduCollect
  repeat' split
  all_goals simp -implicitDefEqProofs [h]

@[simp] theorem Dev.pathLost_wf (d : Dev) (hit : Nat → Bool) (h : d.mem.ram.wf = true) : (d.pathLost hit).mem.ram.wf = true := by
  simp -implicitDefEqProofs [Dev.pathLost, h]

@[simp] theorem Dev.linkLost_wf (d : Dev) (n : Nat) (h : d.mem.ram.wf = true) : (d.linkLost n).mem.ram.wf = true := by
  simp -implicitDefEqProofs [Dev.linkLost, h]

@[simp] theorem Dev.loseRank_wf (d : Dev) (r : Nat) (h : d.mem.ram.wf = true) : (d.loseRank r).mem.ram.wf = true := by
  simp -implicitDefEqProofs [Dev.loseRank, h]

@[simp] theorem Dev.takeSwitch_wf (d : Dev) (set frame epoch : Nat) (lost recal : W64) (h : d.mem.ram.wf = true) :
    (d.takeSwitch set frame epoch lost recal).mem.ram.wf = true := by
  unfold Dev.takeSwitch
  refine Dev.foldl_wf (fun e x he => ?_) _ h
  simp -implicitDefEqProofs [he]

@[simp] theorem Dev.announceSet_wf (d : Dev) (set : Nat) (h : d.mem.ram.wf = true) : (d.announceSet set).mem.ram.wf = true :=
  Dev.announce_keeps (fun m => m.wf = true) _ _ _ (fun _ he => Dev.takeSwitch_wf _ _ _ _ _ _ he) h

@[simp] theorem Dev.review_wf (d : Dev) (h : d.mem.ram.wf = true) : (d.review).mem.ram.wf = true := by
  unfold Dev.review
  repeat' split
  all_goals simp -implicitDefEqProofs [h]

@[simp] theorem Dev.failed_wf (d : Dev) (ranks : List Nat) (links : List (Nat × Nat)) (h : d.mem.ram.wf = true) :
    (d.failed ranks links).mem.ram.wf = true := by
  simp -implicitDefEqProofs [Dev.failed, h]

@[simp] theorem Dev.takeFault_wf (d : Dev) (reporter link state : Nat) (lost : Option Nat) (h : d.mem.ram.wf = true) :
    (d.takeFault reporter link state lost).mem.ram.wf = true := by
  unfold Dev.takeFault
  repeat' split
  all_goals simp -implicitDefEqProofs [h]

@[simp] theorem Dev.report_wf (d : Dev) (n state : Nat) (lost : Option Nat) (h : d.mem.ram.wf = true) :
    (d.report n state lost).mem.ram.wf = true := by
  simp -implicitDefEqProofs [Dev.report, h]

@[simp] theorem Dev.rankGone_wf (d : Dev) (r : Nat) (h : d.mem.ram.wf = true) : (d.rankGone r).mem.ram.wf = true := by
  have hl := Dev.loseRank_wf d r h
  unfold Dev.rankGone
  dsimp only
  split
  · exact hl
  · have hb : ∀ l : List Nat, (l.foldl (fun d n => d.report n (d.linkState n) (some r)) (d.loseRank r)).mem.ram.wf = true := fun l =>
      Dev.foldl_wf (fun _ _ he => Dev.report_wf _ _ _ _ he) l hl
    split
    · exact Dev.failed_wf _ _ _ (hb _)
    · exact hb _

@[simp] theorem Dev.linkOut_wf (d : Dev) (n st : Nat) (h : d.mem.ram.wf = true) : (d.linkOut n st).mem.ram.wf = true := by
  unfold Dev.linkOut
  extract_lets l was d1 d2 d3 d4 d5
  split
  · exact h
  · have h2 : d2.mem.ram.wf = true := by simpa [d2, d1] using h
    have h3 : d3.mem.ram.wf = true := by
      unfold d3
      split
      · exact h2
      · exact Dev.linkLost_wf _ _ h2
    have h4 : d4.mem.ram.wf = true := by
      unfold d4
      split
      · exact Dev.rankGone_wf _ _ h3
      · exact h3
    have h5 : d5.mem.ram.wf = true := Dev.foldl_wf (fun e c he => by simpa using he) _ h4
    split
    · exact Dev.report_wf _ _ _ _ h5
    · exact h5

@[simp] theorem Dev.linkIn_wf (d : Dev) (n : Nat) (h : d.mem.ram.wf = true) : (d.linkIn n).mem.ram.wf = true := by
  simp -implicitDefEqProofs [Dev.linkIn, h]

@[simp] theorem Dev.landWrite_wf (d : Dev) (q : Qp) (key addr : Nat) (flagged : Bool) (bs : List Byte) (h : d.mem.ram.wf = true) :
    (d.landWrite q key addr flagged bs).1.mem.ram.wf = true := by
  unfold Dev.landWrite
  repeat' split
  all_goals simp -implicitDefEqProofs [h]

@[simp] theorem Dev.landRecv_wf (d : Dev) (q : Qp) (desc : BitVec 512) (off : Nat) (bs : List Byte) (h : d.mem.ram.wf = true) :
    (d.landRecv q desc off bs).1.mem.ram.wf = true := by
  simp -implicitDefEqProofs [Dev.landRecv, h]

@[simp] theorem Dev.landCur_wf (q : Qp) (c : RespMsg) (d : Dev) (off : Nat) (bs : List Byte) (h : d.mem.ram.wf = true) :
    (d.landCur q c off bs).1.mem.ram.wf = true := by
  unfold Dev.landCur
  repeat' split
  all_goals simp -implicitDefEqProofs [h]

theorem openSegs_wf (slot : KeySlot) (req resp : Nat) (rd : Bool) (first len : Nat) (land : Dev → Nat → List Byte → Dev × Option UnitFail)
    (hland : ∀ d n bs, d.mem.ram.wf = true → (land d n bs).1.mem.ram.wf = true) (fuel : Nat) (o : Opened) (h : o.dev.mem.ram.wf = true) :
    (openSegs slot req resp rd first len land fuel o).dev.mem.ram.wf = true := by
  induction fuel generalizing o with
  | zero => exact h
  | succ n ih =>
    unfold openSegs
    extract_lets size d
    have hd : d.mem.ram.wf = true := by simp -implicitDefEqProofs [d, h]
    split
    · exact h
    · split
      · exact h
      · split
        · simp -implicitDefEqProofs [h]
        · split
          · simp -implicitDefEqProofs [hd]
          · dsimp only
            split
            · exact hland _ _ _ hd
            · exact ih _ (hland _ _ _ hd)

@[simp] theorem Dev.landPacket_wf (d : Dev) (n : Nat) (q : Qp) (c : RespMsg) (last : Bool) (payload : List Byte) (h : d.mem.ram.wf = true) :
    (d.landPacket n q c last payload).dev.mem.ram.wf = true := by
  unfold Dev.landPacket
  split
  · dsimp only
    split
    · exact h
    · exact openSegs_wf _ _ _ _ _ _ _ (fun e o b he => Dev.landCur_wf _ _ _ _ _ he) _ _ h
  · exact Dev.landCur_wf _ _ _ _ _ h

theorem Dev.taken_wf {d e : Dev} {n first src : Nat} {need : Bool} {idx : Option Nat} (h : d.mem.ram.wf = true)
    (hg : (if need then (d.recvTake n first src).map (fun p => (p.1, some p.2)) else some (d, none)) = some (e, idx)) : e.mem.ram.wf = true := by
  split at hg
  · obtain ⟨p, hp, he⟩ := Option.map_eq_some_iff.1 hg
    simp only [Prod.mk.injEq] at he
    rw [← he.1, Dev.recvTake_ram hp, h]
  · simp only [Option.some.injEq, Prod.mk.injEq] at hg
    rw [← hg.1, h]

@[simp] theorem Dev.serveReq_wf (d : Dev) (n : Nat) (x : RxPkt) (h : d.mem.ram.wf = true) : (d.serveReq n x).mem.ram.wf = true := by
  unfold Dev.serveReq
  split
  · exact h
  · extract_lets r fits need got
    have hg : ∀ e idx, got = some (e, idx) → e.mem.ram.wf = true := fun _ _ hg => Dev.taken_wf h hg
    clear_value got
    split
    · simp -implicitDefEqProofs [h]
    · split
      · simp -implicitDefEqProofs [h]
      next _ e idx =>
        have he : e.mem.ram.wf = true := hg _ _ rfl
        split
        · exact he
        · extract_lets fresh c recv payload o short d1 d2
          have ho : o.dev.mem.ram.wf = true := Dev.landPacket_wf _ _ _ _ _ _ he
          clear_value o
          split
          · split <;> simp -implicitDefEqProofs [ho]
          · split
            · simp -implicitDefEqProofs [ho]
            · simp -implicitDefEqProofs [d2, d1, ho]

theorem Dev.numbered_wf {d e : Dev} {n num first : Nat} {need : Bool} {idx : Option Nat} (h : d.mem.ram.wf = true)
    (hg : (if need then (d.recvNumber n num first 2049).map (fun p => (p.1, some p.2)) else some (d, none)) = some (e, idx)) :
    e.mem.ram.wf = true := by
  split at hg
  · obtain ⟨p, hp, he⟩ := Option.map_eq_some_iff.1 hg
    simp only [Prod.mk.injEq] at he
    rw [← he.1, Dev.recvNumber_ram hp, h]
  · simp only [Option.some.injEq, Prod.mk.injEq] at hg
    rw [← hg.1, h]

@[simp] theorem Dev.placeUnord_wf (d : Dev) (n : Nat) (x : RxPkt) (h : d.mem.ram.wf = true) : (d.placeUnord n x).mem.ram.wf = true := by
  unfold Dev.placeUnord
  split
  · exact h
  · extract_lets r trigger need got
    have hg : ∀ e idx, got = some (e, idx) → e.mem.ram.wf = true := fun _ _ hg => Dev.numbered_wf h hg
    clear_value got
    split
    · simp -implicitDefEqProofs [h]
    · split
      · simp -implicitDefEqProofs [h]
      next _ e idx =>
        have he : e.mem.ram.wf = true := hg _ _ rfl
        split
        · exact he
        · extract_lets payload off use land key bytes before
          have hl : land.1.mem.ram.wf = true := by
            unfold land
            clear_value use
            split
            · exact Dev.landWrite_wf _ _ _ _ _ _ he
            · split
              · exact Dev.landRecv_wf _ _ _ _ _ he
              · exact he
          clear_value land
          split
          · simp -implicitDefEqProofs [fst_wf_of_eq rfl hl]
          next e1 =>
            have h1 : e1.mem.ram.wf = true := hl
            extract_lets d1 d2 moved
            have h2 : d2.mem.ram.wf = true := by
              unfold d2
              split
              · split <;> simp -implicitDefEqProofs [d1, h1]
              · simp -implicitDefEqProofs [d1, h1]
            clear_value d2
            split <;> simp -implicitDefEqProofs [h2]

@[simp] theorem Dev.serveAhead_wf (d : Dev) (n fuel : Nat) (h : d.mem.ram.wf = true) : (d.serveAhead n fuel).mem.ram.wf = true := by
  induction fuel generalizing d with
  | zero => exact h
  | succ k ih =>
    unfold Dev.serveAhead
    split
    · exact h
    · split
      · exact ih _ (Dev.serveReq_wf _ _ _ (by simp -implicitDefEqProofs [h]))
      · exact h

@[simp] theorem Dev.serveMode_wf (d : Dev) (n : Nat) (q : Qp) (x : RxPkt) (h : d.mem.ram.wf = true) : (d.serveMode n q x).mem.ram.wf = true := by
  simp -implicitDefEqProofs [Dev.serveMode, h]

@[simp] theorem Dev.writeContexts_wf (d : Dev) (ns : List Nat) (h : d.mem.ram.wf = true) : (d.writeContexts ns).mem.ram.wf = true := by
  unfold Dev.writeContexts
  exact Dev.foldl_wf (fun e n he => Dev.rawStoreN_wf _ _ _ he) _ h

@[simp] theorem Dev.serveAtomic_wf (d : Dev) (n : Nat) (q : Qp) (r : ReqPkt) (x : RxPkt) (routed : Bool) (rd : HostRead)
    (h : d.mem.ram.wf = true) :
    (d.serveAtomic n q r x routed rd).mem.ram.wf = true := by
  simp only [Dev.serveAtomic]
  repeat' split
  all_goals simp -implicitDefEqProofs [Dev.memWrite_wf, h]

@[simp] theorem rxAtomic_wf (n : Nat) (routed : Bool) (rd : HostRead) (d : Dev) (q : Qp) (x : RxPkt) (h : d.mem.ram.wf = true) :
    (rxAtomic n routed rd d q x).mem.ram.wf = true := by
  simp only [rxAtomic]
  repeat' split
  all_goals simp -implicitDefEqProofs [h]

@[simp] theorem rxAtomicAck_wf (n : Nat) (d : Dev) (q : Qp) (x : RxPkt) (h : d.mem.ram.wf = true) : (rxAtomicAck n d q x).mem.ram.wf = true := by
  unfold rxAtomicAck
  split
  · exact h
  · split <;> rename_i hw <;> simp -implicitDefEqProofs [fst_wf_of_eq hw (Dev.keyWrite_wf _ _ _ _ _ _ h)]

@[simp] theorem Dev.landUd_wf (d : Dev) (q : Qp) (desc : BitVec 512) (l : List (Nat × List Byte)) (h : d.mem.ram.wf = true) :
    (d.landUd q desc l).1.mem.ram.wf = true := by
  induction l generalizing d with
  | nil => exact h
  | cons p r ih =>
    obtain ⟨o, bs⟩ := p
    have hw := Dev.keyWrite_wf d q.localWrite (dFld desc 0x18 4) (dFld desc 0x10 8 + o) bs false h
    unfold Dev.landUd
    split <;> rename_i he
    · exact fst_wf_of_eq he hw
    · exact ih _ (fst_wf_of_eq he hw)

@[simp] theorem Dev.endContexts_wf (d : Dev) (f : Nat) (st : Status) (h : d.mem.ram.wf = true) : (d.endContexts f st).mem.ram.wf = true := by
  simp -implicitDefEqProofs [Dev.endContexts, h]

@[simp] theorem Dev.drainPoint_wf (d : Dev) (f : Nat) (h : d.mem.ram.wf = true) : (d.drainPoint f).mem.ram.wf = true := by
  simp -implicitDefEqProofs [Dev.drainPoint, h]

@[simp] theorem Dev.startDrain_wf (d : Dev) (f : Nat) (flr : Bool) (h : d.mem.ram.wf = true) : (d.startDrain f flr).mem.ram.wf = true := by
  simp -implicitDefEqProofs [Dev.startDrain, h]

@[simp] theorem Dev.unregister_wf (d : Dev) (i : Nat) (h : d.mem.ram.wf = true) : (d.unregister i).mem.ram.wf = true := by
  simp only [Dev.unregister]
  repeat' split
  all_goals simp -implicitDefEqProofs [h]

@[simp] theorem Dev.clearCluster_wf (d : Dev) (c : Nat) (h : d.mem.ram.wf = true) : (d.clearCluster c).mem.ram.wf = true := by
  simp -implicitDefEqProofs [Dev.clearCluster, Dev.clearRam_wf, h]

@[simp] theorem Dev.dmaWriteIn_wf (d : Dev) (t n : Nat) (bs : List Byte) (l : List Nat) (h : d.mem.ram.wf = true) :
    (d.dmaWriteIn t n bs l).1.mem.ram.wf = true := by
  induction l generalizing d bs with
  | nil => exact h
  | cons a r ih =>
    unfold Dev.dmaWriteIn
    split
    · exact h
    · dsimp only
      split
      · exact Dev.memWrite_wf _ _ _ h
      · exact ih _ _ (Dev.memWrite_wf _ _ _ h)

@[simp] theorem Dev.dmaUnit_wf (d : Dev) (t part : Nat) (x : BitVec 512) (rd : HostRead) (off : Nat) (u : DmaUnit) (h : d.mem.ram.wf = true) :
    (d.dmaUnit t part x rd off u).1.mem.ram.wf = true := by
  unfold Dev.dmaUnit
  split
  · exact h
  next he =>
    have hr := fst_wf_of_eq he (by simpa using h)
    split
    · exact h
    · dsimp only
      split
      · exact Dev.writeUnits_wf _ _ _ _ _ _ _ hr
      · exact Dev.dmaWriteIn_wf _ _ _ _ _ hr

@[simp] theorem Dev.dmaMove_wf (d : Dev) (t part : Nat) (x : BitVec 512) (rd : HostRead) (off : Nat) (l : List DmaUnit)
    (h : d.mem.ram.wf = true) :
    (d.dmaMove t part x rd off l).1.mem.ram.wf = true := by
  induction l generalizing d off with
  | nil => exact h
  | cons u r ih =>
    have hu := Dev.dmaUnit_wf d t part x rd off u h
    unfold Dev.dmaMove
    split <;> rename_i he
    · exact ih _ _ (fst_wf_of_eq he hu)
    · exact fst_wf_of_eq he hu

@[simp] theorem Dev.bringHome_wf (d : Dev) (i : Nat) (h : d.mem.ram.wf = true) : (d.bringHome i).mem.ram.wf = true := by
  have hc : ∀ (src dst : Nat) (l : List Nat),
      (l.foldl (fun d k => if d.subBad (src + 4096 * k) = true then d else d.copySub (src + 4096 * k) (dst + 4096 * k)) d).mem.ram.wf = true :=
    fun src dst l => Dev.foldl_wf (fun e k he => by
      split
      · exact he
      · exact Dev.copySub_wf _ _ _ he) l h
  unfold Dev.bringHome
  dsimp only
  split
  · exact h
  · split
    · simpa using h
    · split
      · simpa using hc _ _ _
      · simpa using hc _ _ _

@[simp] theorem Dev.startTiles_wf (d : Dev) (ts : List Nat) (h : d.mem.ram.wf = true) : (d.startTiles ts).mem.ram.wf = true := by
  unfold Dev.startTiles
  refine Dev.foldl_wf (fun e x he => ?_) _ h
  simp -implicitDefEqProofs [he]

@[simp] theorem Dev.clearScratch_wf (d : Dev) (p : Nat) (h : d.mem.ram.wf = true) : (d.clearScratch p).mem.ram.wf = true := by
  unfold Dev.clearScratch
  exact Dev.foldl_wf (fun e n he => Dev.clearRam_wf _ _ _ he) _ h

@[simp] theorem Dev.sanitizeRun_wf (d : Dev) (_h : d.mem.ram.wf = true) : (d.sanitizeRun).mem.ram.wf = true := by
  have h0 : Mem.wf ⟨[]⟩ = true := Mem.empty_wf
  simp -implicitDefEqProofs [Dev.sanitizeRun, h0]

@[simp] theorem Dev.sanitizeAfter_wf (d : Dev) (h : d.mem.ram.wf = true) : (d.sanitizeAfter).mem.ram.wf = true := by
  simp -implicitDefEqProofs [Dev.sanitizeAfter, h]

@[simp] theorem Dev.applyWhole_wf (d : Dev) (h : d.mem.ram.wf = true) : (d.applyWhole).mem.ram.wf = true := by
  unfold Dev.applyWhole
  extract_lets topo d1 d2 d3 d4 place d5 d6 d7 d8 d9
  have h1 : d1.mem.ram.wf = true := by
    unfold d1
    split <;> simp -implicitDefEqProofs [h]
  have h4 : d4.mem.ram.wf = true := by
    unfold d4
    exact Dev.foldl_wf (fun e f he => by simp -implicitDefEqProofs [he]) _ (by simp -implicitDefEqProofs [d3, d2, h1])
  have h7 : d7.mem.ram.wf = true := by
    unfold d7
    exact Dev.foldl_wf (fun e f he => by simp -implicitDefEqProofs [he]) _ (by simp -implicitDefEqProofs [d6, d5, h4])
  have h8 : d8.mem.ram.wf = true := by
    unfold d8
    exact Dev.foldl_wf (fun e f he => by simp -implicitDefEqProofs [he]) _ h7
  have h9 : d9.mem.ram.wf = true := by
    unfold d9
    exact Dev.foldl_wf (fun e f he => by simp -implicitDefEqProofs [he]) _ h8
  exact Dev.foldl_wf (fun e f he => by simp -implicitDefEqProofs [he]) _ h9

@[simp] theorem Dev.commitWhole_wf (d : Dev) (b : Blob) (h : d.mem.ram.wf = true) : (d.commitWhole b).mem.ram.wf = true := by
  simp only [Dev.commitWhole]
  repeat' split
  all_goals simp -implicitDefEqProofs [h]

@[simp] theorem Dev.stopPart_wf (d : Dev) (p : Nat) (h : d.mem.ram.wf = true) : (d.stopPart p).mem.ram.wf = true := by
  unfold Dev.stopPart
  refine Dev.foldl_wf (fun e m he => ?_) _ ?_
  · split
    · exact Dev.abandonMove_wf _ _ _ he
    · simpa using he
  · rw [Dev.upTl_mem]
    exact Dev.foldl_wf (fun e t he => by simpa using he) _ h

@[simp] theorem Dev.finishScoped_wf (d : Dev) (b : Blob) (p : Nat) (h : d.mem.ram.wf = true) : (d.finishScoped b p).mem.ram.wf = true := by
  unfold Dev.finishScoped
  extract_lets has c going d1 d2 off d3 d4 d5 d6 d7 d8 d9
  split
  · simp -implicitDefEqProofs [h]
  · have h1 : d1.mem.ram.wf = true := by
      unfold d1
      exact Dev.foldl_wf (fun e x he => by simp -implicitDefEqProofs [he]) _ h
    have h5 : d5.mem.ram.wf = true := by simp -implicitDefEqProofs [d5, d4, d3, d2, h1]
    have h6 : d6.mem.ram.wf = true := by
      unfold d6
      exact Dev.foldl_wf (fun e x he => by simp -implicitDefEqProofs [he]) _ h5
    have h7 : d7.mem.ram.wf = true := by
      unfold d7
      exact Dev.foldl_wf (fun e x he => by simp -implicitDefEqProofs [he]) _ h6
    simp -implicitDefEqProofs [d9, d8, h7]

@[simp] theorem Dev.endBehind_wf (d : Dev) (k : Nat) (h : d.mem.ram.wf = true) : (d.endBehind k).1.mem.ram.wf = true := by
  simp -implicitDefEqProofs [Dev.endBehind, h]

@[simp] theorem Dev.linkLoss_wf (d : Dev) (k : Nat) (h : d.mem.ram.wf = true) : (d.linkLoss k).mem.ram.wf = true := by
  simp -implicitDefEqProofs [Dev.linkLoss, h]

@[simp] theorem Dev.endReader_wf (d : Dev) (user : ReadUser) (rd : HostRead) (st : Status) (h : d.mem.ram.wf = true) :
    (d.endReader user rd st).mem.ram.wf = true := by
  unfold Dev.endReader
  dsimp only
  repeat' split
  all_goals simp -implicitDefEqProofs [h]

@[simp] theorem Dev.fenceClusterBody_wf (d : Dev) (c : Nat) (h : d.mem.ram.wf = true) : (d.fenceClusterBody c).mem.ram.wf = true := by
  unfold Dev.fenceClusterBody
  extract_lets ms d1 es d2 d3
  have h1 : d1.mem.ram.wf = true := Dev.foldl_wf (fun e m he => Dev.abandonMove_wf _ _ _ he) _ h
  have h2 : d2.mem.ram.wf = true := Dev.foldl_wf (fun e i he => Dev.bringHome_wf _ _ he) _ h1
  have h3 : d3.mem.ram.wf = true := by
    unfold d3
    rw [Dev.forb_ram, h2]
  clear_value d3
  refine Dev.foldl_wf (fun e i he => ?_) _ h3
  dsimp only
  repeat' split
  all_goals simpa using he

@[simp] theorem Dev.fenceDieBody_wf (d : Dev) (die : Nat) (h : d.mem.ram.wf = true) : (d.fenceDieBody die).mem.ram.wf = true := by
  unfold Dev.fenceDieBody
  extract_lets d1 d2 xs d3 d4 d5 d6
  have h1 : d1.mem.ram.wf = true := by
    unfold d1
    rw [Dev.forb_ram, h]
  have h2 : d2.mem.ram.wf = true := by
    unfold d2
    exact Dev.foldl_wf (fun e i he => by simp [he]) _ h1
  have h4 : d4.mem.ram.wf = true := by
    unfold d4 d3
    rw [Dev.smvDieEnd_ram]
    exact Dev.foldl_wf (fun e k he => by simp [he]) _ h2
  have h5 : d5.mem.ram.wf = true := by
    unfold d5
    exact Dev.foldl_wf (fun e i he => by simp [he]) _ h4
  clear_value d5
  simpa [d6] using h5

@[simp] theorem Dev.fenceUnit_wf (d : Dev) (kind index : Nat) (h : d.mem.ram.wf = true) : (d.fenceUnit kind index).mem.ram.wf = true := by
  unfold Dev.fenceUnit
  repeat' split
  all_goals simp -implicitDefEqProofs [h]

@[simp] theorem Dev.controlLost_wf (d : Dev) (block machine inst : Nat) (h : d.mem.ram.wf = true) :
    (d.controlLost block machine inst).mem.ram.wf = true := by
  simp only [Dev.controlLost]
  repeat' split
  all_goals simp -implicitDefEqProofs [h]

@[simp] theorem Dev.countLine_wf (d : Dev) (a : Nat) (h : d.mem.ram.wf = true) : (d.countLine a).mem.ram.wf = true := by
  unfold Dev.countLine
  repeat' split
  all_goals simp -implicitDefEqProofs [h]

@[simp] theorem Dev.laneLost_wf (d : Dev) (x : ErrSite) (k : Nat) (h : d.mem.ram.wf = true) : (d.laneLost x k).mem.ram.wf = true := by
  simp -implicitDefEqProofs [Dev.laneLost, h]

@[simp] theorem Dev.lastingAt_wf (d : Dev) (x : ErrSite) (h : d.mem.ram.wf = true) : (d.lastingAt x).mem.ram.wf = true := by
  simp only [Dev.lastingAt]
  repeat' split
  all_goals simp -implicitDefEqProofs [h]

@[simp] theorem Dev.takeFence_wf (d : Dev) (mask : W64) (h : d.mem.ram.wf = true) : (d.takeFence mask).mem.ram.wf = true := by
  have hs : ((d.regSet Reg.ONF_FENCE mask).smv.colls.keys.foldl (fun d g => d.smvFence g) (d.regSet Reg.ONF_FENCE mask)).mem.ram.wf = true :=
    Dev.foldl_wf (fun _ _ he => Dev.smvFence_wf _ _ he) _ h
  unfold Dev.takeFence
  dsimp only
  split
  · exact Dev.failed_wf _ _ _ hs
  · exact hs

@[simp] theorem Dev.fenceWrite_wf (d : Dev) (w : W64) (h : d.mem.ram.wf = true) : (d.fenceWrite w).mem.ram.wf = true := by
  unfold Dev.fenceWrite
  split
  · exact Dev.announce_keeps (fun m => m.wf = true) _ _ _ (fun _ he => Dev.takeFence_wf _ _ he) h
  · exact h

@[simp] theorem Dev.elemFailed_wf (d : Dev) (g : Nat) (f : BistFail) (h : d.mem.ram.wf = true) : (d.elemFailed g f).mem.ram.wf = true := by
  unfold Dev.elemFailed
  repeat' split
  all_goals simp -implicitDefEqProofs [h]

@[simp] theorem Dev.svcLasting_wf (d : Dev) (t : SvcTest) (reason bad : Nat) (h : d.mem.ram.wf = true) :
    (d.svcLasting t reason bad).mem.ram.wf = true := by
  unfold Dev.svcLasting
  repeat' split
  all_goals simp -implicitDefEqProofs [h]

@[simp] theorem Dev.disableVfs_wf (d : Dev) (h : d.mem.ram.wf = true) : (d.disableVfs).mem.ram.wf = true := by
  unfold Dev.disableVfs
  refine Dev.foldl_wf (fun e x he => ?_) _ h
  simp -implicitDefEqProofs [he]

@[simp] theorem Dev.coldReset_wf (d : Dev) (cause : Option ResetCause) (_h : d.mem.ram.wf = true) : (d.coldReset cause).mem.ram.wf = true := by
  unfold Dev.coldReset
  dsimp only
  split <;> exact State.reset_ram_wf

@[simp] theorem Dev.startUp_wf (d : Dev) (h : d.mem.ram.wf = true) : (d.startUp).mem.ram.wf = true := by
  simp -implicitDefEqProofs [Dev.startUp, Dev.clearSram_wf, h]

@[simp] theorem Dev.warmReset_wf (d : Dev) (cause : ResetCause) (h : d.mem.ram.wf = true) : (d.warmReset cause).mem.ram.wf = true := by
  simp -implicitDefEqProofs [Dev.warmReset, Dev.clearSram_wf, h]

@[simp] theorem Dev.written_wf (d : Dev) (off : Nat) (v : W64) (h : d.mem.ram.wf = true) : (d.written off v).mem.ram.wf = true := by
  unfold Dev.written
  repeat' split
  all_goals simp -implicitDefEqProofs [h]

@[simp] theorem Dev.applyReg_wf (d : Dev) (off : Nat) (r : RegDef) (v : W64) (h : d.mem.ram.wf = true) :
    (d.applyReg off r v).mem.ram.wf = true := by
  simp -implicitDefEqProofs [Dev.applyReg, h]

@[simp] theorem Dev.write32_wf (d : Dev) (off : Nat) (v : W32) (h : d.mem.ram.wf = true) : (d.write32 off v).mem.ram.wf = true := by
  unfold Dev.write32
  repeat' split
  all_goals simp -implicitDefEqProofs [h]

@[simp] theorem Dev.bar0Write32_wf (d : Dev) (f off : Nat) (v : W32) (h : d.mem.ram.wf = true) : (d.bar0Write32 f off v).mem.ram.wf = true := by
  simp -implicitDefEqProofs [Dev.bar0Write32, h]

@[simp] theorem Dev.bar0Write_wf (d : Dev) (f off size : Nat) (v : W64) (h : d.mem.ram.wf = true) :
    (d.bar0Write f off size v).mem.ram.wf = true := by
  unfold Dev.bar0Write
  repeat' split
  all_goals simp -implicitDefEqProofs [h]

end Sys2Proof.Machine
end

section
/-! PROOFS. The forms of a command. What a tile's instruction, a block's command, a pod message and a received packet
need in order to keep memory in its canonical form. -/
namespace Sys2Proof.Machine
open Sys2Proof

/-- What an instruction of a tile comes to leaves memory in its canonical form. -/
def TRes.RamWf : TRes → Prop
  | .done d | .seq d _ | .jump d _ | .late d _ _ | .stay d | .wait d _ => d.mem.ram.wf = true
  | .trap _ _ => True

@[simp] theorem TRes.done_ramWf (d : Dev) : (TRes.done d).RamWf ↔ d.mem.ram.wf = true := Iff.rfl
@[simp] theorem TRes.seq_ramWf (d : Dev) (n : Nat) : (TRes.seq d n).RamWf ↔ d.mem.ram.wf = true := Iff.rfl
@[simp] theorem TRes.jump_ramWf (d : Dev) (n : Int) : (TRes.jump d n).RamWf ↔ d.mem.ram.wf = true := Iff.rfl
@[simp] theorem TRes.late_ramWf (d : Dev) (c : Cause) (a : Nat) : (TRes.late d c a).RamWf ↔ d.mem.ram.wf = true := Iff.rfl
@[simp] theorem TRes.stay_ramWf (d : Dev) : (TRes.stay d).RamWf ↔ d.mem.ram.wf = true := Iff.rfl
@[simp] theorem TRes.wait_ramWf (d : Dev) (w : WaitKind) : (TRes.wait d w).RamWf ↔ d.mem.ram.wf = true := Iff.rfl
@[simp] theorem TRes.trap_ramWf (c : Cause) (a : Nat) : (TRes.trap c a).RamWf := trivial
@[simp] theorem TRes.ite_ramWf (c : Prop) [Decidable c] (a b : TRes) :
    (if c then a else b).RamWf ↔ if c then a.RamWf else b.RamWf := by split <;> rfl

@[simp] theorem doneTile_ramWf (d : Dev) (t : Nat) (f : Tile → Tile) : (doneTile d t f).RamWf ↔ d.mem.ram.wf = true := Iff.rfl

/-- Finishing an instruction stores nothing. -/
theorem Dev.finish_wf {d : Dev} {r : TRes} (t : Nat) (h : d.mem.ram.wf = true) (hr : r.RamWf) : (d.finish t r).mem.ram.wf = true := by
  cases r <;> simp_all [Dev.finish]

/-- An instruction that issues keeps memory's form when its body does. -/
theorem Dev.issue_wf {d : Dev} {t : Nat} {h : Head} {k : IssueKind} {body : Dev → TRes} (hd : d.mem.ram.wf = true)
    (hb : ∀ e : Dev, e.mem.ram.wf = true → (body e).RamWf) : (d.issue t h k body).mem.ram.wf = true := by
  have he : d.bump.mem.ram.wf = true := hd
  have hf := Dev.finish_wf t he (hb d.bump he)
  simp [Dev.issue, hd, hf]

theorem Dev.tileLoad_ramWf {d : Dev} {t : Nat} {cm : Bool} {a n align : Nat} {k : Dev → List Byte → TRes} (hd : d.mem.ram.wf = true)
    (hk : ∀ (e : Dev) (bs : List Byte), e.mem.ram.wf = true → (k e bs).RamWf) : (d.tileLoad t cm a n align k).RamWf := by
  unfold Dev.tileLoad
  split
  · trivial
  · split
    · trivial
    · exact hd
    · exact hk _ _ (by simpa using hd)

theorem Dev.tileStore_ramWf {d : Dev} {t : Nat} {cm : Bool} {a align : Nat} {bs : List Byte} {k : Dev → TRes} (hd : d.mem.ram.wf = true)
    (hk : ∀ e : Dev, e.mem.ram.wf = true → (k e).RamWf) : (d.tileStore t cm a align bs k).RamWf := by
  unfold Dev.tileStore
  split
  · trivial
  · split
    · trivial
    · exact hd
    · split
      · exact Dev.memWrite_wf _ _ _ hd
      · exact hk _ (Dev.memWrite_wf _ _ _ hd)

theorem Dev.tileOld_ramWf {d : Dev} {t : Nat} {m : W32} {a n align : Nat} {k : List Byte → TRes} (hd : d.mem.ram.wf = true)
    (hk : ∀ bs : List Byte, (k bs).RamWf) : (d.tileOld t m a n align k).RamWf := by
  unfold Dev.tileOld
  split
  · exact hk _
  · exact Dev.tileLoad_ramWf hd fun _ bs _ => hk bs

theorem withAcc_ramWf {d : Dev} {t : Nat} {f : FmtR} {k : Nat → TRes} (hd : d.mem.ram.wf = true) (hk : ∀ n, (k n).RamWf) :
    (withAcc d t f k).RamWf := by
  simp [withAcc, hd, hk]

/-- A command that answers a next state leaves memory in its canonical form when it finds it so. -/
def KeepsWf (s : State) (o : Host.Outcome State Fault Refusal) : Prop :=
  s.dev.mem.ram.wf = true → ∀ t, o = .next t → t.dev.mem.ram.wf = true

theorem keepsWf_onDev {s : State} {f : Dev → Dev} (hf : ∀ d : Dev, d.mem.ram.wf = true → (f d).mem.ram.wf = true) : KeepsWf s (onDev s f) := by
  intro h t ht
  cases ht
  exact hf _ h

theorem keepsWf_issue {s : State} {t : Nat} {h : Head} {k : IssueKind} {body : Dev → TRes}
    (hb : ∀ e : Dev, e.mem.ram.wf = true → (body e).RamWf) : KeepsWf s (onDev s fun d => d.issue t h k body) :=
  keepsWf_onDev fun _ hd => Dev.issue_wf hd hb

theorem Dev.command_wf {d : Dev} {busy err : RegField} {f : Dev → Dev} (hd : d.mem.ram.wf = true)
    (hf : ∀ e : Dev, e.mem.ram.wf = true → (f e).mem.ram.wf = true) : (d.command busy err f).mem.ram.wf = true := by
  simp [Dev.command, hd, hf]

theorem keepsWf_command {s : State} {busy err : RegField} {f : Dev → Dev} (hf : ∀ e : Dev, e.mem.ram.wf = true → (f e).mem.ram.wf = true) :
    KeepsWf s (onDev s fun d => d.command busy err f) :=
  keepsWf_onDev fun _ hd => Dev.command_wf hd hf

theorem keepsWf_onCad {s : State} {f : Dev → Dev} (hf : ∀ d : Dev, d.mem.ram.wf = true → (f d).mem.ram.wf = true) : KeepsWf s (onCad s f) :=
  keepsWf_command hf

theorem keepsWf_memCmd {s : State} {f : Dev → Dev} (hf : ∀ d : Dev, d.mem.ram.wf = true → (f d).mem.ram.wf = true) : KeepsWf s (memCmd s f) :=
  keepsWf_command hf

theorem keepsWf_dtuCmd {s : State} {f : Dev → Dev} (hf : ∀ d : Dev, d.mem.ram.wf = true → (f d).mem.ram.wf = true) : KeepsWf s (dtuCmd s f) :=
  keepsWf_command hf

theorem keepsWf_wqsCmd {s : State} {f : Dev → Dev} (hf : ∀ d : Dev, d.mem.ram.wf = true → (f d).mem.ram.wf = true) : KeepsWf s (wqsCmd s f) :=
  keepsWf_command hf

theorem keepsWf_qpeCmd {s : State} {f : Dev → Dev} (hf : ∀ d : Dev, d.mem.ram.wf = true → (f d).mem.ram.wf = true) : KeepsWf s (qpeCmd s f) :=
  keepsWf_command hf

theorem keepsWf_vfmCmd {s : State} {f : Dev → Dev} (hf : ∀ d : Dev, d.mem.ram.wf = true → (f d).mem.ram.wf = true) : KeepsWf s (vfmCmd s f) :=
  keepsWf_command hf

theorem keepsWf_svcCmd {s : State} {f : Dev → Dev} (hf : ∀ d : Dev, d.mem.ram.wf = true → (f d).mem.ram.wf = true) : KeepsWf s (svcCmd s f) :=
  keepsWf_command hf

theorem keepsWf_imgCmd {s : State} {ok : Nat → Bool} {f : Dev → Dev} (hf : ∀ d : Dev, d.mem.ram.wf = true → (f d).mem.ram.wf = true) :
    KeepsWf s (imgCmd s ok f) :=
  keepsWf_onDev fun d hd => by simp [hd, hf]

theorem keepsWf_onSec {s : State} {f : Dev → Dev} (hf : ∀ d : Dev, d.mem.ram.wf = true → (f d).mem.ram.wf = true) : KeepsWf s (onSec s f) :=
  keepsWf_onDev fun d hd => by simp [hd, hf]

theorem keepsWf_onSpdm {s : State} {mctp : Bool} {need : Nat} {f : Dev → Dev} (hf : ∀ d : Dev, d.mem.ram.wf = true → (f d).mem.ram.wf = true) :
    KeepsWf s (onSpdm mctp need s f) :=
  keepsWf_onDev fun d hd => by simp [hd, hf]

theorem keepsWf_onPwr {s : State} {f : Dev → Dev} (hf : ∀ d : Dev, d.mem.ram.wf = true → (f d).mem.ram.wf = true) : KeepsWf s (onPwr s f) :=
  keepsWf_onDev fun d hd => by simp [hd, hf]

theorem keepsWf_onMgt {s : State} {f : Dev → Dev} (hf : ∀ d : Dev, d.mem.ram.wf = true → (f d).mem.ram.wf = true) : KeepsWf s (onMgt s f) :=
  keepsWf_onDev fun d hd => by simp [hd, hf]

theorem keepsWf_bitmapCount (t : Fin 512) (h : Head) (f : FmtR) (s : State) : KeepsWf s (bitmapCount t h f s) :=
  keepsWf_issue fun d hd => by
    dsimp only
    split
    · trivial
    · exact Dev.tileLoad_ramWf hd fun e _ he => he

theorem keepsWf_scalarOp (o : IntOp) (t : Fin 512) (h : Head) (b : SrcB) (s : State) : KeepsWf s (scalarOp o t h b s) :=
  keepsWf_issue fun _ hd => hd

theorem keepsWf_vectorOp (t : Fin 512) (h : Head) (f : FmtR) (g : W32 → W32 → W32 → Flagged W32) (s : State) : KeepsWf s (vectorOp t h f g s) :=
  keepsWf_issue fun _ hd => hd

theorem keepsWf_atomicOp (t : Fin 512) (h : Head) (f : FmtIM) (variant : Bool) (n : Nat) (g : Nat → W64 → Nat) (s : State) :
    KeepsWf s (atomicOp t h f variant n g s) :=
  keepsWf_issue fun d hd => by
    dsimp only
    split
    · trivial
    · split
      · trivial
      · exact hd
      · exact Dev.memWrite_wf _ _ _ hd

theorem Dev.ctlArrive_wf {d : Dev} {h : CtlHead} {m : CtlMsg} {act : Dev → Dev} (hd : d.mem.ram.wf = true)
    (ha : ∀ e : Dev, e.mem.ram.wf = true → (act e).mem.ram.wf = true) : (d.ctlArrive h m act).mem.ram.wf = true := by
  have hc := Dev.takeCell_ram d h.link.val h.hdr
  unfold Dev.ctlArrive
  dsimp only
  split <;> rename_i he <;> rw [he] at hc
  · rw [hc, hd]
  next e =>
    have hw : e.mem.ram.wf = true := by rw [hc, hd]
    split
    · simp [hw]
    · split
      · have hr := Dev.relay_ram e h.link.val (hdrSrc h.hdr) h.bseq.toNat m
        split <;> rename_i hx <;> rw [hx] at hr
        · exact ha _ (by rw [hr, hw])
        · rw [hr, hw]
      · split
        · split
          · exact ha _ (by simp [hw])
          · simp [hw]
        · exact ha _ hw

theorem Dev.ctlToLeader_wf {d : Dev} {h : CtlHead} {m : CtlMsg} {act : Dev → Dev} (hd : d.mem.ram.wf = true)
    (ha : ∀ e : Dev, e.mem.ram.wf = true → (act e).mem.ram.wf = true) : (d.ctlToLeader h m act).mem.ram.wf = true := by
  have hc := Dev.takeCell_ram d h.link.val h.hdr
  unfold Dev.ctlToLeader
  dsimp only
  split <;> rename_i he <;> rw [he] at hc
  · rw [hc, hd]
  next e =>
    have hw : e.mem.ram.wf = true := by rw [hc, hd]
    split
    · simp [hw]
    · split
      · exact ha _ hw
      · simp [hw]

theorem Dev.arriveCell_wf {d : Dev} {n : Nat} {c : OnfCell} {own : Dev → Dev} (hd : d.mem.ram.wf = true)
    (ho : ∀ e : Dev, e.mem.ram.wf = true → (own e).mem.ram.wf = true) : (d.arriveCell n c own).mem.ram.wf = true := by
  have hc := Dev.takeCell_ram d n c.hdr
  unfold Dev.arriveCell
  split <;> rename_i he <;> rw [he] at hc
  · rw [hc, hd]
  next e =>
    have hw : e.mem.ram.wf = true := by rw [hc, hd]
    split
    · simp [hw]
    · split
      · simp [hw]
      · exact ho _ hw

theorem Dev.smvControl_wf {d : Dev} {die src kind : Nat} {f : Dev → Coll → SmvCell → Dev} (hd : d.mem.ram.wf = true)
    (hf : ∀ (e : Dev) c x, e.mem.ram.wf = true → (f e c x).mem.ram.wf = true) : (d.smvControl die src kind f).mem.ram.wf = true := by
  unfold Dev.smvControl
  dsimp only
  split
  · exact hd
  · split
    · exact hd
    · split
      · exact hd
      · split
        · exact hf _ _ _ hd
        · simp [hd]

theorem Dev.withRx_wf {d : Dev} {n row : Nat} {responder : Bool} {ok : RxPkt → Bool} {act : Dev → Qp → RxPkt → Dev} (hd : d.mem.ram.wf = true)
    (ha : ∀ (e : Dev) q x, e.mem.ram.wf = true → (act e q x).mem.ram.wf = true) : (d.withRx n row responder ok act).mem.ram.wf = true := by
  unfold Dev.withRx
  split
  · exact hd
  · split
    · exact hd
    next x e hx =>
      have he : e.mem.ram.wf = true := by rw [Dev.takeRx_ram hx, hd]
      extract_lets e1
      have h1 : e1.mem.ram.wf = true := by simp [e1, he]
      clear_value e1
      split
      · simp [h1]
      · split
        · split
          · simp [h1]
          · split
            · exact ha _ _ _ (by simp [h1])
            · simp [h1]
        · split
          · exact ha _ _ _ (by simp [h1])
          · exact h1

end Sys2Proof.Machine
end

section
/-! PROOFS. Every command keeps memory in its canonical form, row by row. -/
namespace Sys2Proof.Machine
open Sys2Proof

@[simp] theorem execImport_keepsWf (slot : Fin 16384) (rd : HostRead) (s : State) : KeepsWf s (execImport slot rd s) :=
  keepsWf_onCad fun d hd => by simp -implicitDefEqProofs [hd]

@[simp] theorem execErase_keepsWf (slot : Fin 16384) (s : State) : KeepsWf s (execErase slot s) :=
  keepsWf_onCad fun d hd => by simp -implicitDefEqProofs [hd]

@[simp] theorem execKeyOverwrite_keepsWf (slot : Fin 16384) (s : State) : KeepsWf s (execKeyOverwrite slot s) :=
  keepsWf_onDev fun d hd => by
    dsimp only
    repeat' split
    all_goals simp -implicitDefEqProofs [hd]

@[simp] theorem execQuery_keepsWf (slot : Fin 16384) (s : State) : KeepsWf s (execQuery slot s) :=
  keepsWf_onCad fun d hd => by simp -implicitDefEqProofs [hd]

@[simp] theorem execXtsEncrypt_keepsWf (qid : BitVec 16) (s : State) : KeepsWf s (execXtsEncrypt qid s) :=
  keepsWf_onDev fun d hd => by simp -implicitDefEqProofs [hd]

@[simp] theorem execXtsDecrypt_keepsWf (qid : BitVec 16) (s : State) : KeepsWf s (execXtsDecrypt qid s) :=
  keepsWf_onDev fun d hd => by simp -implicitDefEqProofs [hd]

@[simp] theorem execUnitDone_keepsWf (stream : Fin 256) (rd : HostRead) (s : State) : KeepsWf s (execUnitDone stream rd s) :=
  keepsWf_onDev fun d hd => by
    dsimp only
    split
    · split
      · simp -implicitDefEqProofs [hd]
      · split <;> rename_i hr
        · simp -implicitDefEqProofs [fst_wf_of_eq hr (by simp -implicitDefEqProofs [hd])]
        · have he := fst_wf_of_eq hr (by simp -implicitDefEqProofs [hd])
          split <;> rename_i hw
          · have h2 := fst_wf_of_eq hw (Dev.keyWrite_wf _ _ _ _ _ _ (by split <;> simp -implicitDefEqProofs [he]))
            simp -implicitDefEqProofs [h2]
          · have h2 := fst_wf_of_eq hw (Dev.keyWrite_wf _ _ _ _ _ _ (by split <;> simp -implicitDefEqProofs [he]))
            repeat' split
            all_goals simp -implicitDefEqProofs [h2]
    · exact hd

@[simp] theorem execCollective_keepsWf (qid : BitVec 16) (s : State) : KeepsWf s (execCollective qid s) :=
  keepsWf_onDev fun d hd => by
    dsimp only
    split
    · exact hd
    · split
      · exact hd
      · split
        · exact hd
        · split
          · exact hd
          · split
            next ht => exact Dev.smvTake_wf _ _ _ _ (by rw [Dev.wqTurn_ram ht, hd])
            · exact hd

@[simp] theorem execGather_keepsWf (die : Fin 4) (src : Fin 64) (s : State) : KeepsWf s (execGather die src s) :=
  keepsWf_onDev fun d hd => by
    dsimp only
    repeat' split
    all_goals simp -implicitDefEqProofs [hd]

@[simp] theorem execVerdict_keepsWf (die : Fin 4) (src : Fin 64) (s : State) : KeepsWf s (execVerdict die src s) :=
  keepsWf_onDev fun d hd => Dev.smvControl_wf hd fun e _ _ he => by simp -implicitDefEqProofs [he]

@[simp] theorem execDataHdr_keepsWf (die : Fin 4) (src : Fin 64) (s : State) : KeepsWf s (execDataHdr die src s) :=
  keepsWf_onDev fun d hd => by
    dsimp only
    repeat' split
    all_goals simp -implicitDefEqProofs [hd]

@[simp] theorem execCommitReady_keepsWf (group : BitVec 8) (s : State) : KeepsWf s (execCommitReady group s) :=
  keepsWf_onDev fun d hd => by
    dsimp only
    repeat' split
    all_goals simp -implicitDefEqProofs [hd]

@[simp] theorem execCollectiveCommit_keepsWf (die : Fin 4) (src : Fin 64) (s : State) : KeepsWf s (execCollectiveCommit die src s) :=
  keepsWf_onDev fun d hd => Dev.smvControl_wf hd fun e _ _ he => by simp -implicitDefEqProofs [he]

@[simp] theorem execRelease_keepsWf (die : Fin 4) (src : Fin 64) (s : State) : KeepsWf s (execRelease die src s) :=
  keepsWf_onDev fun d hd => Dev.smvControl_wf hd fun e _ _ he => by simp -implicitDefEqProofs [he]

@[simp] theorem execSeqnumBase_keepsWf (h : CtlHead) (group : BitVec 8) (seq : W32) (origin : Fin 64) (s : State) :
    KeepsWf s (execSeqnumBase h group seq origin s) := keepsWf_onDev fun d hd => Dev.ctlArrive_wf hd fun e he => by simp -implicitDefEqProofs [he]

@[simp] theorem execSeqnumBaseAll_keepsWf (h : CtlHead) (seq : W32) (origin : Fin 64) (s : State) :
    KeepsWf s (execSeqnumBaseAll h seq origin s) := keepsWf_onDev fun d hd => Dev.ctlArrive_wf hd fun e he => by simp -implicitDefEqProofs [he]

@[simp] theorem execSeqBaseGo_keepsWf (w : W32) (s : State) : KeepsWf s (execSeqBaseGo w s) :=
  keepsWf_onDev fun d hd => by
    dsimp only
    split
    · exact hd
    · exact Dev.announce_keeps (fun m => m.wf = true) _ _ _ (fun e he => by simp -implicitDefEqProofs [he]) hd

@[simp] theorem execSeqnumAbort_keepsWf (h : CtlHead) (group : BitVec 8) (anchor : Fin 64) (status : BitVec 8) (seq : W32) (members : W64)
    (origin : Fin 64) (s : State) :
    KeepsWf s (execSeqnumAbort h group anchor status seq members origin s) :=
  keepsWf_onDev fun d hd => Dev.ctlArrive_wf hd fun e he => by simp -implicitDefEqProofs [he]

@[simp] theorem execGatherHoldTimeout_keepsWf (group : BitVec 8) (s : State) : KeepsWf s (execGatherHoldTimeout group s) :=
  keepsWf_onDev fun d hd => by
    dsimp only
    repeat' split
    all_goals simp -implicitDefEqProofs [hd]

@[simp] theorem execMemberWaitTimeout_keepsWf (group : BitVec 8) (s : State) : KeepsWf s (execMemberWaitTimeout group s) :=
  keepsWf_onDev fun d hd => by
    repeat' split
    all_goals simp -implicitDefEqProofs [hd]

@[simp] theorem execLagClear_keepsWf (w : W32) (s : State) : KeepsWf s (execLagClear w s) :=
  keepsWf_onDev fun d hd => by simp -implicitDefEqProofs [hd]

@[simp] theorem execRegMr_keepsWf (index : BitVec 24) (s : State) : KeepsWf s (execRegMr index s) :=
  keepsWf_dtuCmd fun d hd => by
    dsimp only
    repeat' split
    all_goals simp -implicitDefEqProofs [hd]

@[simp] theorem execRevoke_keepsWf (index : BitVec 24) (s : State) : KeepsWf s (execRevoke index s) :=
  keepsWf_dtuCmd fun d hd => by simp -implicitDefEqProofs [hd]

@[simp] theorem execRevokeDone_keepsWf (index : BitVec 24) (s : State) : KeepsWf s (execRevokeDone index s) :=
  keepsWf_onDev fun d hd => by simp -implicitDefEqProofs [hd]

@[simp] theorem execQueryMr_keepsWf (index : BitVec 24) (s : State) : KeepsWf s (execQueryMr index s) :=
  keepsWf_dtuCmd fun d hd => by simp -implicitDefEqProofs [hd]

@[simp] theorem execSetRoot_keepsWf (target : BitVec 24) (s : State) : KeepsWf s (execSetRoot target s) :=
  keepsWf_dtuCmd fun d hd => by simp -implicitDefEqProofs [hd]

@[simp] theorem execClearRoot_keepsWf (target : BitVec 24) (s : State) : KeepsWf s (execClearRoot target s) :=
  keepsWf_dtuCmd fun d hd => by simp -implicitDefEqProofs [hd]

@[simp] theorem execUpdate_keepsWf (rd : HostRead) (s : State) : KeepsWf s (execUpdate rd s) :=
  keepsWf_dtuCmd fun d hd => by
    dsimp only
    repeat' split
    all_goals simp -implicitDefEqProofs [hd]

@[simp] theorem execSyncFence_keepsWf (target : BitVec 24) (s : State) : KeepsWf s (execSyncFence target s) :=
  keepsWf_dtuCmd fun d hd => by simp -implicitDefEqProofs [hd]

@[simp] theorem execSyncDone_keepsWf (s : State) : KeepsWf s (execSyncDone s) :=
  keepsWf_onDev fun d hd => by
    dsimp only
    repeat' split
    all_goals simp -implicitDefEqProofs [hd]

@[simp] theorem execDoorbell_keepsWf (fn : Fin 264) (off size : Nat) (val : W64) (s : State) : KeepsWf s (execDoorbell fn off size val s) :=
  keepsWf_onDev fun d hd => by
    dsimp only
    repeat' split
    all_goals simp -implicitDefEqProofs [hd]

@[simp] theorem execEqConsumerWord_keepsWf (fn : Fin 264) (val : W64) (s : State) : KeepsWf s (execEqConsumerWord fn val s) :=
  keepsWf_onDev fun d hd => by simp -implicitDefEqProofs [hd]

@[simp] theorem execPeerWrite_keepsWf (fn : Fin 264) (off : Nat) (bytes : List Byte) (poisoned : Bool) (s : State) :
    KeepsWf s (execPeerWrite fn off bytes poisoned s) :=
  keepsWf_onDev fun d hd => by
    dsimp only
    repeat' split
    all_goals simp -implicitDefEqProofs [Dev.memWrite_wf, hd]

@[simp] theorem execBar4Read_keepsWf (fn : Fin 264) (off : Nat) (s : State) : KeepsWf s (execBar4Read fn off s) :=
  keepsWf_onDev fun d hd => by simp -implicitDefEqProofs [hd]

@[simp] theorem execCxlMemAccess_keepsWf (line : Nat) (data : Option (BitVec 512)) (s : State) : KeepsWf s (execCxlMemAccess line data s) :=
  keepsWf_onDev fun d hd => by
    dsimp only
    repeat' split
    all_goals simp -implicitDefEqProofs [Dev.memWrite_wf, hd]

@[simp] theorem execCreateWq_keepsWf (qid : BitVec 16) (s : State) : KeepsWf s (execCreateWq qid s) :=
  keepsWf_wqsCmd fun d hd => by
    dsimp only
    repeat' split
    all_goals simp -implicitDefEqProofs [hd]

@[simp] theorem execDestroyWq_keepsWf (qid : BitVec 16) (s : State) : KeepsWf s (execDestroyWq qid s) :=
  keepsWf_wqsCmd fun d hd => by
    repeat' split
    all_goals simp -implicitDefEqProofs [hd]

@[simp] theorem execQueryWq_keepsWf (qid : BitVec 16) (s : State) : KeepsWf s (execQueryWq qid s) :=
  keepsWf_wqsCmd fun d hd => by simp -implicitDefEqProofs [hd]

@[simp] theorem execCreateEq_keepsWf (target : BitVec 16) (s : State) : KeepsWf s (execCreateEq target s) :=
  keepsWf_wqsCmd fun d hd => by simp -implicitDefEqProofs [hd]

@[simp] theorem execDestroyEq_keepsWf (target : BitVec 16) (s : State) : KeepsWf s (execDestroyEq target s) :=
  keepsWf_wqsCmd fun d hd => by simp -implicitDefEqProofs [hd]

@[simp] theorem execQueryEq_keepsWf (target : BitVec 16) (s : State) : KeepsWf s (execQueryEq target s) :=
  keepsWf_wqsCmd fun d hd => by simp -implicitDefEqProofs [hd]

@[simp] theorem execEntryFetch_keepsWf (qid : BitVec 16) (rd : HostRead) (s : State) : KeepsWf s (execEntryFetch qid rd s) :=
  keepsWf_onDev fun d hd => by simp -implicitDefEqProofs [hd]

@[simp] theorem execRefetch_keepsWf (qid : BitVec 16) (rd : HostRead) (s : State) : KeepsWf s (execRefetch qid rd s) :=
  keepsWf_onDev fun d hd => by simp -implicitDefEqProofs [hd]

@[simp] theorem execEntryCompletion_keepsWf (qid : BitVec 16) (s : State) : KeepsWf s (execEntryCompletion qid s) :=
  keepsWf_onDev fun d hd => by
    repeat' split
    all_goals simp -implicitDefEqProofs [hd]

@[simp] theorem execCompletionWordWrite_keepsWf (qid : BitVec 16) (s : State) : KeepsWf s (execCompletionWordWrite qid s) :=
  keepsWf_onDev fun d hd => by
    repeat' split
    all_goals simp -implicitDefEqProofs [hd]

@[simp] theorem execLinkRecovery_keepsWf (k : Fin 8) (s : State) : KeepsWf s (execLinkRecovery k s) :=
  keepsWf_onDev fun d hd => by simp -implicitDefEqProofs [hd]

@[simp] theorem execHostLinkUp_keepsWf (k gen : Fin 8) (width : BitVec 5) (flit cxl : Bool) (s : State) :
    KeepsWf s (execHostLinkUp k gen width flit cxl s) := keepsWf_onDev fun d hd => by simp -implicitDefEqProofs [hd]

@[simp] theorem execAdd_keepsWf (t : Fin 512) (h : Head) (b : SrcB) (s : State) : KeepsWf s (execAdd t h b s) := keepsWf_scalarOp _ _ _ _ _

@[simp] theorem execSub_keepsWf (t : Fin 512) (h : Head) (b : SrcB) (s : State) : KeepsWf s (execSub t h b s) := keepsWf_scalarOp _ _ _ _ _

@[simp] theorem execMul_keepsWf (t : Fin 512) (h : Head) (b : SrcB) (s : State) : KeepsWf s (execMul t h b s) := keepsWf_scalarOp _ _ _ _ _

@[simp] theorem execAnd_keepsWf (t : Fin 512) (h : Head) (b : SrcB) (s : State) : KeepsWf s (execAnd t h b s) := keepsWf_scalarOp _ _ _ _ _

@[simp] theorem execOr_keepsWf (t : Fin 512) (h : Head) (b : SrcB) (s : State) : KeepsWf s (execOr t h b s) := keepsWf_scalarOp _ _ _ _ _

@[simp] theorem execXor_keepsWf (t : Fin 512) (h : Head) (b : SrcB) (s : State) : KeepsWf s (execXor t h b s) := keepsWf_scalarOp _ _ _ _ _

@[simp] theorem execShl_keepsWf (t : Fin 512) (h : Head) (b : SrcB) (s : State) : KeepsWf s (execShl t h b s) := keepsWf_scalarOp _ _ _ _ _

@[simp] theorem execShr_keepsWf (t : Fin 512) (h : Head) (b : SrcB) (s : State) : KeepsWf s (execShr t h b s) := keepsWf_scalarOp _ _ _ _ _

@[simp] theorem execSra_keepsWf (t : Fin 512) (h : Head) (b : SrcB) (s : State) : KeepsWf s (execSra t h b s) := keepsWf_scalarOp _ _ _ _ _

@[simp] theorem execMin_keepsWf (t : Fin 512) (h : Head) (b : SrcB) (s : State) : KeepsWf s (execMin t h b s) := keepsWf_scalarOp _ _ _ _ _

@[simp] theorem execMax_keepsWf (t : Fin 512) (h : Head) (b : SrcB) (s : State) : KeepsWf s (execMax t h b s) := keepsWf_scalarOp _ _ _ _ _

@[simp] theorem execMinu_keepsWf (t : Fin 512) (h : Head) (b : SrcB) (s : State) : KeepsWf s (execMinu t h b s) := keepsWf_scalarOp _ _ _ _ _

@[simp] theorem execMaxu_keepsWf (t : Fin 512) (h : Head) (b : SrcB) (s : State) : KeepsWf s (execMaxu t h b s) := keepsWf_scalarOp _ _ _ _ _

@[simp] theorem execLi_keepsWf (t : Fin 512) (h : Head) (f : FmtI) (s : State) : KeepsWf s (execLi t h f s) :=
  keepsWf_issue fun d hd => by simp -implicitDefEqProofs [hd]

@[simp] theorem execLui_keepsWf (t : Fin 512) (h : Head) (f : FmtI) (s : State) : KeepsWf s (execLui t h f s) :=
  keepsWf_issue fun d hd => by simp -implicitDefEqProofs [hd]

@[simp] theorem execCmp_keepsWf (t : Fin 512) (h : Head) (b : SrcB) (s : State) : KeepsWf s (execCmp t h b s) :=
  keepsWf_issue fun d hd => by
    repeat' split
    all_goals simp -implicitDefEqProofs [hd]

@[simp] theorem execPlog_keepsWf (t : Fin 512) (h : Head) (f : FmtR) (s : State) : KeepsWf s (execPlog t h f s) :=
  keepsWf_issue fun d hd => by simp -implicitDefEqProofs [hd]

@[simp] theorem execLd_keepsWf (t : Fin 512) (h : Head) (f : FmtIM) (s : State) : KeepsWf s (execLd t h f s) :=
  keepsWf_issue fun _ hd => Dev.tileLoad_ramWf hd fun _ _ he => he

@[simp] theorem execSt_keepsWf (t : Fin 512) (h : Head) (f : FmtIM) (s : State) : KeepsWf s (execSt t h f s) :=
  keepsWf_issue fun _ hd => Dev.tileStore_ramWf hd fun _ he => he

@[simp] theorem execBr_keepsWf (t : Fin 512) (h : Head) (f : FmtI) (s : State) : KeepsWf s (execBr t h f s) :=
  keepsWf_issue fun d hd => by simp -implicitDefEqProofs [hd]

@[simp] theorem execCall_keepsWf (t : Fin 512) (h : Head) (f : FmtI) (s : State) : KeepsWf s (execCall t h f s) :=
  keepsWf_issue fun d hd => by simp -implicitDefEqProofs [hd]

@[simp] theorem execRet_keepsWf (t : Fin 512) (h : Head) (f : FmtR) (s : State) : KeepsWf s (execRet t h f s) :=
  keepsWf_issue fun d hd => by
    dsimp only
    repeat' split
    all_goals simp -implicitDefEqProofs [hd]

@[simp] theorem execLoop_keepsWf (t : Fin 512) (h : Head) (f : FmtI) (s : State) : KeepsWf s (execLoop t h f s) :=
  keepsWf_issue fun d hd => by simp -implicitDefEqProofs [hd]

@[simp] theorem execVadd_keepsWf (t : Fin 512) (h : Head) (f : FmtR) (s : State) : KeepsWf s (execVadd t h f s) := keepsWf_vectorOp _ _ _ _ _

@[simp] theorem execVsub_keepsWf (t : Fin 512) (h : Head) (f : FmtR) (s : State) : KeepsWf s (execVsub t h f s) := keepsWf_vectorOp _ _ _ _ _

@[simp] theorem execVmul_keepsWf (t : Fin 512) (h : Head) (f : FmtR) (s : State) : KeepsWf s (execVmul t h f s) := keepsWf_vectorOp _ _ _ _ _

@[simp] theorem execVfma_keepsWf (t : Fin 512) (h : Head) (f : FmtR) (s : State) : KeepsWf s (execVfma t h f s) := keepsWf_vectorOp _ _ _ _ _

@[simp] theorem execVdiv_keepsWf (t : Fin 512) (h : Head) (f : FmtR) (s : State) : KeepsWf s (execVdiv t h f s) := keepsWf_vectorOp _ _ _ _ _

@[simp] theorem execVrcp_keepsWf (t : Fin 512) (h : Head) (f : FmtR) (s : State) : KeepsWf s (execVrcp t h f s) := keepsWf_vectorOp _ _ _ _ _

@[simp] theorem execVsqrt_keepsWf (t : Fin 512) (h : Head) (f : FmtR) (s : State) : KeepsWf s (execVsqrt t h f s) := keepsWf_vectorOp _ _ _ _ _

@[simp] theorem execVrsq_keepsWf (t : Fin 512) (h : Head) (f : FmtR) (s : State) : KeepsWf s (execVrsq t h f s) := keepsWf_vectorOp _ _ _ _ _

@[simp] theorem execVexp2_keepsWf (t : Fin 512) (h : Head) (f : FmtR) (s : State) : KeepsWf s (execVexp2 t h f s) := keepsWf_vectorOp _ _ _ _ _

@[simp] theorem execVexp_keepsWf (t : Fin 512) (h : Head) (f : FmtR) (s : State) : KeepsWf s (execVexp t h f s) := keepsWf_vectorOp _ _ _ _ _

@[simp] theorem execVlog2_keepsWf (t : Fin 512) (h : Head) (f : FmtR) (s : State) : KeepsWf s (execVlog2 t h f s) := keepsWf_vectorOp _ _ _ _ _

@[simp] theorem execVlog_keepsWf (t : Fin 512) (h : Head) (f : FmtR) (s : State) : KeepsWf s (execVlog t h f s) := keepsWf_vectorOp _ _ _ _ _

@[simp] theorem execVtanh_keepsWf (t : Fin 512) (h : Head) (f : FmtR) (s : State) : KeepsWf s (execVtanh t h f s) := keepsWf_vectorOp _ _ _ _ _

@[simp] theorem execVsig_keepsWf (t : Fin 512) (h : Head) (f : FmtR) (s : State) : KeepsWf s (execVsig t h f s) := keepsWf_vectorOp _ _ _ _ _

@[simp] theorem execVsilu_keepsWf (t : Fin 512) (h : Head) (f : FmtR) (s : State) : KeepsWf s (execVsilu t h f s) := keepsWf_vectorOp _ _ _ _ _

@[simp] theorem execVmin_keepsWf (t : Fin 512) (h : Head) (f : FmtR) (s : State) : KeepsWf s (execVmin t h f s) := keepsWf_vectorOp _ _ _ _ _

@[simp] theorem execVmax_keepsWf (t : Fin 512) (h : Head) (f : FmtR) (s : State) : KeepsWf s (execVmax t h f s) := keepsWf_vectorOp _ _ _ _ _

@[simp] theorem execVabs_keepsWf (t : Fin 512) (h : Head) (f : FmtR) (s : State) : KeepsWf s (execVabs t h f s) := keepsWf_vectorOp _ _ _ _ _

@[simp] theorem execVneg_keepsWf (t : Fin 512) (h : Head) (f : FmtR) (s : State) : KeepsWf s (execVneg t h f s) := keepsWf_vectorOp _ _ _ _ _

@[simp] theorem execVcmp_keepsWf (t : Fin 512) (h : Head) (f : FmtR) (s : State) : KeepsWf s (execVcmp t h f s) :=
  keepsWf_issue fun d hd => by
    dsimp only
    repeat' split
    all_goals simp -implicitDefEqProofs [hd]

@[simp] theorem execVsel_keepsWf (t : Fin 512) (h : Head) (f : FmtR) (s : State) : KeepsWf s (execVsel t h f s) :=
  keepsWf_issue fun d hd => by simp -implicitDefEqProofs [hd]

@[simp] theorem execVcvt_keepsWf (t : Fin 512) (h : Head) (f : FmtR) (s : State) : KeepsWf s (execVcvt t h f s) :=
  keepsWf_issue fun d hd => by
    dsimp only
    repeat' split
    all_goals simp -implicitDefEqProofs [hd]

@[simp] theorem execViop_keepsWf (t : Fin 512) (h : Head) (f : FmtR) (s : State) : KeepsWf s (execViop t h f s) :=
  keepsWf_issue fun d hd => by
    repeat' split
    all_goals simp -implicitDefEqProofs [hd]

@[simp] theorem execVred_keepsWf (t : Fin 512) (h : Head) (f : FmtR) (s : State) : KeepsWf s (execVred t h f s) :=
  keepsWf_issue fun d hd => by simp -implicitDefEqProofs [hd]

@[simp] theorem execVqmx_keepsWf (t : Fin 512) (h : Head) (f : FmtR) (s : State) : KeepsWf s (execVqmx t h f s) :=
  keepsWf_issue fun d hd => by
    dsimp only
    repeat' split
    all_goals simp -implicitDefEqProofs [Dev.memWrite_wf, hd]

@[simp] theorem execVdqmx_keepsWf (t : Fin 512) (h : Head) (f : FmtR) (s : State) : KeepsWf s (execVdqmx t h f s) :=
  keepsWf_issue fun d hd => by
    split
    · trivial
    · exact Dev.tileLoad_ramWf hd fun e _ he => Dev.tileLoad_ramWf he fun _ _ hg => hg

@[simp] theorem execVbcst_keepsWf (t : Fin 512) (h : Head) (f : FmtR) (s : State) : KeepsWf s (execVbcst t h f s) :=
  keepsWf_issue fun d hd => by simp -implicitDefEqProofs [hd]

@[simp] theorem execVld_keepsWf (t : Fin 512) (h : Head) (f : FmtIM) (s : State) : KeepsWf s (execVld t h f s) :=
  keepsWf_issue fun _ hd => Dev.tileLoad_ramWf hd fun _ _ he => he

@[simp] theorem execVst_keepsWf (t : Fin 512) (h : Head) (f : FmtIM) (s : State) : KeepsWf s (execVst t h f s) :=
  keepsWf_issue fun _ hd => Dev.tileOld_ramWf hd fun _ => Dev.tileStore_ramWf hd fun _ he => he

@[simp] theorem execVldn_keepsWf (t : Fin 512) (h : Head) (f : FmtIM) (s : State) : KeepsWf s (execVldn t h f s) :=
  keepsWf_issue fun d hd => by
    split
    · trivial
    · exact Dev.tileLoad_ramWf hd fun e _ he => he

@[simp] theorem execVstn_keepsWf (t : Fin 512) (h : Head) (f : FmtIM) (s : State) : KeepsWf s (execVstn t h f s) :=
  keepsWf_issue fun d hd => by
    split
    · exact Dev.tileOld_ramWf hd fun _ => Dev.tileStore_ramWf hd fun _ he => he
    · trivial

@[simp] theorem execMma_keepsWf (t : Fin 512) (h : Head) (f : FmtM) (s : State) : KeepsWf s (execMma t h f s) :=
  keepsWf_issue fun d hd => by
    dsimp only
    repeat' split
    all_goals simp -implicitDefEqProofs [hd]

@[simp] theorem execAccumulatorReady_keepsWf (t : Fin 512) (acc : Fin 8) (s : State) : KeepsWf s (execAccumulatorReady t acc s) :=
  keepsWf_onDev fun d hd => by
    dsimp only
    repeat' split
    all_goals simp -implicitDefEqProofs [hd]

@[simp] theorem execMwr_keepsWf (t : Fin 512) (h : Head) (f : FmtR) (s : State) : KeepsWf s (execMwr t h f s) :=
  keepsWf_issue fun d hd => withAcc_ramWf hd fun n => by
    split
    · extract_lets x base pitch row sat cs rows
      clear_value rows cs
      split
      · trivial
      · split
        · trivial
        · rw [doneTile_ramWf]
          exact Dev.storeRows_wf _ _ _ _ _ hd
    · trivial

@[simp] theorem execMld_keepsWf (t : Fin 512) (h : Head) (f : FmtR) (s : State) : KeepsWf s (execMld t h f s) :=
  keepsWf_issue fun _ hd => withAcc_ramWf hd fun _ => Dev.tileLoad_ramWf hd fun _ _ he => he

@[simp] theorem execMst_keepsWf (t : Fin 512) (h : Head) (f : FmtR) (s : State) : KeepsWf s (execMst t h f s) :=
  keepsWf_issue fun _ hd => withAcc_ramWf hd fun _ => Dev.tileStore_ramWf hd fun _ he => he

@[simp] theorem execMzero_keepsWf (t : Fin 512) (h : Head) (f : FmtR) (s : State) : KeepsWf s (execMzero t h f s) :=
  keepsWf_issue fun _ hd => withAcc_ramWf hd fun _ => hd

@[simp] theorem execSmchk_keepsWf (t : Fin 512) (h : Head) (f : FmtR) (s : State) : KeepsWf s (execSmchk t h f s) :=
  keepsWf_issue fun d hd => by
    dsimp only
    split
    · trivial
    · split
      · trivial
      · exact Dev.tileLoad_ramWf hd fun e _ he => he

@[simp] theorem execBmpop_keepsWf (t : Fin 512) (h : Head) (f : FmtR) (s : State) : KeepsWf s (execBmpop t h f s) := keepsWf_bitmapCount t h f s

@[simp] theorem execBmidx_keepsWf (t : Fin 512) (h : Head) (f : FmtR) (s : State) : KeepsWf s (execBmidx t h f s) := keepsWf_bitmapCount t h f s

@[simp] theorem execDma_keepsWf (t : Fin 512) (h : Head) (f : FmtX) (s : State) : KeepsWf s (execDma t h f s) :=
  keepsWf_issue fun d hd => by
    extract_lets x c desc
    clear_value x c desc
    repeat' split
    all_goals simp -implicitDefEqProofs [hd]

@[simp] theorem execDmaWait_keepsWf (t : Fin 512) (h : Head) (f : FmtX) (s : State) : KeepsWf s (execDmaWait t h f s) :=
  keepsWf_issue fun d hd => by simp -implicitDefEqProofs [hd]

@[simp] theorem execSend_keepsWf (t : Fin 512) (h : Head) (f : FmtX) (s : State) : KeepsWf s (execSend t h f s) :=
  keepsWf_issue fun d hd => by
    dsimp only
    split
    · trivial
    · split
      · trivial
      · exact Dev.tileLoad_ramWf hd fun e _ he => he

theorem recvOp_ramWf (t : Nat) (f : FmtX) (mask : Nat) (k : Nat → Tile → Tile) (d : Dev) (hd : d.mem.ram.wf = true) :
    (recvOp t f mask k d).RamWf := by
  unfold recvOp
  dsimp only
  split
  · exact hd
  · exact Dev.tileStore_ramWf hd fun e he => by simp -implicitDefEqProofs [he]

@[simp] theorem execRecv_keepsWf (t : Fin 512) (h : Head) (f : FmtX) (s : State) : KeepsWf s (execRecv t h f s) :=
  keepsWf_issue fun _ hd => recvOp_ramWf _ _ _ _ _ hd

@[simp] theorem execRecvAny_keepsWf (t : Fin 512) (h : Head) (f : FmtX) (s : State) : KeepsWf s (execRecvAny t h f s) :=
  keepsWf_issue fun _ hd => recvOp_ramWf _ _ _ _ _ hd

@[simp] theorem execMessageArrival_keepsWf (t : Fin 512) (mb : Fin 8) (s : State) : KeepsWf s (execMessageArrival t mb s) :=
  keepsWf_onDev fun d hd => by
    dsimp only
    repeat' split
    all_goals simp -implicitDefEqProofs [hd]

@[simp] theorem execBar_keepsWf (t : Fin 512) (h : Head) (f : FmtX) (s : State) : KeepsWf s (execBar t h f s) :=
  keepsWf_issue fun d hd => by
    repeat' split
    all_goals simp -implicitDefEqProofs [hd]

@[simp] theorem execFence_keepsWf (t : Fin 512) (h : Head) (f : FmtR) (s : State) : KeepsWf s (execFence t h f s) :=
  keepsWf_issue fun d hd => by simp -implicitDefEqProofs [hd]

@[simp] theorem execAtaddI_keepsWf (t : Fin 512) (h : Head) (f : FmtIM) (s : State) : KeepsWf s (execAtaddI t h f s) :=
  keepsWf_atomicOp _ _ _ _ _ _ _

@[simp] theorem execAtminI_keepsWf (t : Fin 512) (h : Head) (f : FmtIM) (s : State) : KeepsWf s (execAtminI t h f s) :=
  keepsWf_atomicOp _ _ _ _ _ _ _

@[simp] theorem execAtmaxI_keepsWf (t : Fin 512) (h : Head) (f : FmtIM) (s : State) : KeepsWf s (execAtmaxI t h f s) :=
  keepsWf_atomicOp _ _ _ _ _ _ _

@[simp] theorem execAtaddF_keepsWf (t : Fin 512) (h : Head) (f : FmtIM) (s : State) : KeepsWf s (execAtaddF t h f s) :=
  keepsWf_atomicOp _ _ _ _ _ _ _

@[simp] theorem execNop_keepsWf (t : Fin 512) (h : Head) (f : FmtR) (s : State) : KeepsWf s (execNop t h f s) :=
  keepsWf_issue fun d hd => by simp -implicitDefEqProofs [hd]

@[simp] theorem execHalt_keepsWf (t : Fin 512) (h : Head) (f : FmtR) (s : State) : KeepsWf s (execHalt t h f s) :=
  keepsWf_issue fun d hd => by simp -implicitDefEqProofs [hd]

@[simp] theorem execTileHalted_keepsWf (t : Fin 512) (s : State) : KeepsWf s (execTileHalted t s) :=
  keepsWf_onDev fun d hd => by simp -implicitDefEqProofs [hd]

@[simp] theorem execRdflag_keepsWf (t : Fin 512) (h : Head) (f : FmtR) (s : State) : KeepsWf s (execRdflag t h f s) :=
  keepsWf_issue fun d hd => by
    repeat' split
    all_goals simp -implicitDefEqProofs [hd]

@[simp] theorem execClrflag_keepsWf (t : Fin 512) (h : Head) (f : FmtI) (s : State) : KeepsWf s (execClrflag t h f s) :=
  keepsWf_issue fun d hd => by simp -implicitDefEqProofs [hd]

@[simp] theorem execSeed_keepsWf (t : Fin 512) (h : Head) (f : FmtR) (s : State) : KeepsWf s (execSeed t h f s) :=
  keepsWf_issue fun d hd => by simp -implicitDefEqProofs [hd]

@[simp] theorem execRdid_keepsWf (t : Fin 512) (h : Head) (f : FmtR) (s : State) : KeepsWf s (execRdid t h f s) :=
  keepsWf_issue fun d hd => by simp -implicitDefEqProofs [hd]

@[simp] theorem execRdcyc_keepsWf (t : Fin 512) (h : Head) (f : FmtR) (s : State) : KeepsWf s (execRdcyc t h f s) :=
  keepsWf_issue fun d hd => by simp -implicitDefEqProofs [hd]

@[simp] theorem execRdptime_keepsWf (t : Fin 512) (h : Head) (f : FmtR) (s : State) : KeepsWf s (execRdptime t h f s) :=
  keepsWf_issue fun d hd => by simp -implicitDefEqProofs [hd]

@[simp] theorem execRdtrng_keepsWf (t : Fin 512) (h : Head) (f : FmtR) (s : State) : KeepsWf s (execRdtrng t h f s) :=
  keepsWf_issue fun d hd => by simp -implicitDefEqProofs [hd]

@[simp] theorem execTileStart_keepsWf (s : State) : KeepsWf s (execTileStart s) :=
  keepsWf_onDev fun d hd => by
    dsimp only
    split
    · exact Dev.foldl_wf (fun e t he => Dev.startTile_wf _ _ _ he) _ hd
    · exact hd

@[simp] theorem execTileRestart_keepsWf (c : Fin 32) (mask : BitVec 16) (s : State) : KeepsWf s (execTileRestart c mask s) :=
  keepsWf_onDev fun _ hd => Dev.foldl_wf (fun _ _ he => Dev.restartTile_wf _ _ he) _ hd

@[simp] theorem execStallLimit_keepsWf (t : Fin 512) (s : State) : KeepsWf s (execStallLimit t s) :=
  keepsWf_onDev fun d hd => by simp -implicitDefEqProofs [hd]

@[simp] theorem execDispatchFire_keepsWf (qid : BitVec 16) (s : State) : KeepsWf s (execDispatchFire qid s) :=
  keepsWf_onDev fun d hd => by
    dsimp only
    repeat' split
    all_goals simp -implicitDefEqProofs [hd]

@[simp] theorem execResultFlag_keepsWf (die : Fin 4) (slot : Fin 64) (s : State) : KeepsWf s (execResultFlag die slot s) :=
  by
    unfold execResultFlag
    refine keepsWf_onDev fun d hd => ?_
    extract_lets e
    have he : e.mem.ram.wf = true := by simp -implicitDefEqProofs [e, hd]
    clear_value e
    split
    · exact hd
    · split
      · exact he
      · dsimp only
        split
        · exact he
        · split
          · split <;> rename_i hw <;> simp -implicitDefEqProofs [fst_wf_of_eq hw (Dev.keyWrite_wf _ _ _ _ _ _ he)]
          · repeat' split
            all_goals simp -implicitDefEqProofs [he]

@[simp] theorem execBatchLeave_keepsWf (die : Fin 4) (slot : Fin 64) (expert : BitVec 16) (opens : Bool) (s : State) :
    KeepsWf s (execBatchLeave die slot expert opens s) := by
  unfold execBatchLeave
  dsimp only
  refine keepsWf_onDev fun d hd => ?_
  repeat' split
  all_goals simp -implicitDefEqProofs [hd]

@[simp] theorem execDoneMessage_keepsWf (die : Fin 4) (s : State) : KeepsWf s (execDoneMessage die s) :=
  keepsWf_onDev fun d hd => by
    dsimp only
    repeat' split
    all_goals simp -implicitDefEqProofs [hd]

@[simp] theorem execBatchTimeout_keepsWf (id : W32) (s : State) : KeepsWf s (execBatchTimeout id s) :=
  keepsWf_onDev fun d hd => by
    repeat' split
    all_goals simp -implicitDefEqProofs [hd]

@[simp] theorem execRemoteBatch_keepsWf (src : Fin 64) (s : State) : KeepsWf s (execRemoteBatch src s) :=
  keepsWf_onDev fun d hd => by
    dsimp only
    repeat' split
    all_goals simp -implicitDefEqProofs [Dev.memWrite_wf, hd]

@[simp] theorem execRemoteResult_keepsWf (src : Fin 64) (s : State) : KeepsWf s (execRemoteResult src s) :=
  keepsWf_onDev fun d hd => by
    dsimp only
    repeat' split
    all_goals simp -implicitDefEqProofs [hd]

@[simp] theorem execZoneCounterWrite_keepsWf (fn : Fin 264) (off size : Nat) (poisoned : Bool) (s : State) :
    KeepsWf s (execZoneCounterWrite fn off size poisoned s) := keepsWf_onDev fun d hd => by simp -implicitDefEqProofs [hd]

@[simp] theorem execEptData0Read_keepsWf (s : State) : KeepsWf s (execEptData0Read s) :=
  keepsWf_onDev fun d hd => by simp -implicitDefEqProofs [hd]

@[simp] theorem execRxFrame_keepsWf (p : Fin 32) (bytes : List Byte) (pcsErr : Bool) (corr uncorr : BitVec 32) (s : State) :
    KeepsWf s (execRxFrame p bytes pcsErr corr uncorr s) :=
  keepsWf_onDev fun d hd => by
    extract_lets d1 d2 n b da
    have h2 : d2.mem.ram.wf = true := by simp -implicitDefEqProofs [d2, d1, hd]
    clear_value d2
    repeat' split
    case h_1 he => simp -implicitDefEqProofs [fst_wf_of_eq he (by simp -implicitDefEqProofs [h2])]
    case h_2 he => simp -implicitDefEqProofs [fst_wf_of_eq he (by simp -implicitDefEqProofs [h2])]
    all_goals simp -implicitDefEqProofs [hd, h2]

@[simp] theorem execPauseExpiry_keepsWf (p : Fin 32) (c : Fin 8) (s : State) : KeepsWf s (execPauseExpiry p c s) :=
  keepsWf_onDev fun d hd => by simp -implicitDefEqProofs [hd]

@[simp] theorem execPfcRepeat_keepsWf (p : Fin 32) (c : Fin 8) (s : State) : KeepsWf s (execPfcRepeat p c s) :=
  keepsWf_onDev fun d hd => by simp -implicitDefEqProofs [hd]

@[simp] theorem execFrameTransmit_keepsWf (p : Fin 32) (s : State) : KeepsWf s (execFrameTransmit p s) :=
  keepsWf_onDev fun d hd => by
    dsimp only
    split
    · exact hd
    · split
      · simp -implicitDefEqProofs [hd]
      next f e hp =>
        have he : e.mem.ram.wf = true := by simp -implicitDefEqProofs [Dev.txPick_ram hp, hd]
        split <;> simp -implicitDefEqProofs [he]

@[simp] theorem execGroupModeWrite_keepsWf (val : W32) (s : State) : KeepsWf s (execGroupModeWrite val s) :=
  keepsWf_onDev fun d hd => by simp -implicitDefEqProofs [hd]

@[simp] theorem execPortTrainingDone_keepsWf (p : Fin 32) (s : State) : KeepsWf s (execPortTrainingDone p s) :=
  keepsWf_onDev fun d hd => by simp -implicitDefEqProofs [hd]

@[simp] theorem execPortDown_keepsWf (p : Fin 32) (s : State) : KeepsWf s (execPortDown p s) :=
  keepsWf_onDev fun d hd => by simp -implicitDefEqProofs [hd]

@[simp] theorem execGateEntry_keepsWf (p : Fin 32) (s : State) : KeepsWf s (execGateEntry p s) :=
  keepsWf_onDev fun d hd => by simp -implicitDefEqProofs [hd]

@[simp] theorem execGateGo_keepsWf (p : Fin 32) (list en : Bool) (s : State) : KeepsWf s (execGateGo p list en s) :=
  keepsWf_onDev fun d hd => by simp -implicitDefEqProofs [hd]

@[simp] theorem execGateSwitch_keepsWf (p : Fin 32) (s : State) : KeepsWf s (execGateSwitch p s) :=
  keepsWf_onDev fun d hd => by
    dsimp only
    repeat' split
    all_goals simp -implicitDefEqProofs [hd]

@[simp] theorem execRuleWrite_keepsWf (s : State) : KeepsWf s (execRuleWrite s) := keepsWf_onDev fun d hd => by simp -implicitDefEqProofs [hd]

@[simp] theorem execRuleRead_keepsWf (s : State) : KeepsWf s (execRuleRead s) := keepsWf_onDev fun d hd => by simp -implicitDefEqProofs [hd]

@[simp] theorem execSaWrite_keepsWf (s : State) : KeepsWf s (execSaWrite s) := keepsWf_onDev fun d hd => by simp -implicitDefEqProofs [hd]

@[simp] theorem execSaRead_keepsWf (s : State) : KeepsWf s (execSaRead s) := keepsWf_onDev fun d hd => by simp -implicitDefEqProofs [hd]

@[simp] theorem execPtpAdj_keepsWf (step : W64) (s : State) : KeepsWf s (execPtpAdj step s) :=
  keepsWf_onDev fun d hd => by simp -implicitDefEqProofs [hd]

@[simp] theorem execWheelSlot_keepsWf (coarse : Bool) (slot : BitVec 12) (s : State) : KeepsWf s (execWheelSlot coarse slot s) :=
  keepsWf_onDev fun d hd => by simp -implicitDefEqProofs [hd]

@[simp] theorem execTxsSample_keepsWf (s : State) : KeepsWf s (execTxsSample s) := keepsWf_onDev fun d hd => by simp -implicitDefEqProofs [hd]

@[simp] theorem execHwmRead_keepsWf (s : State) : KeepsWf s (execHwmRead s) := keepsWf_onDev fun d hd => by simp -implicitDefEqProofs [hd]

@[simp] theorem execTxtsRead_keepsWf (p : Fin 32) (s : State) : KeepsWf s (execTxtsRead p s) :=
  keepsWf_onDev fun d hd => by simp -implicitDefEqProofs [hd]

@[simp] theorem execCreateQp_keepsWf (qpn : BitVec 24) (s : State) : KeepsWf s (execCreateQp qpn s) :=
  keepsWf_qpeCmd fun d hd => by
    dsimp only
    repeat' split
    all_goals simp -implicitDefEqProofs [hd]

@[simp] theorem execModifyRtr_keepsWf (qpn : BitVec 24) (s : State) : KeepsWf s (execModifyRtr qpn s) :=
  keepsWf_qpeCmd fun d hd => by
    dsimp only
    repeat' split
    all_goals simp -implicitDefEqProofs [hd]

@[simp] theorem execModifyRts_keepsWf (qpn : BitVec 24) (s : State) : KeepsWf s (execModifyRts qpn s) :=
  keepsWf_qpeCmd fun d hd => by
    dsimp only
    repeat' split
    all_goals simp -implicitDefEqProofs [hd]

@[simp] theorem execToError_keepsWf (qpn : BitVec 24) (s : State) : KeepsWf s (execToError qpn s) :=
  keepsWf_qpeCmd fun d hd => by
    repeat' split
    all_goals simp -implicitDefEqProofs [hd]

@[simp] theorem execQpDrained_keepsWf (qpn : BitVec 20) (s : State) : KeepsWf s (execQpDrained qpn s) :=
  keepsWf_onDev fun d hd => by
    repeat' split
    all_goals simp -implicitDefEqProofs [hd]

@[simp] theorem execDestroyQp_keepsWf (qpn : BitVec 24) (s : State) : KeepsWf s (execDestroyQp qpn s) :=
  keepsWf_qpeCmd fun d hd => by
    repeat' split
    all_goals simp -implicitDefEqProofs [hd]

@[simp] theorem execQueryQp_keepsWf (qpn : BitVec 24) (s : State) : KeepsWf s (execQueryQp qpn s) :=
  keepsWf_qpeCmd fun d hd => by simp -implicitDefEqProofs [hd]

@[simp] theorem execCreateAh_keepsWf (index : BitVec 24) (s : State) : KeepsWf s (execCreateAh index s) :=
  keepsWf_qpeCmd fun d hd => by simp -implicitDefEqProofs [hd]

@[simp] theorem execDestroyAh_keepsWf (index : BitVec 24) (s : State) : KeepsWf s (execDestroyAh index s) :=
  keepsWf_qpeCmd fun d hd => by simp -implicitDefEqProofs [hd]

@[simp] theorem execCtxCacheFlush_keepsWf (s : State) : KeepsWf s (execCtxCacheFlush s) :=
  keepsWf_onDev fun d hd => by simp -implicitDefEqProofs [hd]

@[simp] theorem execQpSend_keepsWf (qid : BitVec 16) (rd : HostRead) (s : State) : KeepsWf s (execQpSend qid rd s) :=
  keepsWf_onDev fun d hd => by simp -implicitDefEqProofs [hd]

@[simp] theorem execQpSendImm_keepsWf (qid : BitVec 16) (rd : HostRead) (s : State) : KeepsWf s (execQpSendImm qid rd s) :=
  keepsWf_onDev fun d hd => by simp -implicitDefEqProofs [hd]

@[simp] theorem execQpWrite_keepsWf (qid : BitVec 16) (rd : HostRead) (s : State) : KeepsWf s (execQpWrite qid rd s) :=
  keepsWf_onDev fun d hd => by simp -implicitDefEqProofs [hd]

@[simp] theorem execQpWriteImm_keepsWf (qid : BitVec 16) (rd : HostRead) (s : State) : KeepsWf s (execQpWriteImm qid rd s) :=
  keepsWf_onDev fun d hd => by simp -implicitDefEqProofs [hd]

@[simp] theorem execQpRead_keepsWf (qid : BitVec 16) (s : State) : KeepsWf s (execQpRead qid s) :=
  keepsWf_onDev fun d hd => by simp -implicitDefEqProofs [hd]

@[simp] theorem execCmpSwap_keepsWf (qid : BitVec 16) (s : State) : KeepsWf s (execCmpSwap qid s) :=
  keepsWf_onDev fun d hd => by simp -implicitDefEqProofs [hd]

@[simp] theorem execFetchAdd_keepsWf (qid : BitVec 16) (s : State) : KeepsWf s (execFetchAdd qid s) :=
  keepsWf_onDev fun d hd => by simp -implicitDefEqProofs [hd]

@[simp] theorem execTriggeredStart_keepsWf (qid : BitVec 16) (rd : HostRead) (s : State) : KeepsWf s (execTriggeredStart qid rd s) :=
  keepsWf_onDev fun d hd => by simp -implicitDefEqProofs [hd]

@[simp] theorem execQpRecv_keepsWf (qpn : BitVec 20) (s : State) : KeepsWf s (execQpRecv qpn s) :=
  keepsWf_onDev fun d hd => by
    repeat' split
    all_goals simp -implicitDefEqProofs [hd]

@[simp] theorem execRequestPacket_keepsWf (qpn : BitVec 20) (s : State) : KeepsWf s (execRequestPacket qpn s) :=
  keepsWf_onDev fun d hd => Dev.withRx_wf hd fun e _ _ he => by
    repeat' split
    all_goals simp -implicitDefEqProofs [he]

@[simp] theorem execTriggerIncrement_keepsWf (qpn : BitVec 20) (s : State) : KeepsWf s (execTriggerIncrement qpn s) :=
  keepsWf_onDev fun d hd => by
    repeat' split
    all_goals simp -implicitDefEqProofs [hd]

@[simp] theorem execReadRequest_keepsWf (qpn : BitVec 20) (rd : HostRead) (s : State) : KeepsWf s (execReadRequest qpn rd s) :=
  keepsWf_onDev fun d hd => Dev.withRx_wf hd fun e _ _ he => by
    dsimp only
    repeat' split
    all_goals simp -implicitDefEqProofs [he]

@[simp] theorem execAtomicRequest_keepsWf (qpn : BitVec 20) (routed : Bool) (rd : HostRead) (s : State) :
    KeepsWf s (execAtomicRequest qpn routed rd s) := keepsWf_onDev fun d hd => Dev.withRx_wf hd fun e _ _ he => by simp -implicitDefEqProofs [he]

@[simp] theorem execAcknowledge_keepsWf (qpn : BitVec 20) (s : State) : KeepsWf s (execAcknowledge qpn s) :=
  keepsWf_onDev fun d hd => Dev.withRx_wf hd fun e _ _ he => by simp -implicitDefEqProofs [he]

@[simp] theorem execSequenceErrorNak_keepsWf (qpn : BitVec 20) (s : State) : KeepsWf s (execSequenceErrorNak qpn s) :=
  keepsWf_onDev fun d hd => Dev.withRx_wf hd fun e _ _ he => by simp -implicitDefEqProofs [he]

@[simp] theorem execRnrNak_keepsWf (qpn : BitVec 20) (s : State) : KeepsWf s (execRnrNak qpn s) :=
  keepsWf_onDev fun d hd => Dev.withRx_wf hd fun e _ _ he => by simp -implicitDefEqProofs [he]

@[simp] theorem execErrorNak_keepsWf (qpn : BitVec 20) (s : State) : KeepsWf s (execErrorNak qpn s) :=
  keepsWf_onDev fun d hd => Dev.withRx_wf hd fun e _ _ he => by simp -implicitDefEqProofs [he]

@[simp] theorem execReadResponse_keepsWf (qpn : BitVec 20) (s : State) : KeepsWf s (execReadResponse qpn s) :=
  keepsWf_onDev fun d hd => Dev.withRx_wf hd fun e q x he => by
    extract_lets p
    rcases q.answerFor true p with _ | m
    · exact he
    · dsimp -zeta only
      extract_lets i size payload start o
      clear_value i size payload start
      split
      · exact he
      · split
        · have ho : o.dev.mem.ram.wf = true := openSegs_wf _ _ _ _ _ _ _ (fun _ _ _ hg => Dev.keyWrite_wf _ _ _ _ _ _ hg) _ _ he
          clear_value o
          split <;> simp -implicitDefEqProofs [ho]
        · split <;> rename_i hw <;> simp -implicitDefEqProofs [fst_wf_of_eq hw (Dev.keyWrite_wf _ _ _ _ _ _ he)]

@[simp] theorem execAtomicAcknowledge_keepsWf (qpn : BitVec 20) (s : State) : KeepsWf s (execAtomicAcknowledge qpn s) :=
  keepsWf_onDev fun d hd => Dev.withRx_wf hd fun e _ _ he => by simp -implicitDefEqProofs [he]

@[simp] theorem execUdPacket_keepsWf (qpn : BitVec 20) (s : State) : KeepsWf s (execUdPacket qpn s) :=
  keepsWf_onDev fun d hd => Dev.withRx_wf hd fun e q x he => by
    extract_lets op imm payload head v6 stamp total
    split
    · simp -implicitDefEqProofs [he]
    · split
      · simp -implicitDefEqProofs [he]
      · split
        · simp -implicitDefEqProofs [he]
        next e1 i ht =>
          have h1 : e1.mem.ram.wf = true := by rw [Dev.recvTake_ram ht, he]
          split
          · exact h1
          · extract_lets fin
            split
            · simp -implicitDefEqProofs [fin, h1]
            · split <;> rename_i hl <;> simp -implicitDefEqProofs [fin, fst_wf_of_eq hl (Dev.landUd_wf _ _ _ _ h1)]

@[simp] theorem execCnp_keepsWf (qpn : BitVec 20) (s : State) : KeepsWf s (execCnp qpn s) :=
  by
    unfold execCnp
    refine keepsWf_onDev fun d hd => ?_
    split
    · exact hd
    · split
      · exact hd
      next e hx =>
        have he : e.mem.ram.wf = true := by rw [Dev.takeRx_ram hx, hd]
        split
        · simp -implicitDefEqProofs [he]
        · split
          · simp -implicitDefEqProofs [he]
          · dsimp only
            split <;> simp -implicitDefEqProofs [he]

@[simp] theorem execAlphaDecay_keepsWf (qpn : BitVec 20) (s : State) : KeepsWf s (execAlphaDecay qpn s) :=
  keepsWf_onDev fun d hd => by
    repeat' split
    all_goals simp -implicitDefEqProofs [hd]

@[simp] theorem execTimerIncrease_keepsWf (qpn : BitVec 20) (s : State) : KeepsWf s (execTimerIncrease qpn s) :=
  keepsWf_onDev fun d hd => by
    repeat' split
    all_goals simp -implicitDefEqProofs [hd]

@[simp] theorem execByteIncrease_keepsWf (qpn : BitVec 20) (s : State) : KeepsWf s (execByteIncrease qpn s) :=
  keepsWf_onDev fun d hd => by
    repeat' split
    all_goals simp -implicitDefEqProofs [hd]

@[simp] theorem execRttProbe_keepsWf (qpn : BitVec 20) (s : State) : KeepsWf s (execRttProbe qpn s) :=
  keepsWf_onDev fun d hd => by
    repeat' split
    all_goals simp -implicitDefEqProofs [hd]

@[simp] theorem execRttReq_keepsWf (qpn : BitVec 20) (s : State) : KeepsWf s (execRttReq qpn s) :=
  keepsWf_onDev fun d hd => Dev.withRx_wf hd fun e _ _ he => by simp -implicitDefEqProofs [he]

@[simp] theorem execRttRsp_keepsWf (qpn : BitVec 20) (s : State) : KeepsWf s (execRttRsp qpn s) :=
  keepsWf_onDev fun d hd => Dev.withRx_wf hd fun e _ _ he => by simp -implicitDefEqProofs [he]

@[simp] theorem execAckTimeout_keepsWf (qpn : BitVec 20) (s : State) : KeepsWf s (execAckTimeout qpn s) :=
  keepsWf_onDev fun d hd => by
    repeat' split
    all_goals simp -implicitDefEqProofs [hd]

@[simp] theorem execRnrWaitExpiry_keepsWf (qpn : BitVec 20) (s : State) : KeepsWf s (execRnrWaitExpiry qpn s) :=
  keepsWf_onDev fun d hd => by
    repeat' split
    all_goals simp -implicitDefEqProofs [hd]

@[simp] theorem execAckDelay_keepsWf (qpn : BitVec 20) (s : State) : KeepsWf s (execAckDelay qpn s) :=
  keepsWf_onDev fun d hd => by
    repeat' split
    all_goals simp -implicitDefEqProofs [hd]

@[simp] theorem execUnorderedGap_keepsWf (qpn : BitVec 20) (s : State) : KeepsWf s (execUnorderedGap qpn s) :=
  keepsWf_onDev fun d hd => by
    repeat' split
    all_goals simp -implicitDefEqProofs [hd]

@[simp] theorem execRegister_keepsWf (count : BitVec 16) (s : State) : KeepsWf s (execRegister count s) :=
  keepsWf_memCmd fun d hd => by simp -implicitDefEqProofs [hd]

@[simp] theorem execUnregister_keepsWf (count : BitVec 16) (s : State) : KeepsWf s (execUnregister count s) :=
  keepsWf_memCmd fun d hd => by
    dsimp only
    split
    · simp -implicitDefEqProofs [hd]
    · split
      · simp -implicitDefEqProofs [hd]
      · rw [Dev.blkCmdStart_ram]
        exact Dev.foldl_wf (fun e i he => Dev.unregister_wf _ _ he) _ hd

@[simp] theorem execBlockCmdDone_keepsWf (s : State) : KeepsWf s (execBlockCmdDone s) :=
  keepsWf_onDev fun d hd => by
    dsimp only
    repeat' split
    all_goals simp -implicitDefEqProofs [hd]

@[simp] theorem execPlacementEpochEnd_keepsWf (takers : List (Nat × Nat)) (s : State) : KeepsWf s (execPlacementEpochEnd takers s) :=
  keepsWf_onDev fun d hd => by simp -implicitDefEqProofs [hd]

@[simp] theorem execMoveStart_keepsWf (p : Fin 32) (s : State) : KeepsWf s (execMoveStart p s) :=
  keepsWf_onDev fun d hd => by
    dsimp only
    repeat' split
    all_goals simp -implicitDefEqProofs [hd]

@[simp] theorem execCopyPassDone_keepsWf (entry : BitVec 20) (s : State) : KeepsWf s (execCopyPassDone entry s) :=
  keepsWf_onDev fun d hd => by
    dsimp only
    repeat' split
    all_goals simp -implicitDefEqProofs [hd]

@[simp] theorem execMoveSwitch_keepsWf (entry : BitVec 20) (s : State) : KeepsWf s (execMoveSwitch entry s) :=
  keepsWf_onDev fun d hd => by
    dsimp only
    repeat' split
    all_goals simp -implicitDefEqProofs [hd]

@[simp] theorem execLastReaderDone_keepsWf (entry : BitVec 20) (s : State) : KeepsWf s (execLastReaderDone entry s) :=
  keepsWf_onDev fun d hd => by simp -implicitDefEqProofs [hd]

@[simp] theorem execPlace_keepsWf (h : CtlHead) (part : Fin 32) (layer expert : BitVec 16) (rank : Fin 64) (frame : Nat) (s : State) :
    KeepsWf s (execPlace h part layer expert rank frame s) :=
  keepsWf_onDev fun d hd => Dev.ctlArrive_wf hd fun e he => by simp -implicitDefEqProofs [he]

@[simp] theorem execPlacementFrameSwitch_keepsWf (index : BitVec 16) (s : State) : KeepsWf s (execPlacementFrameSwitch index s) :=
  keepsWf_onDev fun d hd => by
    dsimp only
    repeat' split
    all_goals simp -implicitDefEqProofs [hd]

@[simp] theorem execSwitchAcknowledgement_keepsWf (src : Fin 64) (index : BitVec 16) (s : State) :
    KeepsWf s (execSwitchAcknowledgement src index s) :=
  keepsWf_onDev fun d hd => by
    dsimp only
    repeat' split
    all_goals simp -implicitDefEqProofs [hd]

@[simp] theorem execScrubPass_keepsWf (addr : BitVec 42) (s : State) : KeepsWf s (execScrubPass addr s) :=
  keepsWf_onDev fun d hd => by
    repeat' split
    all_goals simp -implicitDefEqProofs [hd]

@[simp] theorem execClusterClearDone_keepsWf (c : Fin 32) (s : State) : KeepsWf s (execClusterClearDone c s) :=
  keepsWf_onDev fun d hd => by simp -implicitDefEqProofs [hd]

@[simp] theorem execRefresh_keepsWf (s : State) : KeepsWf s (execRefresh s) := keepsWf_onDev fun d hd => by simp -implicitDefEqProofs [hd]

@[simp] theorem execPeriodicRetraining_keepsWf (s : State) : KeepsWf s (execPeriodicRetraining s) :=
  keepsWf_onDev fun d hd => by simp -implicitDefEqProofs [hd]

@[simp] theorem execFullRetraining_keepsWf (s : State) : KeepsWf s (execFullRetraining s) :=
  keepsWf_onDev fun d hd => by simp -implicitDefEqProofs [hd]

@[simp] theorem execTileDmaDone_keepsWf (t : Fin 512) (ctx : Fin 8) (rd : HostRead) (s : State) : KeepsWf s (execTileDmaDone t ctx rd s) :=
  keepsWf_onDev fun d hd => by
    dsimp only
    split
    · exact hd
    · split
      · simp -implicitDefEqProofs [hd]
      · split <;> rename_i hm
        · simp -implicitDefEqProofs [fst_wf_of_eq hm (by simp -implicitDefEqProofs [hd])]
        · split <;> simp -implicitDefEqProofs [fst_wf_of_eq hm (by simp -implicitDefEqProofs [hd])]

@[simp] theorem execWalkDone_keepsWf (stream : WalkStream) (waited : Bool) (s : State) : KeepsWf s (execWalkDone stream waited s) :=
  keepsWf_onDev fun d hd => by
    dsimp only
    repeat' split
    all_goals simp -implicitDefEqProofs [hd]

@[simp] theorem execTileStopped_keepsWf (t : Fin 512) (s : State) : KeepsWf s (execTileStopped t s) :=
  keepsWf_onDev fun d hd => by simp -implicitDefEqProofs [hd]

@[simp] theorem execLoad_keepsWf (s : State) : KeepsWf s (execLoad s) := keepsWf_imgCmd fun d hd => by simp -implicitDefEqProofs [hd]

@[simp] theorem execAbort_keepsWf (s : State) : KeepsWf s (execAbort s) := keepsWf_imgCmd fun d hd => by simp -implicitDefEqProofs [hd]

@[simp] theorem execImageCopyDone_keepsWf (rd : HostBlob) (s : State) : KeepsWf s (execImageCopyDone rd s) :=
  keepsWf_onDev fun d hd => by
    dsimp only
    repeat' split
    all_goals simp -implicitDefEqProofs [hd]

@[simp] theorem execImageVerifyDone_keepsWf (s : State) : KeepsWf s (execImageVerifyDone s) :=
  keepsWf_onDev fun d hd => by
    dsimp only
    repeat' split
    all_goals simp -implicitDefEqProofs [hd]

@[simp] theorem execCommit_keepsWf (s : State) : KeepsWf s (execCommit s) :=
  keepsWf_imgCmd fun d hd => by
    dsimp only
    repeat' split
    all_goals simp -implicitDefEqProofs [hd]

@[simp] theorem execPartitionDrainDone_keepsWf (p : Fin 32) (s : State) : KeepsWf s (execPartitionDrainDone p s) :=
  keepsWf_onDev fun d hd => by
    split
    · exact hd
    · split
      · exact hd
      · exact Dev.sanitizeAfter_wf _ (Dev.finishScoped_wf _ _ _ (Dev.stopPart_wf _ _ hd))

@[simp] theorem execDrainLimitExpiry_keepsWf (p : Fin 32) (s : State) : KeepsWf s (execDrainLimitExpiry p s) :=
  keepsWf_onDev fun d hd => by simp -implicitDefEqProofs [hd]

@[simp] theorem execHostLinkLoss_keepsWf (k : Fin 8) (s : State) : KeepsWf s (execHostLinkLoss k s) :=
  keepsWf_onDev fun d hd => by simp -implicitDefEqProofs [hd]

@[simp] theorem execCplTimeout_keepsWf (k : Fin 8) (user : ReadUser) (s : State) : KeepsWf s (execCplTimeout k user s) :=
  keepsWf_onDev fun d hd => by simp -implicitDefEqProofs [hd]

@[simp] theorem execReinit_keepsWf (k : Fin 8) (s : State) : KeepsWf s (execReinit k s) :=
  keepsWf_onDev fun d hd => by simp -implicitDefEqProofs [hd]

@[simp] theorem execFenceCmd_keepsWf (w : W32) (s : State) : KeepsWf s (execFenceCmd w s) :=
  keepsWf_onDev fun d hd => by simp -implicitDefEqProofs [hd]

@[simp] theorem execDupMismatch_keepsWf (block machine : BitVec 8) (inst : BitVec 16) (again : Bool) (s : State) :
    KeepsWf s (execDupMismatch block machine inst again s) := keepsWf_onDev fun d hd => by simp -implicitDefEqProofs [hd]

@[simp] theorem execErrorDetect_keepsWf (site : ErrSite) (s : State) : KeepsWf s (execErrorDetect site s) :=
  keepsWf_onDev fun d hd => by simp -implicitDefEqProofs [hd]

@[simp] theorem execRetryDone_keepsWf (site : ErrSite) (cls : RetryClass) (s : State) : KeepsWf s (execRetryDone site cls s) :=
  keepsWf_onDev fun d hd => by
    dsimp only
    repeat' split
    all_goals simp -implicitDefEqProofs [hd]

@[simp] theorem execRngHealthFail_keepsWf (pipe : Fin 96) (again : Bool) (s : State) : KeepsWf s (execRngHealthFail pipe again s) :=
  keepsWf_onDev fun d hd => by simp -implicitDefEqProofs [hd]

@[simp] theorem execLogData0Read_keepsWf (s : State) : KeepsWf s (execLogData0Read s) :=
  keepsWf_onDev fun d hd => by simp -implicitDefEqProofs [hd]

@[simp] theorem execTrainingRestart_keepsWf (n : Fin 64) (s : State) : KeepsWf s (execTrainingRestart n s) :=
  keepsWf_onDev fun d hd => by simp -implicitDefEqProofs [hd]

@[simp] theorem execTrainingDone_keepsWf (n : Fin 64) (lanes : BitVec 4) (ok : Bool) (s : State) : KeepsWf s (execTrainingDone n lanes ok s) :=
  keepsWf_onDev fun d hd => by simp -implicitDefEqProofs [hd]

@[simp] theorem execAdmission_keepsWf (n : Fin 64) (aligned : Bool) (s : State) : KeepsWf s (execAdmission n aligned s) :=
  keepsWf_onDev fun d hd => by simp -implicitDefEqProofs [hd]

@[simp] theorem execPeerSilent_keepsWf (n : Fin 64) (s : State) : KeepsWf s (execPeerSilent n s) :=
  keepsWf_onDev fun d hd => by simp -implicitDefEqProofs [hd]

@[simp] theorem execRetrainDone_keepsWf (n : Fin 64) (lanes : BitVec 4) (s : State) : KeepsWf s (execRetrainDone n lanes s) :=
  keepsWf_onDev fun d hd => by simp -implicitDefEqProofs [hd]

@[simp] theorem execRetrainLimit_keepsWf (n : Fin 64) (s : State) : KeepsWf s (execRetrainLimit n s) :=
  keepsWf_onDev fun d hd => by simp -implicitDefEqProofs [hd]

@[simp] theorem execLinkDisable_keepsWf (n : Fin 64) (w : W32) (s : State) : KeepsWf s (execLinkDisable n w s) :=
  keepsWf_onDev fun d hd => by simp -implicitDefEqProofs [hd]

@[simp] theorem execRetrain_keepsWf (n : Fin 64) (w : W32) (s : State) : KeepsWf s (execRetrain n w s) :=
  keepsWf_onDev fun d hd => by simp -implicitDefEqProofs [hd]

@[simp] theorem execIdle_keepsWf (n : Fin 64) (hdr : BitVec 96) (s : State) : KeepsWf s (execIdle n hdr s) :=
  keepsWf_onDev fun d hd => by simp -implicitDefEqProofs [hd]

@[simp] theorem execLinkNak_keepsWf (n : Fin 64) (hdr : BitVec 96) (s : State) : KeepsWf s (execLinkNak n hdr s) :=
  keepsWf_onDev fun d hd => by simp -implicitDefEqProofs [hd]

@[simp] theorem execIdent_keepsWf (n rank link : Fin 64) (strap : Bool) (leader : BitVec 8) (committed : Bool) (podImage : W64)
    (epoch : W32) (s : State) :
    KeepsWf s (execIdent n rank link strap leader committed podImage epoch s) := keepsWf_onDev fun d hd => by simp -implicitDefEqProofs [hd]

@[simp] theorem execEchoReq_keepsWf (n : Fin 64) (s : State) : KeepsWf s (execEchoReq n s) :=
  keepsWf_onDev fun d hd => by simp -implicitDefEqProofs [hd]

@[simp] theorem execEchoRsp_keepsWf (n : Fin 64) (rt hold : Nat) (s : State) : KeepsWf s (execEchoRsp n rt hold s) :=
  keepsWf_onDev fun d hd => by simp -implicitDefEqProofs [hd]

@[simp] theorem execLatencyRemeasure_keepsWf (n : Fin 64) (rt hold : Nat) (s : State) : KeepsWf s (execLatencyRemeasure n rt hold s) :=
  keepsWf_onDev fun d hd => by simp -implicitDefEqProofs [hd]

@[simp] theorem execCrcFailure_keepsWf (n : Fin 64) (s : State) : KeepsWf s (execCrcFailure n s) :=
  keepsWf_onDev fun d hd => by simp -implicitDefEqProofs [hd]

@[simp] theorem execData_keepsWf (n : Fin 64) (hdr : BitVec 96) (payload : BitVec 512) (s : State) : KeepsWf s (execData n hdr payload s) :=
  keepsWf_onDev fun d hd => Dev.arriveCell_wf hd fun e he => by simp -implicitDefEqProofs [he]

@[simp] theorem execEpochNak_keepsWf (n : Fin 64) (hdr : BitVec 96) (payload : BitVec 512) (s : State) :
    KeepsWf s (execEpochNak n hdr payload s) := keepsWf_onDev fun d hd => Dev.arriveCell_wf hd fun e he => by simp -implicitDefEqProofs [he]

@[simp] theorem execSwitch_keepsWf (h : CtlHead) (set : Fin 4) (frame : Nat) (epoch : BitVec 16) (lost recal : W64) (s : State) :
    KeepsWf s (execSwitch h set frame epoch lost recal s) :=
  keepsWf_onDev fun d hd => Dev.ctlArrive_wf hd fun e he => by simp -implicitDefEqProofs [he]

@[simp] theorem execFault_keepsWf (h : CtlHead) (reporter link : Fin 64) (state : Fin 7) (lost : Option (Fin 64)) (s : State) :
    KeepsWf s (execFault h reporter link state lost s) :=
  keepsWf_onDev fun d hd => Dev.ctlToLeader_wf hd fun e he => by simp -implicitDefEqProofs [he]

@[simp] theorem execFenceBroadcast_keepsWf (h : CtlHead) (mask : W64) (s : State) : KeepsWf s (execFenceBroadcast h mask s) :=
  keepsWf_onDev fun d hd => Dev.ctlArrive_wf hd fun e he => by simp -implicitDefEqProofs [he]

@[simp] theorem execOnfFenceWrite_keepsWf (w : W64) (s : State) : KeepsWf s (execOnfFenceWrite w s) :=
  keepsWf_onDev fun d hd => by simp -implicitDefEqProofs [hd]

@[simp] theorem execOnfRecal_keepsWf (w : W64) (s : State) : KeepsWf s (execOnfRecal w s) :=
  keepsWf_onDev fun d hd => by simp -implicitDefEqProofs [hd]

@[simp] theorem execRouteCmdGo_keepsWf (w : W32) (s : State) : KeepsWf s (execRouteCmdGo w s) :=
  keepsWf_onDev fun d hd => by simp -implicitDefEqProofs [hd]

@[simp] theorem execSwitchFrame_keepsWf (s : State) : KeepsWf s (execSwitchFrame s) :=
  keepsWf_onDev fun d hd => by
    dsimp only
    repeat' split
    all_goals simp -implicitDefEqProofs [hd]

@[simp] theorem execPodtime_keepsWf (h : CtlHead) (leader : Fin 64) (time : W64) (frames : BitVec 16) (en : Bool) (hops : Nat) (s : State) :
    KeepsWf s (execPodtime h leader time frames en hops s) :=
  keepsWf_onDev fun d hd => by
    dsimp only
    split <;> rename_i hc
    · exact fst_wf_of_eq hc (by simp -implicitDefEqProofs [hd])
    · have he := fst_wf_of_eq hc (by simp -implicitDefEqProofs [hd])
      split
      · simp -implicitDefEqProofs [he]
      · rw [Dev.relay_ram]
        split <;> simp -implicitDefEqProofs [he]

@[simp] theorem execClaim_keepsWf (h : CtlHead) (rank : Fin 64) (s : State) : KeepsWf s (execClaim h rank s) :=
  keepsWf_onDev fun d hd => Dev.ctlArrive_wf hd fun e he => by simp -implicitDefEqProofs [he]

@[simp] theorem execPodtimeSend_keepsWf (s : State) : KeepsWf s (execPodtimeSend s) := keepsWf_onDev fun d hd => by simp -implicitDefEqProofs [hd]

@[simp] theorem execClaimSend_keepsWf (s : State) : KeepsWf s (execClaimSend s) := keepsWf_onDev fun d hd => by simp -implicitDefEqProofs [hd]

@[simp] theorem execLeaderSilence_keepsWf (s : State) : KeepsWf s (execLeaderSilence s) :=
  keepsWf_onDev fun d hd => by
    dsimp only
    repeat' split
    all_goals simp -implicitDefEqProofs [hd]

@[simp] theorem execElectionClose_keepsWf (s : State) : KeepsWf s (execElectionClose s) :=
  keepsWf_onDev fun d hd => by simp -implicitDefEqProofs [hd]

@[simp] theorem execFrameStart_keepsWf (s : State) : KeepsWf s (execFrameStart s) :=
  keepsWf_onDev fun d hd => by
    extract_lets d1 o o' d2 d3 d4 used b
    have h1 : d1.mem.ram.wf = true := by
      unfold d1
      split <;> simp -implicitDefEqProofs [hd]
    clear_value d1 o'
    have h4 : d4.mem.ram.wf = true := by
      unfold d4
      exact Dev.foldl_wf (fun e n he => by simp -implicitDefEqProofs [he]) _ (by simp -implicitDefEqProofs [d3, d2, h1])
    clear_value d4
    split
    · exact hd
    · split
      · exact Dev.announce_keeps (fun m => m.wf = true) _ _ _ (fun e he => by simp -implicitDefEqProofs [he]) (by simp -implicitDefEqProofs [h4])
      · exact h4

@[simp] theorem execCmap_keepsWf (h : CtlHead) (rank : Fin 64) (part : Fin 12) (data : BitVec 384) (s : State) :
    KeepsWf s (execCmap h rank part data s) := keepsWf_onDev fun d hd => Dev.ctlToLeader_wf hd fun e he => by simp -implicitDefEqProofs [he]

@[simp] theorem execCmapIntervalEnd_keepsWf (s : State) : KeepsWf s (execCmapIntervalEnd s) :=
  keepsWf_onDev fun d hd => by simp -implicitDefEqProofs [hd]

@[simp] theorem execBistGroupStart_keepsWf (g : Fin 8) (s : State) : KeepsWf s (execBistGroupStart g s) :=
  keepsWf_onDev fun d hd => by simp -implicitDefEqProofs [hd]

@[simp] theorem execBistGroupDone_keepsWf (g : Fin 8) (fails : List BistFail) (us : BitVec 16) (s : State) :
    KeepsWf s (execBistGroupDone g fails us s) :=
  keepsWf_onDev fun d hd => by
    extract_lets own d1 d2 d3
    have h1 : d1.mem.ram.wf = true := Dev.foldl_wf (fun e f he => by split <;> simp -implicitDefEqProofs [he]) _ hd
    have h3 : d3.mem.ram.wf = true := by
      unfold d3
      split <;> simp -implicitDefEqProofs [d2, h1]
    split
    · exact hd
    · simp -implicitDefEqProofs [h3]

@[simp] theorem execSvcOnaudLink_keepsWf (index : BitVec 16) (s : State) : KeepsWf s (execSvcOnaudLink index s) :=
  keepsWf_svcCmd fun d hd => by simp -implicitDefEqProofs [hd]

@[simp] theorem execSvcD2dSpares_keepsWf (index : BitVec 16) (s : State) : KeepsWf s (execSvcD2dSpares index s) :=
  keepsWf_svcCmd fun d hd => by simp -implicitDefEqProofs [hd]

@[simp] theorem execSvcEthPort_keepsWf (index : BitVec 16) (s : State) : KeepsWf s (execSvcEthPort index s) :=
  keepsWf_svcCmd fun d hd => by simp -implicitDefEqProofs [hd]

@[simp] theorem execLinkQuiet_keepsWf (n : Fin 64) (s : State) : KeepsWf s (execLinkQuiet n s) :=
  keepsWf_onDev fun d hd => by
    dsimp only
    repeat' split
    all_goals simp -implicitDefEqProofs [hd]

@[simp] theorem execQuietTimeout_keepsWf (n : Fin 64) (s : State) : KeepsWf s (execQuietTimeout n s) :=
  keepsWf_onDev fun d hd => by
    repeat' split
    all_goals simp -implicitDefEqProofs [hd]

@[simp] theorem execPrbsDone_keepsWf (first again : BitVec 32) (reason : BitVec 4) (s : State) : KeepsWf s (execPrbsDone first again reason s) :=
  keepsWf_onDev fun d hd => by
    dsimp only
    repeat' split
    all_goals simp -implicitDefEqProofs [hd]

@[simp] theorem execSvcRestoreDone_keepsWf (n : Fin 64) (lanes : BitVec 4) (lat : BitVec 8) (ok : Bool) (s : State) :
    KeepsWf s (execSvcRestoreDone n lanes lat ok s) :=
  keepsWf_onDev fun d hd => by
    dsimp only
    repeat' split
    all_goals simp -implicitDefEqProofs [hd]

@[simp] theorem execAdvanceRollback_keepsWf (v : BitVec 7) (s : State) : KeepsWf s (execAdvanceRollback v s) :=
  keepsWf_onSec fun d hd => by simp -implicitDefEqProofs [hd]

@[simp] theorem execFuseBlowDone_keepsWf (blown : Bool) (s : State) : KeepsWf s (execFuseBlowDone blown s) :=
  keepsWf_onDev fun d hd => by
    dsimp only
    repeat' split
    all_goals simp -implicitDefEqProofs [hd]

@[simp] theorem execDebugToken_keepsWf (rd : HostRead) (s : State) : KeepsWf s (execDebugToken rd s) :=
  keepsWf_onSec fun d hd => by simp -implicitDefEqProofs [hd]

@[simp] theorem execProgramOwnerKey_keepsWf (rd : HostRead) (s : State) : KeepsWf s (execProgramOwnerKey rd s) :=
  keepsWf_onSec fun d hd => by
    dsimp only
    repeat' split
    all_goals simp -implicitDefEqProofs [hd]

@[simp] theorem execAliasCertDone_keepsWf (s : State) : KeepsWf s (execAliasCertDone s) :=
  keepsWf_onDev fun d hd => by simp -implicitDefEqProofs [hd]

@[simp] theorem execGetVersion_keepsWf (mctp : Bool) (s : State) : KeepsWf s (execGetVersion mctp s) :=
  keepsWf_onSpdm fun d hd => by simp -implicitDefEqProofs [hd]

@[simp] theorem execGetCapabilities_keepsWf (mctp : Bool) (s : State) : KeepsWf s (execGetCapabilities mctp s) :=
  keepsWf_onSpdm fun d hd => by simp -implicitDefEqProofs [hd]

@[simp] theorem execNegotiateAlgorithms_keepsWf (mctp : Bool) (s : State) : KeepsWf s (execNegotiateAlgorithms mctp s) :=
  keepsWf_onSpdm fun d hd => by simp -implicitDefEqProofs [hd]

@[simp] theorem execGetDigests_keepsWf (mctp : Bool) (s : State) : KeepsWf s (execGetDigests mctp s) :=
  keepsWf_onSpdm fun d hd => by simp -implicitDefEqProofs [hd]

@[simp] theorem execGetCertificate_keepsWf (mctp : Bool) (slot : BitVec 8) (off len : BitVec 16) (s : State) :
    KeepsWf s (execGetCertificate mctp slot off len s) := keepsWf_onSpdm fun d hd => by simp -implicitDefEqProofs [hd]

@[simp] theorem execChallenge_keepsWf (mctp : Bool) (slot : BitVec 8) (summary : Bool) (nonce : BitVec 256) (s : State) :
    KeepsWf s (execChallenge mctp slot summary nonce s) := keepsWf_onSpdm fun d hd => by simp -implicitDefEqProofs [hd]

@[simp] theorem execGetMeasurements_keepsWf (mctp : Bool) (index : BitVec 8) (signed : Bool) (nonce : BitVec 256) (s : State) :
    KeepsWf s (execGetMeasurements mctp index signed nonce s) := keepsWf_onSpdm fun d hd => by simp -implicitDefEqProofs [hd]

@[simp] theorem execUnsupportedSpdmRequest_keepsWf (mctp : Bool) (s : State) : KeepsWf s (execUnsupportedSpdmRequest mctp s) :=
  keepsWf_onSpdm fun d hd => by simp -implicitDefEqProofs [hd]

@[simp] theorem execSignatureDone_keepsWf (s : State) : KeepsWf s (execSignatureDone s) :=
  keepsWf_onDev fun d hd => by
    dsimp only
    repeat' split
    all_goals simp -implicitDefEqProofs [hd]

@[simp] theorem execFnMboxSend_keepsWf (fn : Fin 264) (s : State) : KeepsWf s (execFnMboxSend fn s) :=
  keepsWf_onDev fun d hd => by simp -implicitDefEqProofs [hd]

@[simp] theorem execFnMboxAck_keepsWf (fn : Fin 264) (s : State) : KeepsWf s (execFnMboxAck fn s) :=
  keepsWf_onDev fun d hd => by simp -implicitDefEqProofs [hd]

@[simp] theorem execPf0MboxSend_keepsWf (fn : Fin 264) (s : State) : KeepsWf s (execPf0MboxSend fn s) :=
  keepsWf_onDev fun d hd => by simp -implicitDefEqProofs [hd]

@[simp] theorem execPf0MboxAck_keepsWf (fn : Fin 264) (s : State) : KeepsWf s (execPf0MboxAck fn s) :=
  keepsWf_onDev fun d hd => by simp -implicitDefEqProofs [hd]

@[simp] theorem execEnable_keepsWf (target : BitVec 9) (s : State) : KeepsWf s (execEnable target s) :=
  keepsWf_vfmCmd fun d hd => by simp -implicitDefEqProofs [hd]

@[simp] theorem execDisable_keepsWf (target : BitVec 9) (s : State) : KeepsWf s (execDisable target s) :=
  keepsWf_vfmCmd fun d hd => by simp -implicitDefEqProofs [hd]

@[simp] theorem execFlr_keepsWf (fn : Fin 264) (s : State) : KeepsWf s (execFlr fn s) :=
  keepsWf_onDev fun d hd => by simp -implicitDefEqProofs [hd]

@[simp] theorem execVfEnableSet_keepsWf (num : Fin 256) (s : State) : KeepsWf s (execVfEnableSet num s) :=
  keepsWf_onDev fun d hd => by simp -implicitDefEqProofs [hd]

@[simp] theorem execVfEnableClear_keepsWf (s : State) : KeepsWf s (execVfEnableClear s) :=
  keepsWf_onDev fun d hd => by simp -implicitDefEqProofs [hd]

@[simp] theorem execFnDrainDone_keepsWf (fn : Fin 264) (s : State) : KeepsWf s (execFnDrainDone fn s) :=
  keepsWf_onDev fun d hd => by simp -implicitDefEqProofs [hd]

@[simp] theorem execDrainStuck_keepsWf (fn : Fin 264) (s : State) : KeepsWf s (execDrainStuck fn s) :=
  keepsWf_onDev fun d hd => by simp -implicitDefEqProofs [hd]

@[simp] theorem execForceClear_keepsWf (target : BitVec 9) (s : State) : KeepsWf s (execForceClear target s) :=
  keepsWf_vfmCmd fun d hd => by simp -implicitDefEqProofs [hd]

@[simp] theorem execFreeze_keepsWf (target : BitVec 9) (s : State) : KeepsWf s (execFreeze target s) :=
  keepsWf_vfmCmd fun d hd => by simp -implicitDefEqProofs [hd]

@[simp] theorem execFreezeDone_keepsWf (fn : Fin 264) (s : State) : KeepsWf s (execFreezeDone fn s) :=
  keepsWf_onDev fun d hd => by simp -implicitDefEqProofs [hd]

@[simp] theorem execCancel_keepsWf (target : BitVec 9) (s : State) : KeepsWf s (execCancel target s) :=
  keepsWf_vfmCmd fun d hd => by simp -implicitDefEqProofs [hd]

@[simp] theorem execSave_keepsWf (target : BitVec 9) (s : State) : KeepsWf s (execSave target s) :=
  keepsWf_vfmCmd fun d hd => by simp -implicitDefEqProofs [hd]

@[simp] theorem execRestore_keepsWf (target : BitVec 9) (rd : HostBlob) (s : State) : KeepsWf s (execRestore target rd s) :=
  keepsWf_vfmCmd fun d hd => by
    dsimp only
    repeat' split
    all_goals simp -implicitDefEqProofs [hd]

@[simp] theorem execPwrbrakeAssert_keepsWf (s : State) : KeepsWf s (execPwrbrakeAssert s) :=
  keepsWf_onDev fun d hd => by simp -implicitDefEqProofs [hd]

@[simp] theorem execPwrbrakeRelease_keepsWf (s : State) : KeepsWf s (execPwrbrakeRelease s) :=
  keepsWf_onDev fun d hd => by simp -implicitDefEqProofs [hd]

@[simp] theorem execBrakeStepDown_keepsWf (s : State) : KeepsWf s (execBrakeStepDown s) :=
  keepsWf_onDev fun d hd => by
    repeat' split
    all_goals simp -implicitDefEqProofs [hd]

@[simp] theorem execDividerChange_keepsWf (s : State) : KeepsWf s (execDividerChange s) :=
  keepsWf_onDev fun d hd => by simp -implicitDefEqProofs [hd]

@[simp] theorem execPowerEstimate_keepsWf (now : BitVec 16) (s : State) : KeepsWf s (execPowerEstimate now s) :=
  keepsWf_onDev fun d hd => by simp -implicitDefEqProofs [hd]

@[simp] theorem execCapCheck_keepsWf (s : State) : KeepsWf s (execCapCheck s) := keepsWf_onDev fun d hd => by simp -implicitDefEqProofs [hd]

@[simp] theorem execSensorScan_keepsWf (readings : BitVec 768) (s : State) : KeepsWf s (execSensorScan readings s) :=
  keepsWf_onDev fun d hd => by simp -implicitDefEqProofs [hd]

@[simp] theorem execThermalRaise_keepsWf (s : State) : KeepsWf s (execThermalRaise s) :=
  keepsWf_onDev fun d hd => by simp -implicitDefEqProofs [hd]

@[simp] theorem execThermalLower_keepsWf (s : State) : KeepsWf s (execThermalLower s) :=
  keepsWf_onDev fun d hd => by simp -implicitDefEqProofs [hd]

@[simp] theorem execRailsWithinTolerance_keepsWf (s : State) : KeepsWf s (execRailsWithinTolerance s) :=
  keepsWf_onDev fun d hd => by simp -implicitDefEqProofs [hd]

@[simp] theorem execPwrokRise_keepsWf (s : State) : KeepsWf s (execPwrokRise s) := keepsWf_onDev fun d hd => by simp -implicitDefEqProofs [hd]

@[simp] theorem execPwrokFall_keepsWf (s : State) : KeepsWf s (execPwrokFall s) := keepsWf_onDev fun d hd => by simp -implicitDefEqProofs [hd]

@[simp] theorem execColdPin_keepsWf (s : State) : KeepsWf s (execColdPin s) := keepsWf_onDev fun d hd => by simp -implicitDefEqProofs [hd]

@[simp] theorem execBrownout_keepsWf (s : State) : KeepsWf s (execBrownout s) := keepsWf_onDev fun d hd => by simp -implicitDefEqProofs [hd]

@[simp] theorem execKettleLoss_keepsWf (s : State) : KeepsWf s (execKettleLoss s) := keepsWf_onDev fun d hd => by simp -implicitDefEqProofs [hd]

@[simp] theorem execThermtrip_keepsWf (s : State) : KeepsWf s (execThermtrip s) := keepsWf_onDev fun d hd => by simp -implicitDefEqProofs [hd]

@[simp] theorem execColdResetRelease_keepsWf (split : BitVec 4) (cxl leader testen : Bool) (smb : BitVec 3) (s : State) :
    KeepsWf s (execColdResetRelease split cxl leader testen smb s) := keepsWf_onDev fun d hd => by simp -implicitDefEqProofs [hd]

@[simp] theorem execKettleLock_keepsWf (s : State) : KeepsWf s (execKettleLock s) := keepsWf_onDev fun d hd => by simp -implicitDefEqProofs [hd]

@[simp] theorem execInitDone_keepsWf (s : State) : KeepsWf s (execInitDone s) := keepsWf_onDev fun d hd => by simp -implicitDefEqProofs [hd]

@[simp] theorem execWarmPin_keepsWf (s : State) : KeepsWf s (execWarmPin s) := keepsWf_onDev fun d hd => by simp -implicitDefEqProofs [hd]

@[simp] theorem execWarmReset_keepsWf (s : State) : KeepsWf s (execWarmReset s) := keepsWf_onPwr fun d hd => by simp -implicitDefEqProofs [hd]

@[simp] theorem execWarmResetDone_keepsWf (s : State) : KeepsWf s (execWarmResetDone s) :=
  keepsWf_onDev fun d hd => by simp -implicitDefEqProofs [hd]

@[simp] theorem execStandby_keepsWf (s : State) : KeepsWf s (execStandby s) :=
  keepsWf_onPwr fun d hd => by
    extract_lets d1 d2 d3 d4
    have h2 : d2.mem.ram.wf = true := by simp -implicitDefEqProofs [d2, d1, hd]
    have h3 : d3.mem.ram.wf = true := Dev.foldl_wf (fun e i he => Dev.bringHome_wf _ _ he) _ h2
    split
    · exact Dev.foldl_wf (fun e p he => by split <;> simp -implicitDefEqProofs [he]) _ (by simp -implicitDefEqProofs [d4, h3])
    · simp -implicitDefEqProofs [hd]

@[simp] theorem execStandbyDone_keepsWf (s : State) : KeepsWf s (execStandbyDone s) :=
  keepsWf_onDev fun d hd => by
    dsimp only
    split <;> simp -implicitDefEqProofs [Dev.clearSram_wf, hd]

@[simp] theorem execWake_keepsWf (s : State) : KeepsWf s (execWake s) :=
  keepsWf_onPwr fun d hd => by
    extract_lets old d1 d2 d3
    have h1 : d1.mem.ram.wf = true := by simp -implicitDefEqProofs [d1, hd]
    clear_value d1
    have h2 : d2.mem.ram.wf = true := by
      unfold d2
      refine Dev.foldl_wf (fun e c he => ?_) _ h1
      split
      · exact he
      · exact Dev.clearCluster_wf _ _ he
    clear_value d2
    have h3 : d3.mem.ram.wf = true := by
      unfold d3
      exact Dev.foldl_wf (fun e p he => by split <;> simp -implicitDefEqProofs [he]) _ h2
    clear_value d3
    split
    · exact Dev.foldl_wf (fun e n he => by split <;> simp -implicitDefEqProofs [he]) _ h3
    · simp -implicitDefEqProofs [hd]

@[simp] theorem execWakeDone_keepsWf (s : State) : KeepsWf s (execWakeDone s) := keepsWf_onDev fun d hd => by simp -implicitDefEqProofs [hd]

@[simp] theorem execPerst_keepsWf (n : Fin 4) (s : State) : KeepsWf s (execPerst n s) :=
  keepsWf_onDev fun d hd => by simp -implicitDefEqProofs [hd]

@[simp] theorem execPerstRelease_keepsWf (n : Fin 4) (s : State) : KeepsWf s (execPerstRelease n s) :=
  keepsWf_onDev fun d hd => by simp -implicitDefEqProofs [hd]

@[simp] theorem execPf0Flr_keepsWf (s : State) : KeepsWf s (execPf0Flr s) := keepsWf_onDev fun d hd => by simp -implicitDefEqProofs [hd]

@[simp] theorem execReferenceClockLoss_keepsWf (ref : RefClock) (s : State) : KeepsWf s (execReferenceClockLoss ref s) :=
  keepsWf_onDev fun d hd => by
    dsimp only
    repeat' split
    all_goals simp -implicitDefEqProofs [hd]

@[simp] theorem execReferenceClockReturn_keepsWf (g : Fin 4) (s : State) : KeepsWf s (execReferenceClockReturn g s) :=
  keepsWf_onDev fun d hd => by simp -implicitDefEqProofs [hd]

@[simp] theorem execTapInstruction_keepsWf (i : TapInstr) (s : State) : KeepsWf s (execTapInstruction i s) :=
  keepsWf_onDev fun d hd => by simp -implicitDefEqProofs [hd]

@[simp] theorem execSetEndpointId_keepsWf (eid : BitVec 8) (s : State) : KeepsWf s (execSetEndpointId eid s) :=
  keepsWf_onMgt fun d hd => by simp -implicitDefEqProofs [hd]

@[simp] theorem execGetEndpointId_keepsWf (s : State) : KeepsWf s (execGetEndpointId s) :=
  keepsWf_onMgt fun d hd => by simp -implicitDefEqProofs [hd]

@[simp] theorem execGetEndpointUuid_keepsWf (s : State) : KeepsWf s (execGetEndpointUuid s) :=
  keepsWf_onMgt fun d hd => by simp -implicitDefEqProofs [hd]

@[simp] theorem execGetMctpVersionSupport_keepsWf (type : BitVec 8) (s : State) : KeepsWf s (execGetMctpVersionSupport type s) :=
  keepsWf_onMgt fun d hd => by simp -implicitDefEqProofs [hd]

@[simp] theorem execGetMessageTypeSupport_keepsWf (s : State) : KeepsWf s (execGetMessageTypeSupport s) :=
  keepsWf_onMgt fun d hd => by simp -implicitDefEqProofs [hd]

@[simp] theorem execUnsupportedMessageType_keepsWf (type : BitVec 8) (s : State) : KeepsWf s (execUnsupportedMessageType type s) :=
  keepsWf_onMgt fun d hd => by simp -implicitDefEqProofs [hd]

@[simp] theorem execPecError_keepsWf (s : State) : KeepsWf s (execPecError s) := keepsWf_onMgt fun d hd => by simp -implicitDefEqProofs [hd]

@[simp] theorem execAlertResponse_keepsWf (s : State) : KeepsWf s (execAlertResponse s) :=
  keepsWf_onMgt fun d hd => by simp -implicitDefEqProofs [hd]

@[simp] theorem execSettid_keepsWf (tid : BitVec 8) (s : State) : KeepsWf s (execSettid tid s) :=
  keepsWf_onMgt fun d hd => by simp -implicitDefEqProofs [hd]

@[simp] theorem execGettid_keepsWf (s : State) : KeepsWf s (execGettid s) := keepsWf_onMgt fun d hd => by simp -implicitDefEqProofs [hd]

@[simp] theorem execGetpldmversion_keepsWf (type : BitVec 8) (s : State) : KeepsWf s (execGetpldmversion type s) :=
  keepsWf_onMgt fun d hd => by
    repeat' split
    all_goals simp -implicitDefEqProofs [hd]

@[simp] theorem execGetpldmtypes_keepsWf (s : State) : KeepsWf s (execGetpldmtypes s) :=
  keepsWf_onMgt fun d hd => by simp -implicitDefEqProofs [hd]

@[simp] theorem execGetpldmcommands_keepsWf (type : BitVec 8) (s : State) : KeepsWf s (execGetpldmcommands type s) :=
  keepsWf_onMgt fun d hd => by simp -implicitDefEqProofs [hd]

@[simp] theorem execUnsupportedPldmCmd_keepsWf (type command : BitVec 8) (s : State) : KeepsWf s (execUnsupportedPldmCmd type command s) :=
  keepsWf_onMgt fun d hd => by simp -implicitDefEqProofs [hd]

@[simp] theorem execGetsensorreading_keepsWf (sensor : BitVec 16) (s : State) : KeepsWf s (execGetsensorreading sensor s) :=
  keepsWf_onMgt fun d hd => by simp -implicitDefEqProofs [hd]

@[simp] theorem execGetstatesensorreadings_keepsWf (sensor : BitVec 16) (s : State) : KeepsWf s (execGetstatesensorreadings sensor s) :=
  keepsWf_onMgt fun d hd => by simp -implicitDefEqProofs [hd]

@[simp] theorem execSetnumericsensorenable_keepsWf (sensor : BitVec 16) (on : Bool) (s : State) :
    KeepsWf s (execSetnumericsensorenable sensor on s) := keepsWf_onMgt fun d hd => by simp -implicitDefEqProofs [hd]

@[simp] theorem execSetstatesensorenables_keepsWf (sensor : BitVec 16) (on : Bool) (s : State) :
    KeepsWf s (execSetstatesensorenables sensor on s) := keepsWf_onMgt fun d hd => by simp -implicitDefEqProofs [hd]

@[simp] theorem execGetpdrrepositoryinfo_keepsWf (s : State) : KeepsWf s (execGetpdrrepositoryinfo s) :=
  keepsWf_onMgt fun d hd => by simp -implicitDefEqProofs [hd]

@[simp] theorem execGetpdr_keepsWf (handle : BitVec 32) (s : State) : KeepsWf s (execGetpdr handle s) :=
  keepsWf_onMgt fun d hd => by
    dsimp only
    repeat' split
    all_goals simp -implicitDefEqProofs [hd]

@[simp] theorem execPollforplatformeventmessage_keepsWf (s : State) : KeepsWf s (execPollforplatformeventmessage s) :=
  keepsWf_onMgt fun d hd => by
    dsimp only
    repeat' split
    all_goals simp -implicitDefEqProofs [hd]

@[simp] theorem execGetBst_keepsWf (s : State) : KeepsWf s (execGetBst s) := keepsWf_onMgt fun d hd => by simp -implicitDefEqProofs [hd]

@[simp] theorem execGetRecord_keepsWf (entry : BitVec 8) (s : State) : KeepsWf s (execGetRecord entry s) :=
  keepsWf_onMgt fun d hd => by simp -implicitDefEqProofs [hd]

@[simp] theorem execGetState_keepsWf (s : State) : KeepsWf s (execGetState s) := keepsWf_onMgt fun d hd => by simp -implicitDefEqProofs [hd]

@[simp] theorem execVendorWarmReset_keepsWf (s : State) : KeepsWf s (execVendorWarmReset s) :=
  keepsWf_onMgt fun d hd => by simp -implicitDefEqProofs [hd]

@[simp] theorem execUnknownVendorCommand_keepsWf (command : BitVec 8) (s : State) : KeepsWf s (execUnknownVendorCommand command s) :=
  keepsWf_onMgt fun d hd => by simp -implicitDefEqProofs [hd]

@[simp] theorem execRcRead_keepsWf (fn : Fin 264) (off size : Nat) (s : State) : KeepsWf s (execRcRead fn off size s) :=
  keepsWf_onDev fun d hd => by simp -implicitDefEqProofs [hd]

@[simp] theorem execLowerHalfRead_keepsWf (off : Nat) (s : State) : KeepsWf s (execLowerHalfRead off s) :=
  keepsWf_onDev fun d hd => by simp -implicitDefEqProofs [hd]

@[simp] theorem execRegisterWrite_keepsWf (fn : Fin 264) (off size : Nat) (val : W64) (s : State) :
    KeepsWf s (execRegisterWrite fn off size val s) := keepsWf_onDev fun d hd => by simp -implicitDefEqProofs [hd]

@[simp] theorem execLowerHalfWrite_keepsWf (off : Nat) (val : W32) (s : State) : KeepsWf s (execLowerHalfWrite off val s) :=
  keepsWf_onDev fun d hd => by simp -implicitDefEqProofs [hd]

@[simp] theorem execUpperHalfWrite_keepsWf (off : Nat) (val : W32) (s : State) : KeepsWf s (execUpperHalfWrite off val s) :=
  keepsWf_onDev fun d hd => by simp -implicitDefEqProofs [hd]

@[simp] theorem execSanitize_keepsWf (s : State) : KeepsWf s (execSanitize s) := keepsWf_onSec fun d hd => by simp -implicitDefEqProofs [hd]

@[simp] theorem execSanitizeDone_keepsWf (s : State) : KeepsWf s (execSanitizeDone s) :=
  keepsWf_onDev fun d hd => by simp -implicitDefEqProofs [hd]

end Sys2Proof.Machine
end

section
/-! PROOFS. Memory keeps its canonical form (O56). -/
namespace Sys2Proof.Machine
open Sys2Proof

/-- Every command keeps memory in its canonical form. -/
theorem exec_keepsWf (i : Instr) (s : State) : KeepsWf s (exec i s) := by
  cases i <;> simp [exec]

/-- A tick of the idle block keeps memory in its canonical form, whatever instruction the tile issues. -/
theorem idle_keepsWf (s : State) : KeepsWf s (idle s) := by
  intro h t
  have hd : s.dev.tick.mem.ram.wf = true := by rw [Dev.tick_ram, h]
  unfold idle
  extract_lets d
  split
  · rintro ⟨⟩
    exact hd
  next n _ =>
    extract_lets e
    have he : e.mem.ram.wf = true := hd
    split
    · exact exec_keepsWf _ _ he t
    · rintro ⟨⟩
      simpa using he

theorem step_keepsWf (s : State) : KeepsWf s (step s) := by
  unfold step
  split
  · exact idle_keepsWf s
  next c rest _ =>
    intro h t
    exact exec_keepsWf c { s with pending := rest } h t

/-- Settles O56: every command keeps memory canonical, and a step is a command or a tick of the idle block. -/
theorem memoryStaysCanonical : Obligations.MemoryStaysCanonical := fun s t h ht => step_keepsWf s h t ht

end Sys2Proof.Machine
end

section
/-! PROOFS. What the access code of a field makes of a write (R9, R10). -/
namespace Sys2Proof.Machine
open Sys2Proof

/-- Taking away the bits that two numbers share clears them. -/
theorem testBit_sub_and (o x i : Nat) : (o - (o &&& x)).testBit i = (o.testBit i && !x.testBit i) := by
  have hdiv (o x : Nat) : (o - (o &&& x)) / 2 = o / 2 - (o / 2 &&& x / 2) ∧ ((o - (o &&& x)) % 2 = 1 ↔ o % 2 = 1 ∧ ¬ x % 2 = 1) := by
    have hq := Nat.and_div_two (a := o) (b := x)
    have hm := Nat.and_mod_two_eq_one (a := o) (b := x)
    have hl : (o &&& x) ≤ o := Nat.and_le_left
    omega
  induction i generalizing o x with
  | zero => simp only [Nat.testBit_zero, (hdiv o x).2, Bool.decide_and, decide_not]
  | succ i ih => simp only [Nat.testBit_succ, (hdiv o x).1, ih]

theorem FieldDef.write_outside (f : FieldDef) (committed : Bool) (old v : W64) {i : Nat} (hi : i < 64) (h : i < f.lo ∨ f.lo + f.w ≤ i) :
    (f.write committed old v).getLsbD i = old.getLsbD i := by
  have hs (y : Nat) : (bvSet old f.lo f.w y).getLsbD i = old.getLsbD i := by
    rw [getLsbD_bvSet _ _ _ _ _ hi, if_neg (by omega)]
  unfold FieldDef.write
  dsimp only
  repeat' split
  all_goals simp [hs]

section
variable {f : FieldDef} {committed : Bool} {old v : W64}

theorem FieldDef.write_still (ha : f.acc = .ro ∨ f.acc = .rc ∨ f.acc = .wo) : f.write committed old v = old := by
  rcases ha with ha | ha | ha <;> simp [FieldDef.write, ha]

theorem FieldDef.write_locked (ha : f.acc = .rwl) : f.write true old v = old := by simp [FieldDef.write, ha]

/-- A write replaces a field that takes it: an RW field, and an RWL field before COMMIT. -/
def FieldDef.takes (f : FieldDef) (committed : Bool) : Prop := f.acc = .rw ∨ f.acc = .rwl ∧ committed = false

variable (ho : f.own = false) (hw : f.lo + f.w ≤ 64)
include ho hw

theorem FieldDef.bvFld_write (ht : f.takes committed) (hc : f.clamp = none) :
    bvFld (f.write committed old v) f.lo f.w = bvFld v f.lo f.w := by
  have hx : bvFld v f.lo f.w % 2 ^ f.w = bvFld v f.lo f.w := Nat.mod_mod _ _
  rcases ht with ha | ⟨ha, rfl⟩ <;> simp [FieldDef.write, ho, ha, hc, bvFld_bvSet_same _ _ _ _ hw, hx]

theorem FieldDef.bvFld_write_clamp (ht : f.takes committed) {a b : Nat} (hc : f.clamp = some (a, b)) :
    bvFld (f.write committed old v) f.lo f.w = max a (min b (bvFld v f.lo f.w)) % 2 ^ f.w := by
  rcases ht with ha | ⟨ha, rfl⟩ <;> simp [FieldDef.write, ho, ha, hc, bvFld_bvSet_same _ _ _ _ hw]

theorem FieldDef.testBit_write_w1c (ha : f.acc = .w1c) {i : Nat} (hi : i < f.w) :
    (bvFld (f.write committed old v) f.lo f.w).testBit i = ((bvFld old f.lo f.w).testBit i && !(bvFld v f.lo f.w).testBit i) := by
  simp [FieldDef.write, ho, ha, bvFld_bvSet_same _ _ _ _ hw, hi, testBit_sub_and]

theorem FieldDef.testBit_write_w1s (ha : f.acc = .w1s) {i : Nat} (hi : i < f.w) :
    (bvFld (f.write committed old v) f.lo f.w).testBit i = ((bvFld old f.lo f.w).testBit i || (bvFld v f.lo f.w).testBit i) := by
  simp [FieldDef.write, ho, ha, bvFld_bvSet_same _ _ _ _ hw, hi]

end

end Sys2Proof.Machine
end

section
/-! PROOFS. Accesses to PF0's BAR0, a rule for each kind of offset (R9, R11, R16, R551, R593, R594). -/
namespace Sys2Proof.Machine
open Sys2Proof

theorem barAccess_word {off : Nat} (h : off % 4 = 0) : barAccess off 4 = true := by simp [barAccess, h]

theorem Dev.hasBar0_pf0 (d : Dev) : d.hasBar0 0 = true := by simp [Dev.hasBar0, Dev.isFn, isVf]

theorem upperOf_add_four {off : Nat} {r : RegDef} (h : findReg off = some r) (hw : r.wide = true) : upperOf (off + 4) = some (off, r) := by
  simp [upperOf, h, hw]

/-! ## What a word's offset makes of a write and of a read -/

section
variable {d : Dev} {off : Nat} {r : RegDef}

theorem Dev.write32_narrow (h : findReg off = some r) (hw : r.wide = false) (v : W32) : d.write32 off v = d.applyReg off r (v.setWidth 64) := by
  simp [Dev.write32, h, hw]

theorem Dev.write32_lower (h : findReg off = some r) (hw : r.wide = true) (v : W32) :
    d.write32 off v = d.upReg (fun x => { x with stage := x.stage.set off v }) := by
  simp [Dev.write32, h, hw]

theorem Dev.write32_upper (h : findReg off = some r) (hw : r.wide = true) (hn : findReg (off + 4) = none) (v : W32) :
    d.write32 (off + 4) v = d.applyReg off r ((d.reg.stage.get (lowHalf (regReset off)) off).setWidth 64 ||| (v.setWidth 64 <<< 32)) := by
  simp [Dev.write32, hn, upperOf_add_four h hw]

theorem Dev.write32_none (h : findReg off = none) (hu : upperOf off = none) (hm : mboxAt off = none) (v : W32) : d.write32 off v = d := by
  simp [Dev.write32, h, hu, hm]

theorem Dev.read32_narrow (h : findReg off = some r) (hw : r.wide = false) : d.read32 off = (d.readEffect off r, lowHalf (d.regView off)) := by
  simp [Dev.read32, h, hw]

theorem Dev.read32_lower (h : findReg off = some r) (hw : r.wide = true) :
    d.read32 off = ((d.readEffect off r).upReg (fun x => { x with latch := x.latch.set off (highHalf (d.regView off)) }), lowHalf (d.regView off)) := by
  simp [Dev.read32, h, hw]

theorem Dev.read32_none (h : findReg off = none) (hu : upperOf off = none) (hm : mboxAt off = none) : d.read32 off = (d, 0) := by
  simp [Dev.read32, h, hu, hm]

end

/-! ## The accesses themselves -/

theorem Dev.alive_stage (d : Dev) (off : Nat) (lo : W32) : (d.upReg fun x => { x with stage := x.stage.set off lo }).alive = d.alive := by
  have h : (d.upReg fun x => { x with stage := x.stage.set off lo }).fget Reg.PWR_STATE_STATE = d.fget Reg.PWR_STATE_STATE := by
    simp only [Dev.fget, Dev.regGet, Dev.upReg]
  simp only [Dev.alive, h]
  rfl

theorem exec_registerWrite_misaligned (s : State) {off size : Nat} (h : barAccess off size = false) (v : W64) :
    exec (.registerWrite 0 off size v) s = .next s := by
  change execRegisterWrite 0 off size v s = _
  simp [execRegisterWrite, onDev, Dev.bar0Write, h]

section
variable {s : State} (ha : s.dev.alive = true)
include ha

theorem exec_registerWrite_word {off : Nat} (h : off % 4 = 0) (v : W64) :
    exec (.registerWrite 0 off 4 v) s = .next (s.withDev (s.dev.write32 off (lowHalf v))) := by
  change execRegisterWrite 0 off 4 v s = _
  simp [execRegisterWrite, onDev, State.withDev, ha, Dev.hasBar0_pf0, Dev.bar0Write, barAccess_word h, Dev.bar0Write32]

theorem exec_rcRead_pf0 (off size : Nat) :
    exec (.rcRead 0 off size) s = .next (s.withDev ((s.dev.bar0Read 0 off size).1.emit (.regRead 0 off size (s.dev.bar0Read 0 off size).2))) := by
  obtain ⟨⟨hc, hi⟩, hp⟩ : (s.dev.pw.cold = false ∧ s.dev.pw.initDone = true) ∧ s.dev.fget Reg.PWR_STATE_STATE ≠ 4 := by
    simpa [Dev.alive] using ha
  change execRcRead 0 off size s = _
  simp [execRcRead, onDev, State.withDev, Dev.hasBar0_pf0, hc, hi, hp]

theorem exec_rcRead_word {off : Nat} (h : off % 4 = 0) :
    exec (.rcRead 0 off 4) s = .next (s.withDev ((s.dev.read32 off).1.emit (.regRead 0 off 4 ((s.dev.read32 off).2.setWidth 64)))) := by
  rw [exec_rcRead_pf0 ha]
  simp [Dev.bar0Read, barAccess_word h, Dev.bar0Read32]

theorem exec_rcRead_misaligned {off size : Nat} (h : barAccess off size = false) :
    exec (.rcRead 0 off size) s = .next (s.withDev (s.dev.emit (.regRead 0 off size 0))) := by
  rw [exec_rcRead_pf0 ha]
  simp [Dev.bar0Read, h]

section
variable {off : Nat} {r : RegDef} (h : findReg off = some r) (hw : r.wide = true)
include h hw

theorem exec_lowerHalfWrite_wide (lo : W32) :
    exec (.lowerHalfWrite off lo) s = .next (s.withDev (s.dev.upReg fun x => { x with stage := x.stage.set off lo })) := by
  change execLowerHalfWrite off lo s = _
  simp [execLowerHalfWrite, onDev, State.withDev, ha, h, hw, Dev.write32_lower h hw]

theorem exec_upperHalfWrite_wide (hn : findReg (off + 4) = none) (hi : W32) :
    exec (.upperHalfWrite (off + 4) hi) s = .next (s.withDev (s.dev.applyReg off r
      ((s.dev.reg.stage.get (lowHalf (regReset off)) off).setWidth 64 ||| (hi.setWidth 64 <<< 32)))) := by
  change execUpperHalfWrite (off + 4) hi s = _
  simp [execUpperHalfWrite, onDev, State.withDev, ha, upperOf_add_four h hw, Dev.write32_upper h hw hn]

theorem exec_lowerHalfRead_wide :
    exec (.lowerHalfRead off) s = .next (s.withDev (((s.dev.readEffect off r).upReg fun x =>
      { x with latch := x.latch.set off (highHalf (s.dev.regView off)) }).emit (.regRead 0 off 4 ((lowHalf (s.dev.regView off)).setWidth 64)))) := by
  change execLowerHalfRead off s = _
  simp [execLowerHalfRead, onDev, State.withDev, ha, h, hw, Dev.read32_lower h hw]

end

end

end Sys2Proof.Machine
end

section
/-! PROOFS. Accesses to BAR0 (O51). -/
namespace Sys2Proof.Machine
open Sys2Proof

/-- Settles O51: the access codes bit by bit, then each access by the kind of its offset. -/
theorem registerAccessResults : Obligations.RegisterAccessResults := by
  refine ⟨fun f committed old v ho hw => ?_, fun s ha => ⟨?_, ?_, ?_, ?_⟩⟩
  · refine ⟨fun i hi h => f.write_outside committed old v hi h, FieldDef.write_still, fun hacc => ?_, fun hacc => ?_,
      fun hacc i hi => FieldDef.testBit_write_w1c ho hw hacc hi, fun hacc i hi => FieldDef.testBit_write_w1s ho hw hacc hi⟩
    · cases hc : f.clamp with
      | none => exact FieldDef.bvFld_write ho hw (.inl hacc) hc
      | some p => exact FieldDef.bvFld_write_clamp ho hw (.inl hacc) hc
    · cases committed with
      | true => rw [FieldDef.write_locked hacc, if_pos rfl]
      | false =>
        rw [if_neg Bool.false_ne_true]
        cases hc : f.clamp with
        | none => exact FieldDef.bvFld_write ho hw (.inr ⟨hacc, rfl⟩) hc
        | some p => exact FieldDef.bvFld_write_clamp ho hw (.inr ⟨hacc, rfl⟩) hc
  · intro off r h hw hal v
    refine ⟨?_, ?_⟩
    · rw [exec_registerWrite_word ha hal, Dev.write32_narrow h hw]
      rfl
    · rw [exec_rcRead_word ha hal, Dev.read32_narrow h hw]
  · intro off r h hw lo
    dsimp only
    refine ⟨exec_lowerHalfWrite_wide ha h hw lo, fun hn hi => ?_, exec_lowerHalfRead_wide ha h hw⟩
    have he : (s.withDev (s.dev.upReg fun x => { x with stage := x.stage.set off lo })).dev.alive = true := (Dev.alive_stage _ _ _).trans ha
    rw [exec_upperHalfWrite_wide he h hw hn hi]
    simp only [State.withDev, Dev.upReg, Tab.get_set_same]
  · intro off h hu hm hal v
    refine ⟨?_, ?_⟩
    · rw [exec_registerWrite_word ha hal, Dev.write32_none h hu hm]
      rfl
    · rw [exec_rcRead_word ha hal, Dev.read32_none h hu hm]
      rfl
  · intro off size h v
    exact ⟨exec_registerWrite_misaligned s h v, exec_rcRead_misaligned ha h⟩

end Sys2Proof.Machine
end

section
/-! PROOFS. What the image unit's commands and events and SANITIZE make of the device, a rule for each outcome (R63, R64,
R70 to R78, R501). -/
namespace Sys2Proof.Machine
open Sys2Proof

/-! ## The table checks of a whole image -/

theorem Dev.commitWhole_of_fail {d : Dev} {b : Blob} {t : Nat} (h : firstFail (d.wholeCandidate b).wholeChecks = some t) :
    d.commitWhole b = d.imgReject .malformed 0x0B (errSection b t) := by
  simp only [Dev.commitWhole, h]

theorem Dev.commitWhole_of_pass {d : Dev} {b : Blob} (h : firstFail (d.wholeCandidate b).wholeChecks = none) :
    ∃ e : Dev, d.commitWhole b = e.imgDone 0 .ok 0 0 := by
  unfold Dev.commitWhole
  extract_lets
  rw [h]
  exact ⟨_, rfl⟩

/-! ## LOAD, ABORT and COMMIT -/

section
variable {s : State} (ha : s.dev.alive = true) (hs : s.dev.inStandby = false)
include ha hs

theorem imgCmd_accepted {ok : Nat → Bool} (hok : ok s.dev.imgState = true) (f : Dev → Dev) : imgCmd s ok f = .next (s.withDev (f s.dev)) := by
  simp [imgCmd, onDev, State.withDev, ha, hs, hok]

theorem imgCmd_refused {ok : Nat → Bool} (hok : ok s.dev.imgState = false) (f : Dev → Dev) :
    imgCmd s ok f = .next (s.withDev (s.dev.fset Reg.IMG_STATUS_CMD_ERR 1)) := by
  simp [imgCmd, onDev, State.withDev, ha, hs, hok]

theorem exec_load_accepted (hst : s.dev.imgState = 0 ∨ s.dev.imgState = 5) : exec .load s = .next (s.withDev (s.dev.setImgState 1)) := by
  change execLoad s = _
  rw [execLoad, imgCmd_accepted ha hs (decide_eq_true hst)]

theorem exec_abort_drops (h4 : s.dev.imgState ≠ 4) (h0 : s.dev.imgState ≠ 0) : exec .abort s = .next (s.withDev s.dev.imgDrop) := by
  change execAbort s = _
  rw [execAbort, imgCmd_accepted ha hs (decide_eq_true h4), if_neg h0]

theorem exec_abort_committing (h4 : s.dev.imgState = 4) : exec .abort s = .next (s.withDev (s.dev.fset Reg.IMG_STATUS_CMD_ERR 1)) := by
  change execAbort s = _
  rw [execAbort, imgCmd_refused ha hs (decide_eq_false (not_not_intro h4))]

/-- COMMIT in VERIFIED: the checks of R72 in their order, then the commit of a whole image or the drain of a scoped one. -/
theorem exec_commit_verified (hst : s.dev.imgState = 3) {x : Staged} (hx : s.dev.img.staged = some x) : exec .commit s = .next (s.withDev
    (if imgVariant x.bytes = true ∧ s.dev.fon Reg.IMG_POLICY_REFUSE_VARIANT = true then s.dev.imgReject .varianceRefused 0x09 0xFF
     else if imgScoped x.bytes = true ∧ s.dev.epochsMatch x.bytes (imgPart x.bytes) = false then
       s.dev.imgReject .roleEpochMismatch 0x0A 0xFF
     else if s.dev.stageBad 0 x.bytes.len then s.dev.imgReject .uncorrectable 0x0D 0xFF
     else if imgScoped x.bytes = false then s.dev.commitWhole x.bytes
     else (s.dev.upImg (fun i => { i with committing := some ⟨imgPart x.bytes⟩ })).setImgState 4)) := by
  change execCommit s = _
  rw [execCommit, imgCmd_accepted ha hs (decide_eq_true hst)]
  simp only [hx]

end

/-! ## The ends of the copy, of the verification and of a drain -/

section
variable {s : State} (hl : s.dev.live = true)
include hl

section
variable (hst : s.dev.imgState = 1) {e : Dev} (he : s.dev.readEnd .command = e) {len : Nat} (hn : e.fget Reg.IMG_STAGE_LEN_LEN = len) (b : Blob)
include hst he hn

theorem exec_imageCopyDone_passes (h : e.imgLoadFault len (b.sub 0 len) = none) : exec (.imageCopyDone (.ok b)) s = .next (s.withDev
    (((e.stageHeal len).upImg (fun i => { i with staged := some ⟨b.sub 0 len⟩ })).setImgState 2)) := by
  change execImageCopyDone (.ok b) s = _
  simp [execImageCopyDone, onDev, State.withDev, hl, hst, he, hn, h]

theorem exec_imageCopyDone_rejects {r i : Nat} (h : e.imgLoadFault len (b.sub 0 len) = some (r, i)) :
    exec (.imageCopyDone (.ok b)) s = .next (s.withDev (e.imgReject (if r = 6 then .authFail else .malformed) r i)) := by
  change execImageCopyDone (.ok b) s = _
  simp [execImageCopyDone, onDev, State.withDev, hl, hst, he, hn, h]

end

/-- IMAGE_VERIFY_DONE over a readable header and signature: checks 5 and 6 of R64. -/
theorem exec_imageVerifyDone_verifying (hst : s.dev.imgState = 2) {x : Staged} (hx : s.dev.img.staged = some x) (hh : s.dev.stageBad 0 4096 = false)
    (hg : s.dev.stageBad (x.bytes.len - 7856) 7856 = false) : exec .imageVerifyDone s = .next (s.withDev
    (if imagePkOk = false ∨ Config.slhVerify Config.imagePk (imgHeader x.bytes) (x.bytes.bytes (x.bytes.len - 7856) 7856) = false then
       s.dev.imgReject .authFail 7 0xFF
     else if imgSecurity x.bytes < s.dev.rollback then s.dev.imgReject .authFail 8 0xFF
     else s.dev.imgDone 3 .ok 0 0)) := by
  change execImageVerifyDone s = _
  simp [execImageVerifyDone, onDev, State.withDev, hl, hst, hx, hh, hg]

section
variable {p : Fin 32} (hp : s.dev.partHeld p.val = true)
include hp

theorem exec_partitionDrainDone_idle {x : Staged} (hx : s.dev.img.staged = some x) (hb : s.dev.partBusy p.val = false) :
    exec (.partitionDrainDone p) s = .next (s.withDev ((s.dev.stopPart p.val).finishScoped x.bytes p.val).sanitizeAfter) := by
  change execPartitionDrainDone p s = _
  simp [execPartitionDrainDone, onDev, State.withDev, hl, hx, hp, hb]

theorem exec_drainLimitExpiry_busy (hb : s.dev.partBusy p.val = true) :
    exec (.drainLimitExpiry p) s = .next (s.withDev (s.dev.imgReject .flushed 0x0C 0xFF).sanitizeAfter) := by
  change execDrainLimitExpiry p s = _
  simp [execDrainLimitExpiry, onDev, State.withDev, hl, hp, hb]

end

end

/-! ## SANITIZE -/

theorem onSec_accepted {s : State} (ha : s.dev.alive = true) (hb : s.dev.fon Reg.SEC_CMD_STATUS_BUSY = false) (f : Dev → Dev) :
    onSec s f = .next (s.withDev (f s.dev)) := by
  simp [onSec, onDev, State.withDev, ha, hb]

/-- SANITIZE waits for a running commit and else runs at once (R501). -/
theorem exec_sanitize_accepted {s : State} (ha : s.dev.alive = true) (hb : s.dev.fon Reg.SEC_CMD_STATUS_BUSY = false) :
    let e := s.dev.fset Reg.SEC_CMD_STATUS_BUSY 1
    exec .sanitize s = .next (s.withDev
      (if e.imgState = 4 then e.upTr (fun t => { t with sanitizeDue := true }) else e.sanitizeRun)) := by
  change execSanitize s = _
  rw [execSanitize, onSec_accepted ha hb]

theorem exec_sanitizeDone_sanitizing {s : State} (h : s.dev.tr.sanitizing = true) : exec .sanitizeDone s = .next (s.withDev
    (((s.dev.upTr (fun t => { t with sanitizing := false })).secStatus .ok).post 0 (.other 0x3E) 0 0)) := by
  change execSanitizeDone s = _
  simp only [execSanitizeDone, onDev, State.withDev, h, if_true]

end Sys2Proof.Machine
end

section
/-! PROOFS. Images and SANITIZE (O45). -/
namespace Sys2Proof.Machine
open Sys2Proof

/-- Settles O45: each clause is the rule of its command or event, with the branch its hypotheses choose. -/
theorem imageResults : Obligations.ImageResults := by
  intro s
  refine ⟨fun ha hs => ⟨exec_load_accepted ha hs, fun hst => ?_, exec_abort_committing ha hs, fun hst x hx => ?_⟩,
    fun hl hst b => ?_, fun hl hst x hx hh hg => ?_,
    fun p x hl hp hx => ⟨exec_partitionDrainDone_idle hl hp hx, exec_drainLimitExpiry_busy hl hp⟩, fun ha hb => ?_,
    exec_sanitizeDone_sanitizing⟩
  · exact exec_abort_drops ha hs (by omega) (by omega)
  · extract_lets b refused stale
    have hrefused : (imgVariant x.bytes = true ∧ s.dev.fon Reg.IMG_POLICY_REFUSE_VARIANT = true) ↔ refused = true :=
      Bool.and_eq_true_iff.symm
    have hstale : (imgScoped x.bytes = true ∧ s.dev.epochsMatch x.bytes (imgPart x.bytes) = false) ↔ stale = true := by
      simp [stale, b]
    simp only [exec_commit_verified ha hs hst hx, hrefused, hstale]
    refine ⟨fun hv => ?_, fun hv he => ?_, fun hv he hb => ?_⟩
    · rw [if_pos hv]
    · rw [if_neg (Bool.eq_false_iff.mp hv), if_pos he]
    · rw [if_neg (Bool.eq_false_iff.mp hv), if_neg (Bool.eq_false_iff.mp he), if_neg (Bool.eq_false_iff.mp hb)]
      refine ⟨fun hw => ?_, fun hw => ?_⟩
      · rw [if_neg (ne_false_of_eq_true hw)]
        rfl
      · rw [if_pos hw]
        cases h : firstFail (s.dev.wholeCandidate b).wholeChecks with
        | some t => exact Dev.commitWhole_of_fail h ▸ rfl
        | none => exact ⟨rfl, Dev.commitWhole_of_pass h⟩
  · extract_lets e len
    cases h : e.imgLoadFault len (b.sub 0 len) with
    | none => exact exec_imageCopyDone_passes hl hst rfl rfl b h
    | some f => exact exec_imageCopyDone_rejects hl hst rfl rfl b h
  · extract_lets signed
    have hsigned : (imagePkOk = false ∨ Config.slhVerify Config.imagePk (imgHeader x.bytes) (x.bytes.bytes (x.bytes.len - 7856) 7856) = false) ↔
        signed = false := Bool.and_eq_false_iff.symm
    simp only [exec_imageVerifyDone_verifying hl hst hx hh hg, hsigned]
  · have h := exec_sanitize_accepted ha hb
    exact ⟨fun h4 => h.trans (by rw [if_pos h4]), fun h4 => h.trans (by rw [if_neg h4])⟩

end Sys2Proof.Machine
end

section
/-! PROOFS. How an instruction that acts ends, a rule for each outcome of its body (R120, R122, R126, R137). -/
namespace Sys2Proof.Machine
open Sys2Proof

/-- An instruction of kind `k` acts on tile `t`: the tile is RUNNING, the instruction is legal there, and bit 0 of its mask is 1
unless its predicate is a lane mask. -/
def Acts (s : State) (t : Fin 512) (h : Head) (k : IssueKind) : Prop :=
  Runs s.dev t ∧ k.legal = true ∧ (k.variant = false ∨ s.dev.variantAllowed t = true) ∧
    (k.vector = true ∨ ((s.dev.tile t).mask h).getLsbD 0 = true)

section
variable {s : State} {t : Fin 512} {h : Head}

theorem Runs.acts (hr : Runs s.dev t) : Acts s t h { vector := true } := ⟨hr, rfl, .inl rfl, .inl rfl⟩

theorem Issues.acts_legal (hi : Issues s.dev t h) {l : Bool} (hl : l = true) : Acts s t h { legal := l } := ⟨hi.1, hl, .inl rfl, .inr hi.2⟩

theorem Issues.acts (hi : Issues s.dev t h) : Acts s t h {} := hi.acts_legal rfl

theorem Issues.acts_variant (hi : Issues s.dev t h) (hv : s.dev.variantAllowed t = true) : Acts s t h { variant := true } :=
  ⟨hi.1, rfl, .inr hv, .inr hi.2⟩

section
variable {k : IssueKind} {body : Dev → TRes} (ha : Acts s t h k)
include ha

theorem Acts.finish : onDev s (fun d => d.issue t h k body) = .next (s.withDev (s.dev.bump.finish t (body s.dev.bump))) := by
  obtain ⟨hr, hl, hv, hm⟩ := ha
  exact onDev_issue s t h k body hr hl hv hm

theorem Acts.done {e : Dev} (hb : body s.dev.bump = .done e) : onDev s (fun d => d.issue t h k body) = .next (s.seqAfter t e) := by
  rw [ha.finish, hb]
  rfl

theorem Acts.tileDone {x : Tile} (hb : body s.dev.bump = .done (s.dev.bump.setTile t x)) :
    onDev s (fun d => d.issue t h k body) = .next (s.tileDone t x) := ha.done hb

theorem Acts.trap {c : Cause} {a : Nat} (hb : body s.dev.bump = .trap c a) :
    onDev s (fun d => d.issue t h k body) = .next (s.tileTrapped t c a) := by
  rw [ha.finish, hb]
  rfl

theorem Acts.stay {e : Dev} (hb : body s.dev.bump = .stay e) : onDev s (fun d => d.issue t h k body) = .next (s.withDev e) := by
  rw [ha.finish, hb]
  rfl

theorem Acts.wait {e : Dev} {w : WaitKind} (hb : body s.dev.bump = .wait e w) :
    onDev s (fun d => d.issue t h k body) = .next (s.withDev (e.updTile t (fun x => { x with wait := some w }))) := by
  rw [ha.finish, hb]
  rfl

end

end

end Sys2Proof.Machine
end

section
/-! PROOFS. Lanes of vectors, merged under a mask (R120), and the bits of a mask. -/
namespace Sys2Proof.Machine
open Sys2Proof

theorem listOf_congr {α : Type} {n : Nat} {f g : Nat → α} (h : ∀ i < n, f i = g i) : listOf n f = listOf n g :=
  List.map_congr_left fun i hi => h i (List.mem_range.mp hi)

theorem lane_listOf {n i : Nat} (g : Nat → W32) (h : i < n) : lane (listOf n g) i = g i := by
  simp [lane, listOf, List.getD_eq_getElem?_getD, h]

theorem mergeLanes_congr (m : W32) (old : List W32) {new : List W32} {g : Nat → W32} (h : ∀ i < 32, lane new i = g i) :
    mergeLanes m old new = listOf 32 (fun i => if m.getLsbD i then g i else lane old i) :=
  listOf_congr fun i hi => by rw [h i hi]

theorem mergeLanes_listOf (m : W32) (old : List W32) (g : Nat → W32) :
    mergeLanes m old (listOf 32 g) = listOf 32 (fun i => if m.getLsbD i then g i else lane old i) :=
  mergeLanes_congr m old fun _ hi => lane_listOf g hi

theorem mergeLanes_replicate (m : W32) (old : List W32) (v : W32) :
    mergeLanes m old (List.replicate 32 v) = listOf 32 (fun i => if m.getLsbD i then v else lane old i) :=
  mergeLanes_congr m old fun _ hi => List.getD_replicate v hi

theorem getLsbD_allLanes {i : Nat} (h : i < 32) : (0xFFFFFFFF : W32).getLsbD i = true := by
  rw [show (0xFFFFFFFF : W32) = BitVec.allOnes 32 from rfl, BitVec.getLsbD_allOnes, decide_eq_true h]

theorem listOf_allLanes {α : Type} (f g : Nat → α) : listOf 32 (fun i => if (0xFFFFFFFF : W32).getLsbD i then f i else g i) = listOf 32 f :=
  listOf_congr fun _ hi => if_pos (getLsbD_allLanes hi)

theorem mergeLanes_allLanes (old new : List W32) : mergeLanes 0xFFFFFFFF old new = listOf 32 (lane new) := listOf_allLanes _ _

theorem testBit_foldl_or_shift (l : List Nat) (m i : Nat) :
    (l.foldl (fun m i => m ||| 1 <<< i) m).testBit i = (m.testBit i || decide (i ∈ l)) := by
  induction l generalizing m with
  | nil => simp
  | cons j l ih =>
    rw [List.foldl_cons, ih, Nat.testBit_or, Nat.one_shiftLeft, Nat.testBit_two_pow]
    simp [Bool.or_assoc, eq_comm]

theorem testBit_maskOf (l : List Nat) (i : Nat) : (maskOf l).testBit i = decide (i ∈ l) := by
  rw [maskOf, testBit_foldl_or_shift, Nat.zero_testBit, Bool.false_or]

theorem getLsbD_maskOf_filter (p : Nat → Bool) {n i : Nat} (h : i < n) :
    (BitVec.ofNat n (maskOf ((List.range n).filter p))).getLsbD i = p i := by
  rw [BitVec.getLsbD_ofNat, testBit_maskOf]
  simp [h]

end Sys2Proof.Machine
end

section
/-! PROOFS. Loads and stores at tile addresses, a rule for each outcome (R134, R135, R168). -/
namespace Sys2Proof.Machine
open Sys2Proof

section
variable {d : Dev} {t : Nat} {cm : Bool} {a n align : Nat}

theorem Dev.tileLoad_misaligned (h : a % align ≠ 0) (k : Dev → List Byte → TRes) : d.tileLoad t cm a n align k = .trap .illegalOperand a :=
  if_pos h

theorem Dev.tileLoad_ok {p : Nat} (h : a % align = 0) (hr : d.resolve t true cm false a n = .ok p) (k : Dev → List Byte → TRes) :
    d.tileLoad t cm a n align k = k (d.noteAccess false p n) (d.tileBytes p n) := by
  rw [Dev.tileLoad, if_neg (not_not_intro h), hr]

theorem Dev.tileStore_misaligned (h : a % align ≠ 0) (bs : List Byte) (k : Dev → TRes) :
    d.tileStore t cm a align bs k = .trap .illegalOperand a :=
  if_pos h

theorem Dev.tileStore_ok {p : Nat} {bs : List Byte} (h : a % align = 0) (hr : d.resolve t true cm true a bs.length = .ok p)
    (hs : d.writeSpoilt p bs.length = false) (k : Dev → TRes) : d.tileStore t cm a align bs k = k (d.memWrite p bs) := by
  rw [Dev.tileStore, if_neg (not_not_intro h), hr]
  simp only [hs, Bool.false_eq_true, if_false]

theorem Dev.tileOld_allLanes (k : List Byte → TRes) : d.tileOld t 0xFFFFFFFF a n align k = k [] := if_pos rfl

theorem Dev.tileOld_misaligned {m : W32} (hm : m ≠ 0xFFFFFFFF) (h : a % align ≠ 0) (k : List Byte → TRes) :
    d.tileOld t m a n align k = .trap .illegalOperand a := by
  rw [Dev.tileOld, if_neg hm, Dev.tileLoad_misaligned h]

end

end Sys2Proof.Machine
end

section
/-! PROOFS. The FP32 operations of lanes (O6). -/
namespace Sys2Proof.Machine
open Sys2Proof

theorem vectorOp_runs {s : State} {t : Fin 512} (hr : Runs s.dev t) (h : Head) (f : FmtR) (g : W32 → W32 → W32 → Flagged W32) :
    let x := s.dev.tile t
    let r := fun i => g (lane (x.vr f.a.toNat) i) (lane (x.vr f.b.toNat) i) (lane (x.vr f.c.toNat) i)
    vectorOp t h f g s = .next (s.tileDone t ((x.setV f.d.toNat
      (listOf 32 (fun i => if (x.mask h).getLsbD i then (r i).val else lane (x.vr f.d.toNat) i))).raise
        (laneFlags (x.mask h) (fun i => (r i).fl)))) := by
  refine hr.acts.tileDone ?_
  simp only [mergeLanes_listOf]
  rfl

/-- Settles O6: each of the instructions is a lane-by-lane operation, and its function of the lanes is the one named. -/
theorem vectorLaneResults : Obligations.VectorLaneResults := by
  intro s t h f hr
  have lanes := vectorOp_runs hr h f
  exact ⟨lanes fun a b _ => fAdd a b, lanes fun a b _ => fSub a b, lanes fun a b _ => fMul a b, lanes fun a b c => fFma a b c,
    lanes fun a b _ => fDiv a b, lanes fun a _ _ => fRcp a, lanes fun a _ _ => fSqrt a, lanes fun a _ _ => fRsqrt a,
    lanes fun a _ _ => fExp2 a, lanes fun a _ _ => fExp a, lanes fun a _ _ => fLog2 a, lanes fun a _ _ => fLog a,
    lanes fun a _ _ => fTanh a, lanes fun a _ _ => fSig a, lanes fun a _ _ => fSilu a, lanes fun a b _ => fMinMax false a b,
    lanes fun a b _ => fMinMax true a b, lanes fun a _ _ => ⟨fAbs a, 0⟩, lanes fun a _ _ => ⟨fNeg a, 0⟩⟩

end Sys2Proof.Machine
end

section
/-! PROOFS. Vector comparison, selection, conversion, integer operations, reduction and broadcast (O7). -/
namespace Sys2Proof.Machine
open Sys2Proof

/-- The bits that VCMP leaves in p(D): the comparisons `p` under the mask, and the old bits elsewhere. -/
def mergeBits (m old : W32) (p : Nat → Bool) : W32 := (old &&& ~~~m) ||| (BitVec.ofNat 32 (maskOf ((List.range 32).filter p)) &&& m)

theorem getLsbD_mergeBits (m old : W32) (p : Nat → Bool) {i : Nat} (h : i < 32) :
    (mergeBits m old p).getLsbD i = if m.getLsbD i then p i else old.getLsbD i := by
  simp only [mergeBits, BitVec.getLsbD_or, BitVec.getLsbD_and, BitVec.getLsbD_not, h, decide_true, Bool.true_and, getLsbD_maskOf_filter]
  cases m.getLsbD i <;> simp

/-- Settles O7: each clause runs the instruction's body under the code that its hypothesis names. -/
theorem vectorMaskResults : Obligations.VectorMaskResults := by
  intro s t h f hr
  extract_lets x m a b old done bad
  refine ⟨fun c hc hd => ?_, fun hc => ?_, ?_, fun rm hm => ?_, fun hm => ?_, fun o ho => ?_, fun ho => ?_,
    fun g hm hg => ?_, fun hop => ?_, ?_⟩
  · extract_lets r
    refine ⟨mergeBits m (x.pr f.d.toNat) fun i => (r i).val, fun i hi => getLsbD_mergeBits _ _ _ hi, hr.acts.tileDone ?_⟩
    simp only [hc, inFile8, hd, decide_true, if_true]
    rfl
  · exact hr.acts.trap (by simp only [hc])
  · exact hr.acts.tileDone rfl
  · refine hr.acts.tileDone ?_
    simp only [hm, mergeLanes_listOf]
    rfl
  · exact hr.acts.trap (by simp only [hm])
  · refine hr.acts.tileDone ?_
    simp only [ho, mergeLanes_listOf]
    rfl
  · exact hr.acts.trap (by simp only [ho])
  · have hn : (s.dev.bump.tile t).mask h ≠ 0 := hm
    refine hr.acts.tileDone ?_
    simp only [doneTile, Dev.updTile, if_neg hn]
    rcases hg with ⟨hop, rfl⟩ | ⟨hop, rfl⟩ | ⟨hop, rfl⟩
    all_goals
      simp only [hop]
      rfl
  · exact hr.acts.trap (if_pos hop)
  · refine hr.acts.tileDone ?_
    simp only [mergeLanes_replicate]
    rfl

end Sys2Proof.Machine
end

section
/-! PROOFS. Microscaled blocks (O8). -/
namespace Sys2Proof.Machine
open Sys2Proof

/-- Settles O8: the checks of the formats and addresses pass by hypothesis, and the rest is the body. -/
theorem mxBlockResults : Obligations.MxBlockResults := by
  intro s t h f hr
  dsimp only
  refine ⟨fun fm rm p r hf hm hne hp hs => ?_, fun hf => ⟨?_, ?_⟩, fun fm p r hf hp hs => ?_⟩
  · refine hr.acts.done ?_
    simp only [hf, hm, if_neg hne, hp, hs]
    rfl
  · exact hr.acts.trap (by simp only [hf])
  · exact hr.acts.trap (by simp only [hf])
  · refine hr.acts.done ?_
    simp only [hf, Dev.tileLoad_ok (Nat.mod_one _) hp, Dev.tileLoad_ok (Nat.mod_one _) hs, mergeLanes_listOf]
    rfl

end Sys2Proof.Machine
end

section
/-! PROOFS. Vector loads and stores (O9). -/
namespace Sys2Proof.Machine
open Sys2Proof

/-- Settles O9: a load or store whose address is aligned and resolves goes on with its bytes; a misaligned one traps, under a full
mask as it stores and under a partial one as it loads the old bytes. -/
theorem vectorMemoryResults : Obligations.VectorMemoryResults := by
  intro s t h f hr
  extract_lets d x a full fill
  refine ⟨fun p ha hp => ?_, fun fm w p hf ha hp => ?_, fun p hm ha => ?_, fun fm w rm p hm hf hrm ha => ?_, fun ha => ⟨?_, ?_⟩⟩
  · refine hr.acts.done ?_
    simp only [words32, mergeLanes_listOf]
    exact Dev.tileLoad_ok ha hp _
  · refine hr.acts.done ?_
    simp only [hf, mergeLanes_listOf]
    exact Dev.tileLoad_ok ha hp _
  · intro hp hs
    have hm : (s.dev.bump.tile t).mask h = 0xFFFFFFFF := hm
    refine hr.acts.done ?_
    simp only [hm, Dev.tileOld_allLanes, mergeLanes_allLanes]
    exact Dev.tileStore_ok ha hp hs _
  · extract_lets r bs
    intro hp hs
    have hm : (s.dev.bump.tile t).mask h = 0xFFFFFFFF := hm
    refine hr.acts.done ?_
    simp only [hf, hrm, hm, Dev.tileOld_allLanes, listOf_allLanes]
    exact Dev.tileStore_ok ha hp hs _
  · exact hr.acts.trap (Dev.tileLoad_misaligned ha _)
  · refine hr.acts.trap ?_
    by_cases hm : (s.dev.bump.tile t).mask h = 0xFFFFFFFF
    · simp only [hm, Dev.tileOld_allLanes]
      exact Dev.tileStore_misaligned ha _ _
    · exact Dev.tileOld_misaligned hm ha _

end Sys2Proof.Machine
end

section
/-! PROOFS. Matrix operations, accumulators and sparse metadata (O10, O11, O12). -/
namespace Sys2Proof.Machine
open Sys2Proof

section
variable {d : Dev} {t : Nat} {f : FmtR}

theorem withAcc_pending (hd : f.d.toNat < 8) (hp : ((d.tile t).pend.find f.d.toNat).isSome = true) (k : Nat → TRes) :
    withAcc d t f k = .wait d (.acc f.d.toNat) := by
  simp only [withAcc, inFile8, hd, hp, decide_true, Bool.not_true, Bool.false_eq_true, if_false, if_true]

theorem withAcc_free (hd : f.d.toNat < 8) (hp : (d.tile t).pend.find f.d.toNat = none) (k : Nat → TRes) :
    withAcc d t f k = k f.d.toNat := by
  simp only [withAcc, inFile8, hd, hp, decide_true, Bool.not_true, Option.isSome_none, Bool.false_eq_true, if_false]

end

/-- Settles O10: an MMA passes its checks by hypothesis and its result is pending; the other instructions find their accumulator
pending or free. -/
theorem matrixResults : Obligations.MatrixResults := by
  intro s t h
  refine ⟨fun f hi hl => ?_, fun acc r hr => ?_, fun f hi hd => ?_⟩
  · dsimp only
    intro fa fb m hp hfa hfb hm hk hregs hal hs hmeta
    refine (hi.acts_legal (decide_eq_true hl)).tileDone ?_
    simp only [hp, hfa, hfb, hm, hk, hregs, hal, hs, hmeta, Option.isSome_none, Bool.not_true, Bool.or_false, Bool.false_eq_true, if_false]
    rfl
  · change execAccumulatorReady t acc s = _
    simp only [execAccumulatorReady, onDev, hr]
    rfl
  · dsimp only
    refine ⟨fun hp => hi.acts.wait (withAcc_pending hd hp _),
      fun hp => ⟨hi.acts.tileDone (withAcc_free hd hp _), fun p hr => ?_, fun p hr hs => ?_⟩⟩
    · exact hi.acts.done ((withAcc_free hd hp _).trans (Dev.tileLoad_ok (Nat.mod_one _) hr _))
    · exact hi.acts.done ((withAcc_free hd hp _).trans (Dev.tileStore_ok (Nat.mod_one _) hr hs _))

/-- Settles O11: MWR waits for a pending accumulator, and on a free one passes its checks by hypothesis or traps on its codes. -/
theorem writeOutResults : Obligations.WriteOutResults := by
  intro s t h f hi hd
  dsimp only
  refine ⟨fun fm w rm hp hf hm ha hb hpitch hs => ?_, fun hp => hi.acts.wait (withAcc_pending hd hp _), fun hp hbad => ?_⟩
  · refine hi.acts.done ((withAcc_free hd hp _).trans ?_)
    have hok : ¬ (32 ≤ f.a.toNat + 1 ∨ ((s.dev.bump.tile t).sr f.a.toNat).toNat % (2 * w) ≠ 0 ∨
        ((s.dev.bump.tile t).sr (f.a.toNat + 1)).toNat % (2 * w) ≠ 0) := by simp only [hb, hpitch]; omega
    simp only [hf, hm, if_neg hok, hs]
    rfl
  · refine hi.acts.trap ((withAcc_free hd hp _).trans ?_)
    rcases hbad with hf | hm
    · simp only [hf]
    · simp only [hm]
      cases mwrFmt (modR f 24 4) <;> rfl

theorem bitmapCount_issues {s : State} {t : Fin 512} {h : Head} (hi : Issues s.dev t h) {f : FmtR} {p : Nat} :
    let d := s.dev.bump
    let x := d.tile t
    let n := (x.sr f.b.toNat).toNat
    n ≤ 0x1000000 → d.resolve t true false false (x.sr f.a.toNat).toNat ((n + 7) / 8) = .ok p →
      bitmapCount t h f s = .next (s.seqAfter t ((d.noteAccess false p ((n + 7) / 8)).updTile t (fun x => x.setS f.d.toNat
        (BitVec.ofNat 64 (popBits n (leNat (d.tileBytes p ((n + 7) / 8)) % 2 ^ n)))))) := by
  dsimp only
  intro hn hr
  refine hi.acts.done ((if_neg (Nat.not_lt.mpr hn)).trans ?_)
  exact Dev.tileLoad_ok (Nat.mod_one _) hr _

/-- Settles O12: SMCHK, and BMPOP and BMIDX, which are one count of bits. -/
theorem sparseMetadataResults : Obligations.SparseMetadataResults := by
  intro s t h f hi
  refine ⟨fun p hd hn hr => hi.acts.done ?_, fun p hn hr => ⟨bitmapCount_issues hi hn hr, bitmapCount_issues hi hn hr⟩⟩
  simp only [inFile8, hd, decide_true, Bool.not_true, Bool.false_eq_true, if_false]
  exact (if_neg (Nat.not_lt.mpr hn)).trans (Dev.tileLoad_ok (Nat.mod_one _) hr _)

end Sys2Proof.Machine
end

section
/-! PROOFS. Barriers, fences, atomics and system instructions (O15, O16). -/
namespace Sys2Proof.Machine
open Sys2Proof

section
variable {s : State} {t : Fin 512} {h : Head} {f : FmtIM} {v : Bool} {n : Nat} (acts : Acts s t h { variant := v }) (g : Nat → W64 → Nat)
include acts

theorem atomicOp_aligned {p : Nat} (ha : addrIM f (s.dev.tile t) % n = 0)
    (hr : s.dev.bump.resolve t false true false (addrIM f (s.dev.tile t)) n = .ok p) :
    atomicOp t h f v n g s = .next (s.seqAfter t (s.dev.bump.memWrite p
      (leBytes n (g (leNat (s.dev.bump.memBytes p n)) ((s.dev.tile t).sr f.d.toNat))))) := by
  refine acts.done ?_
  simp only [Dev.tile_bump, if_neg (not_not_intro ha), hr]

theorem atomicOp_misaligned (ha : addrIM f (s.dev.tile t) % n ≠ 0) :
    atomicOp t h f v n g s = .next (s.tileTrapped t .illegalOperand (addrIM f (s.dev.tile t))) :=
  acts.trap (if_pos ha)

end

theorem xLegal_of_fits {f : FmtX} {w : Nat} (hr : f.rsvd = 0) (hx : f.x.toNat < 2 ^ w) : xLegal f w = true := by simp [xLegal, hr, hx]

/-- Settles O15: BAR by whether every member has arrived, and each atomic as its function of the old bytes and s(D). -/
theorem syncResults : Obligations.SyncResults := by
  intro s t h hi
  dsimp only
  refine ⟨fun f p hz hx hp hj => ?_, fun f p hz hx hp hj => ?_, fun f => hi.acts.done rfl, fun f => ?_⟩
  · have acts := hi.acts_legal (xLegal_of_fits (w := 6) hz hx)
    refine ⟨fun hall => acts.done ?_, fun ⟨u, hu, hn⟩ => ?_⟩
    · simp only [hp, hj, Bool.not_true, Bool.false_eq_true, if_false]
      refine if_pos ?_
      exact List.all_eq_true.mpr fun u hu => List.contains_iff_mem.mpr (hall u hu)
    · refine acts.wait ?_
      simp only [hp, hj, Bool.not_true, Bool.false_eq_true, if_false]
      refine if_neg fun hall => hn ?_
      exact List.contains_iff_mem.mp (List.all_eq_true.mp hall u hu)
  · refine (hi.acts_legal (xLegal_of_fits (w := 6) hz hx)).trap ?_
    simp only [hp, hj, Bool.not_false, if_true]
  · refine ⟨fun p ha hr => ⟨?_, ?_, ?_⟩, fun p ha hv hr => ?_, fun ha => ?_⟩
    · exact atomicOp_aligned hi.acts (fun m v => (BitVec.ofNat 64 m + v).toNat) ha hr
    · exact atomicOp_aligned hi.acts (fun m v => (intOp .min (BitVec.ofNat 64 m) v).toNat) ha hr
    · exact atomicOp_aligned hi.acts (fun m v => (intOp .max (BitVec.ofNat 64 m) v).toNat) ha hr
    · exact atomicOp_aligned (hi.acts_variant hv) (fun m v => (fAdd (BitVec.ofNat 32 m) (v.setWidth 32)).val.toNat) ha hr
    · exact atomicOp_misaligned hi.acts (fun m v => (BitVec.ofNat 64 m + v).toNat) ha

/-- Settles O16: each body ends as it stands, RDFLAG's by whether an operation is pending. -/
theorem tileSystemResults : Obligations.TileSystemResults := by
  intro s t h hi
  dsimp only
  refine ⟨fun f => hi.acts.done rfl, fun f => hi.acts.stay rfl, fun f hp => ?_, fun f n r l hp => ?_, fun f => hi.acts.tileDone rfl,
    fun f => hi.acts.tileDone rfl, fun f p hp => ?_, fun hv f => ?_⟩
  · refine hi.acts.tileDone ?_
    simp only [Dev.tile_bump, Tab.keys, hp, List.map_nil, List.head?_nil]
    rfl
  · refine hi.acts.wait ?_
    simp only [Dev.tile_bump, Tab.keys, hp, List.map_cons, List.head?_cons]
  · refine hi.acts.tileDone ?_
    simp only [hp]
    rfl
  · have acts := hi.acts_variant hv
    exact ⟨acts.tileDone rfl, ⟨_, acts.tileDone rfl⟩, ⟨_, acts.tileDone rfl⟩⟩

end Sys2Proof.Machine
end

section
/-! PROOFS. Scalar arithmetic, moves and comparisons (O1, O2). -/
namespace Sys2Proof.Machine
open Sys2Proof

theorem scalarOp_issues {s : State} {t : Fin 512} {h : Head} (hi : Issues s.dev t h) (o : IntOp) (b : SrcB) :
    let x := s.dev.tile t
    scalarOp o t h b s = .next (s.tileDone t (x.setS (srcD b).toNat (intOp o (x.sr (srcA b).toNat) (srcVal x b)))) :=
  hi.acts.tileDone rfl

/-- Settles O1: each instruction is a scalar operation, and its integer operation is the one named. -/
theorem scalarAluResults : Obligations.ScalarAluResults := by
  intro s t h b hi
  have scalar := fun o => scalarOp_issues hi o b
  exact ⟨scalar .add, scalar .sub, scalar .mul, scalar .and, scalar .or, scalar .xor, scalar .shl, scalar .shr, scalar .sra,
    scalar .min, scalar .max, scalar .minu, scalar .maxu⟩

theorem condOf_illegal : ∀ {n : Nat}, 6 ≤ n → condOf n = none
  | _ + 6, _ => rfl

section
variable {s : State} {t : Fin 512} {h : Head} (hi : Issues s.dev t h)
include hi

theorem execCmp_legal {b : SrcB} (hd : (srcD b).toNat < 8) {c : CmpCond} (hc : condOf (srcMod b % 8) = some c) :
    let x := s.dev.tile t
    exec (.cmp t h b) s = .next (s.tileDone t (x.setP (srcD b).toNat
      (if iCmp c (x.sr (srcA b).toNat) (srcVal x b) then 0xFFFFFFFF else 0))) := by
  refine hi.acts.tileDone ?_
  simp only [hc, inFile8, hd, decide_true, if_true]
  rfl

theorem execCmp_illegal {b : SrcB} (hc : condOf (srcMod b % 8) = none) :
    exec (.cmp t h b) s = .next (s.tileTrapped t .illegalOperand 0) :=
  hi.acts.trap (by simp only [hc])

theorem execPlog_inFile {f : FmtR} (hd : f.d.toNat < 8) (ha : f.a.toNat < 8) (hb : f.b.toNat < 8) :
    let x := s.dev.tile t
    exec (.plog t h f) s = .next (s.tileDone t (x.setP f.d.toNat (plogOp (modR f 0 2) (x.pr f.a.toNat) (x.pr f.b.toNat)))) := by
  refine hi.acts.tileDone ?_
  simp only [inFile8, hd, ha, hb, decide_true, Bool.and_true, if_true]
  rfl

end

/-- Settles O2: CMP by the condition of its code, PLOG by its operation. -/
theorem scalarMoveResults : Obligations.ScalarMoveResults := by
  intro s t h hi
  extract_lets x done
  refine ⟨fun f => hi.acts.tileDone rfl, fun f => hi.acts.tileDone rfl, fun b hd => ?_, fun b hc => execCmp_illegal hi (condOf_illegal hc),
    fun f hd ha hb => ?_, fun v => if_pos rfl⟩
  · have cmp : ∀ c, condOf (srcMod b % 8) = some c → _ := fun c => execCmp_legal hi hd
    exact ⟨fun hm => cmp .eq (by rw [hm]; rfl), fun hm => cmp .ne (by rw [hm]; rfl), fun hm => cmp .lt (by rw [hm]; rfl),
      fun hm => cmp .le (by rw [hm]; rfl), fun hm => cmp .ltu (by rw [hm]; rfl), fun hm => cmp .leu (by rw [hm]; rfl)⟩
  · have plog := execPlog_inFile hi hd ha hb
    refine ⟨fun hm => ?_, fun hm => ?_, fun hm => ?_, fun hm => ?_⟩
    all_goals
      rw [hm] at plog
      exact plog

end Sys2Proof.Machine
end

section
/-! PROOFS. Scalar loads and stores (O3). -/
namespace Sys2Proof.Machine
open Sys2Proof

section
variable {d : Dev} {t : Nat} {cm : Bool} {a n align : Nat} (h : a % align = 0)
include h

theorem Dev.tileLoad_bad {c : Cause} (hr : d.resolve t true cm false a n = .bad c) (k : Dev → List Byte → TRes) :
    d.tileLoad t cm a n align k = .trap c a := by
  rw [Dev.tileLoad, if_neg (not_not_intro h), hr]

theorem Dev.tileLoad_busy (hr : d.resolve t true cm false a n = .busy) (k : Dev → List Byte → TRes) :
    d.tileLoad t cm a n align k = .wait d .memory := by
  rw [Dev.tileLoad, if_neg (not_not_intro h), hr]

end

theorem Dev.tileBytes_settled {d : Dev} {a n : Nat} (h : d.racing a n = false) : d.tileBytes a n = d.memBytes a n := by
  simp [Dev.tileBytes, h]

/-- Settles O3: an aligned access whose address resolves goes on with its bytes, and each other outcome of the address ends it. -/
theorem scalarMemoryResults : Obligations.ScalarMemoryResults := by
  intro s t h f hi
  extract_lets d x n a
  refine ⟨fun p ha hp hs => ?_, fun p ha hp hs => ?_, fun ha => ⟨?_, ?_⟩, fun c ha hc => ?_, fun ha hb => ?_⟩
  · rw [← Dev.tileBytes_settled hs]
    exact hi.acts.done (Dev.tileLoad_ok ha hp _)
  · exact hi.acts.done (Dev.tileStore_ok ha hp hs _)
  · exact hi.acts.trap (Dev.tileLoad_misaligned ha _)
  · exact hi.acts.trap (Dev.tileStore_misaligned ha _ _)
  · exact hi.acts.trap (Dev.tileLoad_bad ha hc _)
  · exact hi.acts.wait (Dev.tileLoad_busy ha hb _)

end Sys2Proof.Machine
end

section
/-! PROOFS. Branches, calls and loops (O4). -/
namespace Sys2Proof.Machine
open Sys2Proof

section
variable {s : State} {t : Fin 512} {h : Head} {k : IssueKind} {body : Dev → TRes} (ha : Acts s t h k)
include ha

theorem Acts.jump {e : Dev} {target : Int} (hb : body s.dev.bump = .jump e target) :
    onDev s (fun d => d.issue t h k body) = .next (s.withDev (e.branchTo t target)) := by
  rw [ha.finish, hb]
  rfl

theorem Acts.seq {e : Dev} {next : Nat} (hb : body s.dev.bump = .seq e next) :
    onDev s (fun d => d.issue t h k body) = .next (s.withDev (e.seqTo t next)) := by
  rw [ha.finish, hb]
  rfl

end

/-- Settles O4: each body ends as its hypotheses on the call stack and the loops choose. -/
theorem flowResults : Obligations.FlowResults := by
  intro s t h hi
  extract_lets d x
  refine ⟨fun f => hi.acts.jump rfl, fun f hc => ?_, fun f hc => ?_, fun f r rest hc => ?_, fun f hc => ?_, fun f h1 h2 h3 => ?_,
    fun f hl => ?_⟩
  · exact hi.acts.jump (if_neg (Nat.not_le.mpr hc))
  · exact hi.acts.trap (if_pos hc)
  · refine hi.acts.seq ?_
    simp only [show (s.dev.bump.tile t).calls = r :: rest from hc, x, d]
  · exact hi.acts.trap (by simp only [show (s.dev.bump.tile t).calls = [] from hc])
  · have hok : ¬ (f.imm.toNat = 0 ∨ 8191 < f.imm.toNat ∨ 4 ≤ x.loops.length) := by omega
    exact ⟨fun hn => hi.acts.done ((if_neg hok).trans (if_neg hn)), fun hn => hi.acts.seq ((if_neg hok).trans (if_pos hn))⟩
  · exact hi.acts.trap (if_pos (.inr (.inr hl)))

end Sys2Proof.Machine
end

section
/-! PROOFS. How control goes on after an instruction (O5): loop ends, the program's end, and the exception past it. -/
namespace Sys2Proof.Machine
open Sys2Proof

/-! ## Loop ends (R131, R133) -/

section
variable {l : LoopRec} {r : List LoopRec} {depth next : Nat}

theorem loopEnd_elsewhere {loops : List LoopRec} (h : ∀ l r, loops = l :: r → l.depth ≠ depth ∨ next ≠ l.stop) :
    loopEnd loops depth next = (loops, next) := by
  cases loops with
  | nil => rfl
  | cons l r => exact if_neg (not_and_or.mpr (h l r rfl))

theorem loopEnd_again (hd : l.depth = depth) (hn : next = l.stop) (hl : 1 < l.left) :
    loopEnd (l :: r) depth next = ({ l with left := l.left - 1 } :: r, l.start) := by
  rw [loopEnd, if_pos ⟨hd, hn⟩, if_pos hl]

theorem loopEnd_closes (hd : l.depth = depth) (hn : next = l.stop) (hl : l.left ≤ 1) :
    loopEnd (l :: r) depth next = loopEnd r depth next := by
  rw [loopEnd, if_pos ⟨hd, hn⟩, if_neg (Nat.not_lt.mpr hl)]

end

/-! ## The next PC (R132) -/

section
variable {d : Dev} {t next : Nat} {loops : List LoopRec}
  (hl : loopEnd (d.tile t).loops (d.tile t).calls.length ((d.tile t).pc + 1) = (loops, next))
include hl

theorem Dev.advance_inside (hn : next < d.codeLen t) :
    d.advance t = d.setTile t { d.tile t with pc := next, loops := loops, wait := none } := by
  simp only [Dev.advance, Dev.seqTo, Dev.toPc, hl, if_pos hn]
  rfl

theorem Dev.advance_outside (hn : d.codeLen t ≤ next) : d.advance t = d.tileTrap t .illegalInstruction 0 := by
  simp only [Dev.advance, Dev.seqTo, Dev.toPc, hl, if_neg (Nat.not_lt.mpr hn)]

end

/-! ## Taking an exception (R137) -/

section
variable (d : Dev) (cl i v : Nat)

theorem Dev.fget_cause_fset_cause : (d.fset (Reg.CLU_TILE_CAUSEt_CAUSE cl i) v).fget (Reg.CLU_TILE_CAUSEt_CAUSE cl i) = v % 2 ^ 8 :=
  Dev.fget_fset_same d _ v (Nat.le_refl 64)

theorem Dev.fget_cause_fset_pc :
    (d.fset (Reg.CLU_TILE_CAUSEt_PC cl i) v).fget (Reg.CLU_TILE_CAUSEt_CAUSE cl i) = d.fget (Reg.CLU_TILE_CAUSEt_CAUSE cl i) :=
  Dev.fget_fset_disjoint d _ _ v rfl (Nat.le_refl 64) (.inr (Nat.le_refl 56))

theorem Dev.fget_cause_fset_addr :
    (d.fset (Reg.CLU_TILE_CAUSEt_ADDR cl i) v).fget (Reg.CLU_TILE_CAUSEt_CAUSE cl i) = d.fget (Reg.CLU_TILE_CAUSEt_CAUSE cl i) :=
  Dev.fget_fset_disjoint d _ _ v rfl (Nat.le_refl 64) (.inr (Nat.le_add_right 40 16))

end

section
variable (d : Dev) (t : Nat) {c : Cause} (a : Nat) (hc : c ≠ .uncorrectable)
include hc

theorem Dev.tileTrap_plain : d.tileTrap t c a =
    (((d.fset (Reg.CLU_TILE_CAUSEt_CAUSE (clusterOf t) (t % 16)) c.code).fset (Reg.CLU_TILE_CAUSEt_PC (clusterOf t) (t % 16))
      (d.tile t).pc).fset (Reg.CLU_TILE_CAUSEt_ADDR (clusterOf t) (t % 16)) a).setTile t
      { d.tile t with phase := .stopping, wait := none } := by
  simp only [Dev.tileTrap, Dev.tileRecord, Dev.tileDown, hc, false_and, if_false]
  rfl

theorem Dev.tileTrap_phase : ((d.tileTrap t c a).tile t).phase = .stopping := by
  rw [Dev.tileTrap_plain d t a hc, Dev.tile_setTile_same]

theorem Dev.tileTrap_mem : (d.tileTrap t c a).mem = d.mem := by
  rw [Dev.tileTrap_plain d t a hc]
  simp only [Dev.setTile_mem, Dev.fset_mem]

theorem Dev.tileTrap_cause : (d.tileTrap t c a).fget (Reg.CLU_TILE_CAUSEt_CAUSE (clusterOf t) (t % 16)) = c.code := by
  rw [Dev.tileTrap_plain d t a hc, Dev.fget_congr _ _ _ (Dev.setTile_reg _ _ _), Dev.fget_cause_fset_addr, Dev.fget_cause_fset_pc,
    Dev.fget_cause_fset_cause]
  cases c <;> rfl

end

/-- Settles O5: NOP goes on at the place that the loop ends choose, or traps past the program. -/
theorem sequenceRules : Obligations.SequenceRules := by
  intro s t h f hi
  extract_lets d x n
  have nop : exec (.nop t h f) s = .next (s.withDev (d.advance t)) := hi.acts.done rfl
  rw [nop]
  refine ⟨fun hn hl => ?_, fun l r hx hd hs hl hn => ?_, fun l hx hd hs hl hn => ?_, fun hn hx => ?_⟩
  · rw [Dev.advance_inside (loopEnd_elsewhere hl) hn]
  · rw [Dev.advance_inside (hx ▸ loopEnd_again hd hs hl) hn]
  · rw [Dev.advance_inside (hx ▸ loopEnd_closes hd hs hl) hn]
  · refine ⟨_, rfl, ?_⟩
    have ends : loopEnd x.loops x.calls.length n = ([], n) := by
      rw [hx]
      rfl
    rw [Dev.advance_outside ends hn]
    exact ⟨Dev.tileTrap_phase d t 0 (by decide), Dev.tileTrap_cause d t 0 (by decide), Dev.tileTrap_mem d t 0 (by decide)⟩

end Sys2Proof.Machine
end

section
/-! PROOFS. DMA contexts of a tile (O13). -/
namespace Sys2Proof.Machine
open Sys2Proof

theorem exec_tileDmaDone_lands {s : State} {t : Fin 512} {ctx : Fin 8} {rd : HostRead} {e : Dev} {c : DmaCtx}
    (hc : (s.dev.tile t).ctx ctx = c) (hb : c.busy = true) (hn : c.notify = false) (ha : s.dev.alive = true)
    (hw : s.dev.dmaWaits c.desc = false) (hd : descNotify c.desc = false)
    (hm : (s.dev.readEnd (.tileDma t ctx)).dmaMove t ((s.dev.tilePart t).getD 32) c.desc rd 0 (s.dev.dmaUnits t c.desc) = (e, none)) :
    exec (.tileDmaDone t ctx rd) s = .next (s.withDev (e.updTile t (fun y => { y with dma := y.dma.set ctx DmaCtx.idle }))) := by
  change execTileDmaDone t ctx rd s = _
  simp [execTileDmaDone, onDev, State.withDev, hc, hb, hn, ha, hw, hd, hm]

/-- Settles O13: DMA and DMA.WAIT by the state of the context and the checks of the descriptor. -/
theorem tileDmaResults : Obligations.TileDmaResults := by
  intro s t h
  refine ⟨fun f hi hz hx => ?_, fun ctx rd e => ?_⟩
  · extract_lets d x c desc
    have acts := hi.acts_legal (xLegal_of_fits (w := 3) hz hx)
    refine ⟨fun hf hb ho hbad hch => ?_, fun hf hb => ?_, fun hf hb ho => ?_, fun hb => ?_, fun hb => ?_⟩
    · have hch : (descNotify desc && !d.channelOk t (descChannel desc)) = false := by
        rcases hch with h | h <;> simp [h]
      refine acts.tileDone ((if_neg (Nat.not_lt.mpr hf)).trans ((if_neg (Bool.eq_false_iff.mp hb)).trans ?_))
      refine (if_neg (Bool.eq_false_iff.mp (congrArg (!·) ho))).trans ?_
      simp only [d, x, desc] at hbad hch
      simp only [hbad, hch]
      rfl
    · exact acts.wait ((if_neg (Nat.not_lt.mpr hf)).trans (if_pos hb))
    · exact acts.trap ((if_neg (Nat.not_lt.mpr hf)).trans ((if_neg (Bool.eq_false_iff.mp hb)).trans (if_pos (congrArg (!·) ho))))
    · exact acts.wait (if_pos hb)
    · exact acts.tileDone (if_neg (Bool.eq_false_iff.mp hb))
  · extract_lets c
    intro hb hn ha hw hd hm
    exact exec_tileDmaDone_lands rfl hb hn ha hw hd hm

end Sys2Proof.Machine
end

section
/-! PROOFS. How a tile ends and starts (O17). -/
namespace Sys2Proof.Machine
open Sys2Proof

section
variable {s : State} {t : Fin 512}

theorem exec_tileHalted_drained (hp : (s.dev.tile t).phase = .halting) (hd : (s.dev.tile t).dmaIdle = true) :
    exec (.tileHalted t) s = .next (s.withDev (s.dev.setTile t { s.dev.tile t with phase := .halted })) := by
  change execTileHalted t s = _
  simp only [execTileHalted, onDev, hp, hd, and_self, if_true]
  rfl

theorem exec_tileStopped_drained (hp : (s.dev.tile t).phase = .stopping) (hd : (s.dev.tile t).dmaIdle = true) :
    exec (.tileStopped t) s = .next (s.withDev (s.dev.tileStop t)) := by
  change execTileStopped t s = _
  simp only [execTileStopped, onDev, hp, hd, and_self, if_true]
  rfl

/-- The waits that CLU_STALL_LIMIT counts (R138). -/
def WaitKind.Counted (w : WaitKind) : Prop := (∃ b, w = .bar b) ∨ (∃ c, w = .dmaWait c) ∨ ∃ c, w = .credit c

theorem exec_stallLimit_counted {w : WaitKind} (hw : (s.dev.tile t).wait = some w) (hk : w.Counted)
    (hp : (s.dev.tile t).phase = .running) (hl : s.dev.fget (Reg.CLU_STALL_LIMIT_LIMIT_US (clusterOf t)) ≠ 0) :
    exec (.stallLimit t) s = .next (s.withDev (s.dev.tileTrap t .stallLimit 0)) := by
  change execStallLimit t s = _
  unfold execStallLimit
  rcases hk with ⟨b, rfl⟩ | ⟨c, rfl⟩ | ⟨c, rfl⟩
  all_goals
    simp only [onDev, hp, hw, ne_eq, hl, not_false_eq_true, and_self, if_true]
    rfl

theorem Dev.restartTile_ended {d : Dev} {u : Nat} (hp : (d.tile u).phase = .halted ∨ (d.tile u).phase = .stopped)
    (hb : d.tileBarred u = false) :
    d.restartTile u = (d.discardMail u (fun _ => true)).startTile u ((d.discardMail u (fun _ => true)).tile u).cred :=
  if_pos ⟨hp, hb⟩

theorem bitsOf_single : ∀ i : Fin 16, bitsOf 16 (BitVec.ofNat 16 (2 ^ i.val)).toNat = [i.val] := by decide

theorem exec_tileRestart_single (c : Fin 32) (i : Fin 16) :
    exec (.tileRestart c (BitVec.ofNat 16 (2 ^ i.val))) s = .next (s.withDev (s.dev.restartTile (16 * c + i))) := by
  change execTileRestart c _ s = _
  rw [execTileRestart, onDev, bitsOf_single]
  rfl

theorem exec_tileStart_due (h : s.dev.img.startDue = true) :
    let d := s.dev.upImg (fun m => { m with startDue := false })
    exec .tileStart s = .next (s.withDev (((List.range 512).filter d.tileRuns).foldl (fun e u => e.startTile u ⟨[]⟩) d)) := by
  change execTileStart s = _
  simp only [execTileStart, onDev, h, if_true]
  rfl

end

theorem Dev.startTile_tile (d : Dev) (t : Nat) (cred : Tab Nat) :
    let b := d.sec secTilePrograms
    (d.startTile t cred).tile t = { Tile.reset with
      phase := .running, pc := b.u32 (tileEntry t + 0x04),
      s := ⟨(List.range 32).map (fun i => (i, BitVec.ofNat 64 (b.u64 (b.u64 (tileEntry t + 0x18) + 8 * i))))⟩, cred := cred } :=
  Dev.tile_setTile_same _ _ _

theorem Dev.startTile_cause (d : Dev) (t : Nat) (cred : Tab Nat) :
    (d.startTile t cred).regGet (Reg.CLU_TILE_CAUSEt (clusterOf t) (t % 16)) = 0 :=
  Dev.regGet_regSet_same _ _ _

/-- Settles O17: each command where its condition holds, and what a start leaves. -/
theorem tileHaltRestart : Obligations.TileHaltRestart := by
  intro s t
  extract_lets d x
  refine ⟨exec_tileHalted_drained, exec_tileStopped_drained, fun w hw hk hp hl => exec_stallLimit_counted hw hk hp hl,
    fun c i ht hp hb => ?_, exec_tileStart_due, fun cred => ?_⟩
  · rw [exec_tileRestart_single, ← ht, Dev.restartTile_ended hp hb]
  · rw [Dev.startTile_tile]
    exact ⟨rfl, rfl, rfl, rfl, rfl, rfl, rfl, rfl, rfl, rfl, rfl, rfl, rfl, Dev.startTile_cause d t cred⟩

end Sys2Proof.Machine
end

section
/-! PROOFS. What a step runs (O52). -/
namespace Sys2Proof.Machine
open Sys2Proof

theorem step_of_pending {s : State} {c : Instr} {rest : List Instr} (h : s.pending = c :: rest) :
    step s = exec c { s with pending := rest } := by rw [step, h]

theorem step_of_empty {s : State} (h : s.pending = []) : step s = idle s := by rw [step, h]

/-- Settles O52: the command at the front, and on an empty queue the tick of the idle block by the tile whose turn it is. -/
theorem stepRunsFront : Obligations.StepRunsFront := by
  intro s
  refine ⟨fun c rest h => step_of_pending h, fun h => ?_⟩
  rw [step_of_empty h]
  unfold idle State.withDev
  refine ⟨fun still => ?_, fun t turn => ⟨fun i decoded => ?_, fun illegal => ?_⟩⟩
  · simp only [still]
  · simp only [turn, decoded]
  · simp only [turn, illegal]

end Sys2Proof.Machine
end

section
/-! PROOFS. The fields of a tile instruction's word: together they are the word, and a word packed from fields has those fields
(R121, R122). -/
namespace Sys2Proof

theorem ofBool_getLsbD {n : Nat} (w : BitVec n) (i : Nat) : BitVec.ofBool (w.getLsbD i) = w.extractLsb' i 1 := by
  ext j hj
  obtain rfl : j = 0 := by omega
  simp

section
open BitVec (extractLsb'_append_extractLsb'_eq_extractLsb' extractLsb'_eq_self)
variable (w : W64)

@[simp] theorem bodyR_wordR : bodyR (wordR w) = w.extractLsb' 0 48 := by
  simp (disch := rfl) only [bodyR, wordR, extractLsb'_append_extractLsb'_eq_extractLsb']

@[simp] theorem bodyI_wordI : bodyI (wordI w) = w.extractLsb' 0 48 := by
  simp (disch := rfl) only [bodyI, wordI, extractLsb'_append_extractLsb'_eq_extractLsb']

@[simp] theorem bodyIM_wordIM : bodyIM (wordIM w) = w.extractLsb' 0 48 := by
  simp (disch := rfl) only [bodyIM, wordIM, extractLsb'_append_extractLsb'_eq_extractLsb']

@[simp] theorem bodyM_wordM : bodyM (wordM w) = w.extractLsb' 0 48 := by
  simp (disch := rfl) only [bodyM, wordM, ofBool_getLsbD, extractLsb'_append_extractLsb'_eq_extractLsb']

@[simp] theorem bodyX_wordX : bodyX (wordX w) = w.extractLsb' 0 48 := by
  simp (disch := rfl) only [bodyX, wordX, extractLsb'_append_extractLsb'_eq_extractLsb']

variable {w}

/-- A word is packed from its CLASS, OP, head and body. -/
theorem pack_word {c : BitVec 4} {o : BitVec 8} {body : BitVec 48} (hc : (w.extractLsb' 60 4).toNat = c.toNat)
    (ho : (w.extractLsb' 52 8).toNat = o.toNat) (hb : body = w.extractLsb' 0 48) : pack c o (wordHead w) body = w := by
  obtain rfl := BitVec.eq_of_toNat_eq hc
  obtain rfl := BitVec.eq_of_toNat_eq ho
  simp (disch := rfl) only [pack, wordHead, hb, ofBool_getLsbD, extractLsb'_append_extractLsb'_eq_extractLsb']
  exact extractLsb'_eq_self

end

section
open BitVec
variable (c : BitVec 4) (o : BitVec 8) (h : Head) (body : BitVec 48)

@[simp] theorem class_pack : (pack c o h body).extractLsb' 60 4 = c := by
  simp (disch := decide) only [pack, extractLsb'_append_eq_of_le, Nat.reduceSub, extractLsb'_eq_self]

@[simp] theorem op_pack : (pack c o h body).extractLsb' 52 8 = o := by
  simp (disch := decide) only [pack, extractLsb'_append_eq_of_le, extractLsb'_append_eq_of_add_le, Nat.reduceSub,
    extractLsb'_eq_self]

@[simp] theorem wordHead_pack : wordHead (pack c o h body) = h := by
  simp (disch := decide) only [pack, wordHead, extractLsb'_append_eq_of_le, extractLsb'_append_eq_of_add_le, Nat.reduceSub,
    extractLsb'_eq_self, getLsbD_append, Nat.reduceLT, if_false, if_true, getLsbD_ofBool, decide_true, Bool.true_and]

theorem getLsbD_pack {i : Nat} (hi : i < 48) : (pack c o h body).getLsbD i = body.getLsbD i := by
  rw [pack, getLsbD_append, if_pos hi]

theorem extractLsb'_pack {lo n : Nat} (hn : lo + n ≤ 48) : (pack c o h body).extractLsb' lo n = body.extractLsb' lo n := by
  rw [pack, extractLsb'_append_eq_of_add_le hn]

@[simp] theorem wordR_pack (f : FmtR) : wordR (pack c o h (bodyR f)) = f := by
  simp (disch := decide) only [wordR, extractLsb'_pack, bodyR, extractLsb'_append_eq_of_le, extractLsb'_append_eq_of_add_le,
    Nat.reduceSub, extractLsb'_eq_self]

@[simp] theorem wordI_pack (f : FmtI) : wordI (pack c o h (bodyI f)) = f := by
  simp (disch := decide) only [wordI, extractLsb'_pack, bodyI, extractLsb'_append_eq_of_le, extractLsb'_append_eq_of_add_le,
    Nat.reduceSub, extractLsb'_eq_self]

@[simp] theorem wordIM_pack (f : FmtIM) : wordIM (pack c o h (bodyIM f)) = f := by
  simp (disch := decide) only [wordIM, extractLsb'_pack, bodyIM, extractLsb'_append_eq_of_le, extractLsb'_append_eq_of_add_le,
    Nat.reduceSub, extractLsb'_eq_self]

@[simp] theorem wordX_pack (f : FmtX) : wordX (pack c o h (bodyX f)) = f := by
  simp (disch := decide) only [wordX, extractLsb'_pack, bodyX, extractLsb'_append_eq_of_le, extractLsb'_append_eq_of_add_le,
    Nat.reduceSub, extractLsb'_eq_self]

@[simp] theorem wordM_pack (f : FmtM) : wordM (pack c o h (bodyM f)) = f := by
  simp (disch := decide) only [wordM, extractLsb'_pack, getLsbD_pack, bodyM, extractLsb'_append_eq_of_le,
    extractLsb'_append_eq_of_add_le, Nat.reduceSub, extractLsb'_eq_self, getLsbD_append, Nat.reduceLT, if_false, if_true,
    getLsbD_ofBool, decide_true, Bool.true_and]

end

end Sys2Proof
end

section
/-! PROOFS. The decoder of tile instructions by CLASS and then by OP (R121, R125), and the round trip (O55). -/
namespace Sys2Proof

/-- The decoder by CLASS and then by OP, given the tile and the fields of a word in each format. -/
def decodeFields (t : Fin 512) (h : Head) (r : FmtR) (i : FmtI) (im : FmtIM) (m : FmtM) (x : FmtX) (cls op : Nat) : Option Instr :=
  match cls with
  | 0 =>
    match op with
    | 0x01 => some (.add t h (.reg r)) | 0x81 => some (.add t h (.imm i)) | 0x02 => some (.sub t h (.reg r))
    | 0x82 => some (.sub t h (.imm i)) | 0x03 => some (.mul t h (.reg r)) | 0x83 => some (.mul t h (.imm i))
    | 0x04 => some (.and t h (.reg r)) | 0x84 => some (.and t h (.imm i)) | 0x05 => some (.or t h (.reg r))
    | 0x85 => some (.or t h (.imm i)) | 0x06 => some (.xor t h (.reg r)) | 0x86 => some (.xor t h (.imm i))
    | 0x07 => some (.shl t h (.reg r)) | 0x87 => some (.shl t h (.imm i)) | 0x08 => some (.shr t h (.reg r))
    | 0x88 => some (.shr t h (.imm i)) | 0x09 => some (.sra t h (.reg r)) | 0x89 => some (.sra t h (.imm i))
    | 0x0a => some (.min t h (.reg r)) | 0x8a => some (.min t h (.imm i)) | 0x0b => some (.max t h (.reg r))
    | 0x8b => some (.max t h (.imm i)) | 0x0c => some (.minu t h (.reg r)) | 0x8c => some (.minu t h (.imm i))
    | 0x0d => some (.maxu t h (.reg r)) | 0x8d => some (.maxu t h (.imm i)) | 0x0e => some (.li t h i) | 0x0f => some (.lui t h i)
    | 0x10 => some (.cmp t h (.reg r)) | 0x90 => some (.cmp t h (.imm i)) | 0x11 => some (.plog t h r) | 0x18 => some (.ld t h im)
    | 0x19 => some (.st t h im) | 0x20 => some (.br t h i) | 0x21 => some (.call t h i) | 0x22 => some (.ret t h r)
    | 0x23 => some (.loop t h i)
    | _ => none
  | 1 =>
    match op with
    | 0x01 => some (.vadd t h r) | 0x02 => some (.vsub t h r) | 0x03 => some (.vmul t h r) | 0x04 => some (.vfma t h r)
    | 0x05 => some (.vdiv t h r) | 0x06 => some (.vrcp t h r) | 0x07 => some (.vsqrt t h r) | 0x08 => some (.vrsq t h r)
    | 0x09 => some (.vexp2 t h r) | 0x0a => some (.vexp t h r) | 0x0b => some (.vlog2 t h r) | 0x0c => some (.vlog t h r)
    | 0x0d => some (.vtanh t h r) | 0x0e => some (.vsig t h r) | 0x0f => some (.vsilu t h r) | 0x10 => some (.vmin t h r)
    | 0x11 => some (.vmax t h r) | 0x12 => some (.vcmp t h r) | 0x13 => some (.vsel t h r) | 0x14 => some (.vabs t h r)
    | 0x15 => some (.vneg t h r) | 0x16 => some (.vcvt t h r) | 0x17 => some (.viop t h r) | 0x18 => some (.vred t h r)
    | 0x19 => some (.vqmx t h r) | 0x1a => some (.vdqmx t h r) | 0x1b => some (.vbcst t h r) | 0x1c => some (.vld t h im)
    | 0x1d => some (.vst t h im) | 0x1e => some (.vldn t h im) | 0x1f => some (.vstn t h im)
    | _ => none
  | 2 =>
    match op with
    | 0x01 => some (.mma t h m) | 0x02 => some (.mwr t h r) | 0x03 => some (.mld t h r) | 0x04 => some (.mst t h r)
    | 0x05 => some (.mzero t h r)
    | _ => none
  | 3 =>
    match op with
    | 0x01 => some (.smchk t h r) | 0x02 => some (.bmpop t h r) | 0x03 => some (.bmidx t h r)
    | _ => none
  | 4 =>
    match op with
    | 0x01 => some (.dma t h x) | 0x02 => some (.dmaWait t h x)
    | _ => none
  | 5 =>
    match op with
    | 0x01 => some (.send t h x) | 0x02 => some (.recv t h x) | 0x03 => some (.recvAny t h x)
    | _ => none
  | 6 =>
    match op with
    | 0x01 => some (.bar t h x) | 0x02 => some (.fence t h r) | 0x03 => some (.ataddI t h im) | 0x04 => some (.atminI t h im)
    | 0x05 => some (.atmaxI t h im) | 0x06 => some (.ataddF t h im)
    | _ => none
  | 7 =>
    match op with
    | 0x00 => some (.nop t h r) | 0x01 => some (.halt t h r) | 0x02 => some (.rdflag t h r) | 0x03 => some (.clrflag t h i)
    | 0x04 => some (.seed t h r) | 0x05 => some (.rdid t h r) | 0x06 => some (.rdcyc t h r) | 0x07 => some (.rdptime t h r)
    | 0x08 => some (.rdtrng t h r)
    | _ => none
  | _ => none

set_option smartUnfolding false in
/-- Both sides test CLASS and then OP in the same order, so they agree by unfolding their matches (which smart unfolding leaves). -/
theorem tileDecode_eq_decodeFields (t : Fin 512) (w : W64) : tileDecode t w =
    decodeFields t (wordHead w) (wordR w) (wordI w) (wordIM w) (wordM w) (wordX w) (w.extractLsb' 60 4).toNat
      (w.extractLsb' 52 8).toNat := rfl

/-- A word that decodes is the word of the instruction that it spells: by CLASS, then by OP. -/
theorem tileEncode_of_tileDecode {t : Fin 512} {w : W64} {i : Instr} (h : tileDecode t w = some i) :
    tileEncode i = some w ∧ instrTile i = some t := by
  rw [tileDecode_eq_decodeFields] at h
  generalize hc : (w.extractLsb' 60 4).toNat = c at h
  generalize ho : (w.extractLsb' 52 8).toNat = o at h
  unfold decodeFields at h
  split at h
  case h_9 => cases h
  all_goals
    split at h <;> cases h
    all_goals exact ⟨congrArg some (pack_word hc ho (by simp)), rfl⟩

/-- The word of a tile instruction decodes to it: its CLASS, OP and fields are those it was packed from. -/
theorem tileDecode_of_tileEncode {t : Fin 512} {w : W64} {i : Instr} (hw : tileEncode i = some w) (ht : instrTile i = some t) :
    tileDecode t w = some i := by
  cases i with
  | add _ h b | sub _ h b | mul _ h b | and _ h b | or _ h b | xor _ h b | shl _ h b | shr _ h b | sra _ h b | min _ h b
  | max _ h b | minu _ h b | maxu _ h b | cmp _ h b =>
    cases hw
    cases ht
    cases b <;> simp [packB, tileDecode_eq_decodeFields, decodeFields]
  | li _ h f | lui _ h f | plog _ h f | ld _ h f | st _ h f | br _ h f | call _ h f | ret _ h f | loop _ h f | vadd _ h f
  | vsub _ h f | vmul _ h f | vfma _ h f | vdiv _ h f | vrcp _ h f | vsqrt _ h f | vrsq _ h f | vexp2 _ h f | vexp _ h f
  | vlog2 _ h f | vlog _ h f | vtanh _ h f | vsig _ h f | vsilu _ h f | vmin _ h f | vmax _ h f | vcmp _ h f | vsel _ h f
  | vabs _ h f | vneg _ h f | vcvt _ h f | viop _ h f | vred _ h f | vqmx _ h f | vdqmx _ h f | vbcst _ h f | vld _ h f
  | vst _ h f | vldn _ h f | vstn _ h f | mma _ h f | mwr _ h f | mld _ h f | mst _ h f | mzero _ h f | smchk _ h f
  | bmpop _ h f | bmidx _ h f | dma _ h f | dmaWait _ h f | send _ h f | recv _ h f | recvAny _ h f | bar _ h f | fence _ h f
  | ataddI _ h f | atminI _ h f | atmaxI _ h f | ataddF _ h f | nop _ h f | halt _ h f | rdflag _ h f | clrflag _ h f
  | seed _ h f | rdid _ h f | rdcyc _ h f | rdptime _ h f | rdtrng _ h f =>
    cases hw
    cases ht
    simp [tileDecode_eq_decodeFields, decodeFields]
  | _ => cases hw

/-- Settles O55: a word is packed from its own fields, and a packed word has the fields it was packed from. -/
theorem tileWordRoundTrip : Obligations.TileWordRoundTrip := by
  refine ⟨fun t w i => tileEncode_of_tileDecode, fun t w i => tileDecode_of_tileEncode, fun i => ?_⟩
  cases i <;> rfl

end Sys2Proof
end

section
/-! PROOFS. A command that a block with a command register takes, and what the block commands of placement make of the
device, a rule for each outcome (R177, R178, R192). -/
namespace Sys2Proof.Machine
open Sys2Proof

/-- A block that takes a command runs it: it is neither dropped in reset nor refused in STANDBY or while BUSY. -/
theorem Dev.command_of_takes {d : Dev} {busy : RegField} (h : Takes d busy) (err : RegField) (f : Dev → Dev) :
    d.command busy err f = f d := by
  obtain ⟨ha, hs, hb⟩ := h
  simp [Dev.command, ha, hs, hb]

/-- What REGISTER writes for `n` blocks: the `k`-th of `bs` is SERVING at home, as a KV page of its region's partition, in
the `k`-th of the entries `fr`. -/
def Dev.registerAll (d : Dev) (n : Nat) (bs fr : List Nat) : Dev :=
  (List.range n).foldl (fun e k => e.setBlk (fr.getD k 0)
    (bvSet (bvSet (bvSet (bvSet (0 : BitVec 128) 107 21 (bs.getD k 0)) 77 3 1) 74 1 1) 68 5 ((e.homePart (bs.getD k 0)).getD 0))) d

section
variable {s : State} (h : Takes s.dev Reg.MEM_BLK_STATUS_BUSY)
include h

theorem memCmd_of_takes (f : Dev → Dev) : memCmd s f = .next (s.withDev (f s.dev)) :=
  congrArg (fun d => Host.Outcome.next (s.withDev d)) (Dev.command_of_takes h _ f)

/-- A COUNT of 0 names no block (log entry 76). -/
theorem exec_register_zero : exec (.register 0) s = .next (s.withDev (s.dev.fset Reg.MEM_BLK_STATUS_CMD_ERR 1)) :=
  memCmd_of_takes h _

theorem exec_unregister_zero : exec (.unregister 0) s = .next (s.withDev (s.dev.fset Reg.MEM_BLK_STATUS_CMD_ERR 1)) :=
  memCmd_of_takes h _

variable {count : BitVec 16} (hc : count ≠ 0)
include hc

theorem exec_register_accepted (hb : ∀ b ∈ s.dev.namedBlocks count.toNat, (s.dev.homePart b).isSome ∧ s.dev.entryOf b = none)
    (hf : count.toNat ≤ (freeEntries s.dev.mem.blk count.toNat).length) :
    exec (.register count) s = .next (s.withDev ((s.dev.registerAll count.toNat (s.dev.namedBlocks count.toNat)
      (freeEntries s.dev.mem.blk count.toNat)).blkCmdStart count.toNat .ok)) := by
  have hn : count.toNat ≠ 0 := BitVec.toNat_ne.1 hc
  have hok : ¬ ((s.dev.namedBlocks count.toNat).any (fun b => (s.dev.homePart b).isNone || (s.dev.entryOf b).isSome) = true ∨
      (freeEntries s.dev.mem.blk count.toNat).length < count.toNat) := by
    simpa [← Option.isSome_iff_ne_none] using And.intro hb hf
  change execRegister count s = _
  rw [execRegister, memCmd_of_takes h]
  dsimp only
  rw [if_neg hn, if_neg hok]
  rfl

theorem exec_register_refused
    (hb : ∃ b ∈ s.dev.namedBlocks count.toNat, s.dev.homePart b = none ∨ (s.dev.entryOf b).isSome) :
    exec (.register count) s = .next (s.withDev (s.dev.blkCmdStart count.toNat .accessError)) := by
  have hn : count.toNat ≠ 0 := BitVec.toNat_ne.1 hc
  have hbad : (s.dev.namedBlocks count.toNat).any (fun b => (s.dev.homePart b).isNone || (s.dev.entryOf b).isSome) = true := by
    simpa using hb
  change execRegister count s = _
  rw [execRegister, memCmd_of_takes h]
  dsimp only
  rw [if_neg hn, if_pos (.inl hbad)]

theorem exec_unregister_accepted
    (hb : ∀ b ∈ s.dev.namedBlocks count.toNat, (s.dev.homePart b).isSome ∧ (s.dev.entryOf b).isSome) :
    exec (.unregister count) s = .next (s.withDev
      ((((s.dev.namedBlocks count.toNat).filterMap s.dev.entryOf).foldl (fun e i => e.unregister i) s.dev).blkCmdStart count.toNat .ok)) := by
  have hn : count.toNat ≠ 0 := BitVec.toNat_ne.1 hc
  have hok : ¬ (s.dev.namedBlocks count.toNat).any (fun b => (s.dev.homePart b).isNone || (s.dev.entryOf b).isNone) = true := by
    simpa [← Option.isSome_iff_ne_none] using hb
  change execUnregister count s = _
  rw [execUnregister, memCmd_of_takes h]
  dsimp only
  rw [if_neg hn, if_neg hok]

theorem exec_unregister_refused
    (hb : ∃ b ∈ s.dev.namedBlocks count.toNat, s.dev.homePart b = none ∨ s.dev.entryOf b = none) :
    exec (.unregister count) s = .next (s.withDev (s.dev.blkCmdStart count.toNat .accessError)) := by
  have hn : count.toNat ≠ 0 := BitVec.toNat_ne.1 hc
  have hbad : (s.dev.namedBlocks count.toNat).any (fun b => (s.dev.homePart b).isNone || (s.dev.entryOf b).isNone) = true := by
    simpa using hb
  change execUnregister count s = _
  rw [execUnregister, memCmd_of_takes h]
  dsimp only
  rw [if_neg hn, if_pos hbad]

end

/-- BLOCK_CMD_DONE with nothing left to free ends the command. -/
theorem exec_blockCmdDone_settled {s : State} {c : BlkCmd} (hc : s.dev.mem.cmd = some c) (hu : s.dev.mem.unreg = []) :
    exec .blockCmdDone s = .next (s.withDev
      ((((s.dev.fset Reg.MEM_BLK_STATUS_BUSY 0).fset Reg.MEM_BLK_STATUS_STATUS c.status.code).upMem (fun m => { m with cmd := none })).post 0
        .blockCmdDone c.status.code (c.first + c.count * 2 ^ 32))) := by
  change execBlockCmdDone s = _
  simp [execBlockCmdDone, onDev, State.withDev, hc, hu]

/-- Settles O19: each clause is the rule of its command, with the branch its hypotheses choose. -/
theorem blockCommandResults : Obligations.BlockCommandResults := by
  intro s
  extract_lets d
  intro h
  refine ⟨fun count hc => ?_, exec_register_zero h, exec_unregister_zero h, fun c => exec_blockCmdDone_settled⟩
  exact ⟨exec_register_accepted h hc, exec_register_refused h hc, exec_unregister_accepted h hc, exec_unregister_refused h hc⟩

end Sys2Proof.Machine
end

section
/-! PROOFS. Epochs of placement and the moves of blocks, a rule for each way a move goes on (R178, R180, R184, R186, R188). -/
namespace Sys2Proof.Machine
open Sys2Proof

section
variable {s : State}

/-- PLACEMENT_EPOCH_END while placement runs; which moves are decided is `new`. -/
theorem exec_placementEpochEnd_runs (takers : List (Nat × Nat)) (hl : s.dev.live = true) (hc : s.dev.committed = true)
    (hp : s.dev.fget Reg.PWR_STATE_STATE = 0) :
    let e := s.dev.finc Reg.MEM_EPOCH_COUNT_EPOCH
    ∃ new, exec (.placementEpochEnd takers) s = .next (s.withDev (e.upMem (fun m =>
      { m with blk := m.blk.mapVal (fun _ x => e.epochEntry x), moves := m.moves.filter (fun x => x.started) ++ new }))) := by
  extract_lets e
  have hon : ¬ (!s.dev.live || !s.dev.committed || decide (s.dev.fget Reg.PWR_STATE_STATE ≠ 0)) = true := by simp [hl, hc, hp]
  exact ⟨_, congrArg (fun d => Host.Outcome.next (s.withDev d)) (if_neg hon)⟩

/-- The first decided move of a partition that may start, if there is one. -/
def Dev.nextMove (d : Dev) (p : Nat) : Option Move :=
  (d.mem.moves.filter (fun m => decide (d.movePart m = p))).find?
    (fun m => !m.started && m.blocks.all (fun i => decide (blkState (d.blk i) = 1)) && d.moveReady p m)

theorem exec_moveStart_ready {p : Fin 32} {m : Move} (hl : s.dev.live = true) (hs : s.dev.inStandby = false)
    (hr : (s.dev.mem.moves.filter (fun m => decide (s.dev.movePart m = p.val))).any (fun m => m.started && !m.unreg) = false)
    (hm : s.dev.nextMove p.val = some m) : exec (.moveStart p) s = .next (s.withDev (s.dev.startMove p m)) := by
  change execMoveStart p s = _
  unfold Dev.nextMove at hm
  simp only [execMoveStart, onDev, hl, hs, hr, hm]
  rfl

section
variable {entry : BitVec 20} {m : Move} (hm : s.dev.moveOf entry.toNat = some m) (hb : s.dev.subsBad m.todo = none)
include hm hb

/-- COPY_PASS_DONE of a pass that read everything: the number of dirty sub-units and of passes chooses what follows (R184). -/
theorem exec_copyPassDone_readable (hh : m.held = false) (ha : m.announced = false) :
    let e := s.dev.copySubs m m.todo
    exec (.copyPassDone entry) s = .next (s.withDev
      (if m.dirty.length ≤ 16 then e.setMove { m with todo := m.dirty, dirty := [], held := true }
       else if 3 ≤ m.passes then e.abandonMove m Reg.MEM_MIG_ABANDONp_COUNT
       else e.setMove { m with todo := m.dirty, dirty := [], passes := m.passes + 1 })) := by
  change execCopyPassDone entry s = _
  simp [execCopyPassDone, onDev, State.withDev, hm, hb, hh, ha]

/-- MOVE_SWITCH of a local move to a faster tier whose copy can be read. -/
theorem exec_moveSwitch_local (hh : m.held = true) (hx : m.expert = none) (ht : m.toHome = false) (hu : m.unreg = false)
    (hr : (List.range 512).any (fun k => (s.dev.copySubs m m.todo).subBad (m.target + 4096 * k)) = false) :
    exec (.moveSwitch entry) s = .next (s.withDev
      ((((s.dev.copySubs m m.todo).dropMove m).blkSwitch (m.blocks.headD 0) false m.target).landHeld m.heldWrites)) := by
  change execMoveSwitch entry s = _
  simp only [execMoveSwitch, onDev, hm, hb, hh, hx, ht, hu, hr]
  rfl

end

theorem exec_lastReaderDone_releasing {entry : BitVec 20} (hst : blkState (s.dev.blk entry.toNat) = 3) :
    let e := (s.dev.upMem (fun m => { m with oldCopy := m.oldCopy.del entry.toNat })).blkSetState entry.toNat 1
    exec (.lastReaderDone entry) s = .next (s.withDev (if e.mem.unreg.contains entry.toNat then e.blkFree entry.toNat else e)) := by
  change execLastReaderDone entry s = _
  rw [execLastReaderDone, onDev]
  dsimp only
  rw [if_neg (not_not_intro hst)]
  rfl

end

/-- Settles O20: each clause is the rule of its event; for a copy pass, the branch that the dirty sub-units and the passes
choose. -/
theorem placementMoveResults : Obligations.PlacementMoveResults := by
  intro s
  refine ⟨fun takers hl hc hp => ?_, fun p m => exec_moveStart_ready, fun entry m hm hh ha hb => ?_,
    fun entry m hm hh hx ht hu hb hr => exec_moveSwitch_local hm hb hh hx ht hu hr, fun entry => exec_lastReaderDone_releasing⟩
  · obtain ⟨new, hu⟩ := exec_placementEpochEnd_runs takers hl hc hp
    exact ⟨_, hu, rfl, rfl, rfl, ⟨new, rfl⟩, rfl⟩
  · have hpass := exec_copyPassDone_readable hm hb hh ha
    refine ⟨fun hd => ?_, fun hd hn => ?_, fun hd hn => ?_⟩
    · rw [hpass, if_pos hd]
    · rw [hpass, if_neg (Nat.not_le.2 hd), if_neg (Nat.not_le.2 hn)]
    · rw [hpass, if_neg (Nat.not_le.2 hd), if_pos hn]

end Sys2Proof.Machine
end

section
/-! PROOFS. The background work of the memories (R169, R172 to R174). -/
namespace Sys2Proof.Machine
open Sys2Proof

section
variable {s : State}

/-- Scrubbing records a word outside the scratchpads that cannot be corrected, and leaves every other one alone (R172). -/
theorem exec_scrubPass_word {a : BitVec 42} {x : Site} (hl : s.dev.live = true) (hx : s.dev.site a.toNat = some x) (ht : x.tier ≠ .scratch) :
    exec (.scrubPass a) s = .next (s.withDev
      (if s.dev.siteBad x = true then s.dev.wordRecord a.toNat 4 0 0 0 0xFF 0xFFFF 0 else s.dev)) := by
  change execScrubPass a s = _
  simp [execScrubPass, onDev, State.withDev, hl, hx, ht]

/-- An ECC unit lies in the memory or in the scratchpads of a cluster. -/
def inCluster (c u : Nat) : Bool :=
  (decide (clusterBase c ≤ u) && decide (u < clusterBase c + clusterBytes)) ||
  (decide (scratchBase (16 * c) ≤ u) && decide (u < scratchBase (16 * c) + 16 * 0x200000))

theorem outside_of_not_inCluster {c u : Nat} (h : inCluster c u = false) : u < clusterBase c ∨ clusterBase c + clusterBytes ≤ u := by
  simp only [inCluster, Bool.or_eq_false_iff, Bool.and_eq_false_iff, decide_eq_false_iff_not] at h
  omega

theorem exec_clusterClearDone_busy {c : Fin 32} (h : s.dev.fbit Reg.MEM_CLEAR_BUSY_BUSY c = true) :
    exec (.clusterClearDone c) s = .next (s.withDev ((s.dev.fclr Reg.MEM_CLEAR_BUSY_BUSY (1 <<< c.val)).upMem
      (fun m => { m with bad := m.bad.filter (fun u => !inCluster c u) }))) := by
  change execClusterClearDone c s = _
  rw [execClusterClearDone, onDev, if_pos h]
  rfl

theorem exec_fullRetraining_due (h : 160 ≤ tempGap (s.dev.fget Reg.PWR_TEMP_MAX_TEMP) s.dev.mem.lastFullTemp) :
    exec .fullRetraining s = .next (s.withDev (s.dev.upMem (fun m => { m with lastFullTemp := s.dev.fget Reg.PWR_TEMP_MAX_TEMP }))) := by
  change execFullRetraining s = _
  rw [execFullRetraining, onDev]
  dsimp only
  rw [if_pos h]
  rfl

end

/-- Settles O22: each clause is the rule of its event; the units that a clear leaves bad are those outside the cluster. -/
theorem memoryBackground : Obligations.MemoryBackground := by
  intro s
  refine ⟨fun a x hl hx ht => ?_, fun c hc => ?_, rfl, rfl, exec_fullRetraining_due⟩
  · have hscrub := exec_scrubPass_word hl hx ht
    refine ⟨fun hb => ?_, fun hb => ?_⟩
    · rw [hscrub, if_pos hb]
    · rw [hscrub, if_neg (Bool.eq_false_iff.1 hb)]
      rfl
  · refine ⟨_, exec_clusterClearDone_busy hc, rfl, fun a ha => ?_, rfl⟩
    obtain ⟨hmem, hout⟩ := List.mem_filter.1 ha
    exact ⟨hmem, outside_of_not_inCluster (by simpa using hout)⟩

end Sys2Proof.Machine
end

section
/-! PROOFS. What each event of a link and each write to its control register makes of the device (R225 to R228, R244, R268). -/
namespace Sys2Proof.Machine
open Sys2Proof

theorem Dev.alive_of_running {d : Dev} (h : d.running = true) : d.alive = true := (Bool.and_eq_true_iff.1 h).1

section
variable {s : State} {n : Fin 64} (hr : s.dev.running = true)
include hr

theorem exec_trainingRestart_down (h0 : s.dev.linkState n = 0) (hd : s.dev.fon (Reg.ONF_LINKn_CTL_DISABLE n) = false) :
    exec (.trainingRestart n) s = .next (s.withDev (s.dev.startTraining n)) := by
  change execTrainingRestart n s = _
  simp [execTrainingRestart, onDev, State.withDev, hr, h0, hd]

/-- The end of training: 3 good lanes and every step done lead to ADMIT, all else to DOWN (R227). -/
theorem exec_trainingDone_training (ht : (s.dev.onfLink n).testing = false) (h1 : s.dev.linkState n = 1) (lanes : BitVec 4) (ok : Bool) :
    let good := s.dev.goodLanes n lanes
    let e := s.dev.fset (Reg.ONF_LINKn_STATE_LANES n) good.toNat
    let g := e.fset (Reg.ONF_LINKn_LAT_LAT0 n) (e.onfLink n).echoMax
    exec (.trainingDone n lanes ok) s = .next (s.withDev
      (if ok = true ∧ 3 ≤ popBits 4 good.toNat then ((g.setLinkState n 2).showReason n false).emit (.ident n (g.ownIdent n))
       else e.linkOut n 0)) := by
  intro good e g
  change execTrainingDone n lanes ok s = _
  rw [execTrainingDone, onDev]
  dsimp only
  rw [if_neg (by simp [hr, ht, h1])]
  rfl

/-- A link in ADMIT comes into service unless an admission condition fails, which it then shows (R228). -/
theorem exec_admission_admit (h2 : s.dev.linkState n = 2) (aligned : Bool) :
    exec (.admission n aligned) s = .next (s.withDev
      (if s.dev.admitReason n aligned = 0 then s.dev.linkIn n else s.dev.showReason n aligned)) := by
  change execAdmission n aligned s = _
  simp [execAdmission, onDev, State.withDev, hr, h2]

theorem exec_peerSilent_untested (ht : (s.dev.onfLink n).testing = false) :
    exec (.peerSilent n) s = .next (s.withDev (s.dev.startRetrain n)) := by
  change execPeerSilent n s = _
  simp [execPeerSilent, onDev, State.withDev, hr, ht]

/-- A link comes back from retraining: it goes on in state `st`, tells the leader, and resends what its peer has not
acknowledged before what waits (R244). -/
def Dev.resume (d : Dev) (n st : Nat) : Dev :=
  let g := ((d.setLinkState n st).report n st none).replayAll n
  (g.pump n (g.onfLink n).queue.length).releaseHeld

/-- The end of retraining: DOWN with fewer than 3 good lanes, UP with all 4, DEGRADED between (R225, R244). -/
theorem exec_retrainDone_retraining (h5 : s.dev.linkState n = 5) (lanes : BitVec 4) :
    let good := s.dev.goodLanes n lanes
    let e := (s.dev.fset (Reg.ONF_LINKn_STATE_LANES n) good.toNat).fset (Reg.ONF_LINKn_CTL_RETRAIN n) 0
    exec (.retrainDone n lanes) s = .next (s.withDev
      (if popBits 4 good.toNat < 3 then e.linkOut n 0 else e.resume n (if popBits 4 good.toNat = 4 then 3 else 4))) := by
  intro good e
  change execRetrainDone n lanes s = _
  rw [execRetrainDone, onDev]
  dsimp only
  rw [if_neg (by simp [hr, h5])]
  rfl

theorem exec_retrainLimit_retraining (h5 : s.dev.linkState n = 5) :
    exec (.retrainLimit n) s = .next (s.withDev (s.dev.linkOut n 0)) := by
  change execRetrainLimit n s = _
  simp [execRetrainLimit, onDev, State.withDev, hr, h5]

end

section
variable {s : State} {n : Fin 64} (ha : s.dev.alive = true)
include ha

/-- A write of DISABLE: 1 holds the link DISABLED, 0 lets a DISABLED one train (R225, R268). -/
theorem exec_linkDisable_untested (w : W32) :
    let e := s.dev.fset (Reg.ONF_LINKn_CTL_DISABLE n) (b2n (bitAt w.toNat 0))
    (e.onfLink n).testing = false → exec (.linkDisable n w) s = .next (s.withDev
      (if bitAt w.toNat 0 = true then e.linkOut n 6 else if e.linkState n = 6 then e.startTraining n else e)) := by
  intro e ht
  change execLinkDisable n w s = _
  rw [execLinkDisable, onDev]
  dsimp only
  rw [if_neg (by simp [ha]), if_neg (Bool.eq_false_iff.1 ht)]
  rfl

theorem exec_retrain_open {w : W32} (ht : (s.dev.onfLink n).testing = false) (hw : bitAt w.toNat 1 = true)
    (ho : s.dev.linkOpen n = true) :
    exec (.retrain n w) s = .next (s.withDev ((s.dev.fset (Reg.ONF_LINKn_CTL_RETRAIN n) 1).startRetrain n)) := by
  change execRetrain n w s = _
  simp [execRetrain, onDev, State.withDev, ha, ht, hw, ho]

end

end Sys2Proof.Machine
end

section
/-! PROOFS. The states of a pod link (O25). -/
namespace Sys2Proof.Machine
open Sys2Proof

/-- Settles O25: each clause is the rule of its event, in the branch that the good lanes, the failing condition or the
written bit chooses. -/
theorem linkStateResults : Obligations.LinkStateResults := by
  intro s n
  extract_lets d k
  intro hr ht
  have ha := Dev.alive_of_running hr
  refine ⟨exec_trainingRestart_down hr, fun h1 lanes => ?_, fun h2 aligned => ?_, exec_peerSilent_untested hr ht,
    fun h5 lanes => ?_, fun w => ?_⟩
  · have hdone := exec_trainingDone_training hr ht h1 lanes
    refine ⟨fun h => ?_, fun h => ?_, ?_⟩
    · rw [hdone, if_pos ⟨rfl, h⟩]
    · rw [hdone, if_neg fun hc => Nat.not_le.2 h hc.2]
    · rw [hdone, if_neg fun hc => Bool.false_ne_true hc.1]
  · have hadmit := exec_admission_admit hr h2 aligned
    exact ⟨fun h => by rw [hadmit, if_pos h], fun h => by rw [hadmit, if_neg h]⟩
  · have hdone := exec_retrainDone_retraining hr h5 lanes
    refine ⟨fun h => ?_, fun h => ?_, fun h => ?_, exec_retrainLimit_retraining hr h5⟩
    · rw [hdone, if_neg (Nat.not_lt.2 (Nat.le_of_lt h.ge)), if_pos h]
      rfl
    · rw [hdone, if_neg (Nat.not_lt.2 h.ge), if_neg fun h4 => absurd (h.symm.trans h4) (by decide)]
      rfl
    · rw [hdone, if_pos h]
  · intro e he
    have hwrite := exec_linkDisable_untested ha w he
    refine ⟨fun h => ?_, fun h h6 => ?_, exec_retrain_open ha ht⟩
    · rw [hwrite, if_pos h]
    · rw [hwrite, if_neg (Bool.eq_false_iff.1 h), if_pos h6]

end Sys2Proof.Machine
end

section
/-! PROOFS. What pod time, the choice of a leader and the congestion maps make of the device, a rule for each event
(R237, R238, R247, R248, R251, R252, R265, R266). -/
namespace Sys2Proof.Machine
open Sys2Proof

/-- The device follows a leader's PODTIME that came on a link: aligned to it, with the copy remembered and the leader's
settings of the congestion maps (R251, R266). -/
def Dev.follow (d : Dev) (h : CtlHead) (leader : Nat) (time : W64) (frames : Nat) (en : Bool) (hops : Nat) : Dev :=
  ((d.takeLeader leader true).alignTo h.link.val time).upOnf (fun o =>
    { o with lastPod := some (h.bseq.toNat, hops, d.mapRank h.link.val), claim := none, cmapFrames := max 16 frames, cmapEn := en })

/-- The first copy of a broadcast PODTIME of a leader that the device may follow (R248, R251). -/
theorem exec_podtime_first {s : State} {h : CtlHead} {e : Dev} (hc : CtlTaken s.dev h e)
    (hseen : e.onf.seen.contains (hdrSrc h.hdr, h.bseq.toNat) = false) {leader : Fin 64} (ht : e.podtimeTaken leader.val = true)
    (time : W64) (frames : BitVec 16) (en : Bool) (hops : Nat) :
    exec (.podtime h leader time frames en hops) s = .next (s.withDev
      ((e.follow h leader time frames.toNat en hops).relay h.link.val (hdrSrc h.hdr) h.bseq.toNat
        (.podtime leader.val time frames.toNat en (hops + 1))).1) := by
  obtain ⟨htake, hfence⟩ := hc
  change execPodtime h leader time frames en hops s = _
  rw [execPodtime, onDev]
  dsimp only
  rw [htake]
  dsimp only
  rw [if_neg (Bool.eq_false_iff.1 hfence), if_pos (by simp only [ht, hseen, Bool.false_eq_true, if_false, Bool.and_self])]
  rfl

section
variable {s : State} (hl : s.dev.live = true)
include hl

theorem exec_podtimeSend_leader (hd : s.dev.leads = true) :
    let e := s.dev.upOnf (fun o => { o with cmapFrames := s.dev.cmapFrames, cmapEn := s.dev.fon Reg.ONF_CMAP_CTL_EN })
    exec .podtimeSend s = .next (s.withDev
      (e.broadcast (.podtime e.rank (e.regGet Reg.ONF_PODTIME) e.onf.cmapFrames e.onf.cmapEn 0))) := by
  intro e
  change execPodtimeSend s = _
  rw [execPodtimeSend, onDev]
  dsimp only
  rw [if_neg (by simp [hl, hd])]
  rfl

section
variable (hc : s.dev.committed = true)
include hc

section
variable (hu : s.dev.onf.upSeen = true) (ho : s.dev.onf.closed = false) (hf : s.dev.onf.follows = false)
include hu ho hf

/-- A device whose strap is high claims while the image names no leader and it has heard no lower rank (R248). -/
theorem exec_claimSend_strapped (hs : s.dev.fon Reg.GLB_STRAPS_LEADER = true) (hi : s.dev.imageLeader = 0xFF)
    (hr : s.dev.rank ≤ s.dev.onf.claim.getD 64) :
    exec .claimSend s = .next (s.withDev
      ((s.dev.upOnf (fun o => { o with claim := some s.dev.rank })).broadcast (.claim s.dev.rank))) := by
  change execClaimSend s = _
  rw [execClaimSend, onDev]
  rw [if_neg (by simp [hl, hs, hc, hi, hu, ho, hf, hr])]
  rfl

/-- A leader that the image names leads when the election closes (R247). -/
theorem exec_electionClose_image (hi : s.dev.imageLeader ≠ 0xFF) :
    exec .electionClose s = .next (s.withDev
      ((s.dev.upOnf (fun o => { o with closed := true })).takeLeader s.dev.imageLeader false)) := by
  change execElectionClose s = _
  rw [execElectionClose, onDev]
  dsimp only
  rw [if_neg (by simp [hl, hc, hu, ho]), if_pos hi, Dev.upOnf_onf, if_neg (Bool.eq_false_iff.1 hf)]
  rfl

end

section
variable (hd : s.dev.leads = false)
include hd

/-- The leader is silent after the election: the first backup rank that is not lost leads (R247). -/
theorem exec_leaderSilence_backup (ho : s.dev.onf.closed = true) {r : Nat} {rest : List Nat}
    (hb : (listOf 4 (fun i => (s.dev.sec secPodTopology).u8 (8 + i))).filter
      (fun r => decide (r < 64) && !s.dev.rankLost r) = r :: rest) :
    exec .leaderSilence s = .next (s.withDev (s.dev.takeLeader r (decide (r ≠ s.dev.rank)))) := by
  change execLeaderSilence s = _
  rw [execLeaderSilence, onDev]
  dsimp only
  rw [if_neg (by simp [hl, hc, hd, ho]), hb]
  rfl

/-- The end of an interval at a member: its record goes toward the leader in 12 parts (R265, R266). -/
theorem exec_cmapIntervalEnd_member (he : s.dev.onf.cmapEn = true) :
    let sendPart (e : Dev) (i : Nat) : Dev :=
      e.toLeader e.rank (.cmap e.rank i (BitVec.ofNat 384 (leNat ((s.dev.cmapRecord.drop (48 * i)).take 48))))
    exec .cmapIntervalEnd s = .next (s.withDev
      (((List.range 12).foldl sendPart { s.dev with fresh := s.dev.fresh + 64 }).upOnf (fun o =>
        { o with interval := o.interval + 1, links := o.links.mapVal (fun _ l => { l with stalls := 0, replays := 0, slip := 0 }) }))) := by
  intro sendPart
  have hfresh : ({ s.dev with fresh := s.dev.fresh + 64 } : Dev).leads = false := hd
  change execCmapIntervalEnd s = _
  rw [execCmapIntervalEnd, onDev]
  dsimp only
  rw [if_neg (by simp [hl, hc, hd, he]), if_neg (Bool.eq_false_iff.1 hfresh)]
  rfl

end

end

/-- A frame of an aligned device begins: pod time reaches it and the rate guard takes 1 ns off the offset (R237, R252). -/
def Dev.nextFrame (d : Dev) : Dev :=
  let o : Int := if 0 < d.onf.offset then d.onf.offset - 1 else if d.onf.offset < 0 then d.onf.offset + 1 else d.onf.offset
  let e := (d.upOnf (fun x => { x with offset := o })).fset Reg.ONF_ALIGN_OFFSET (BitVec.ofInt 8 (max (-128) (min 127 o))).toNat
  e.regSet Reg.ONF_PODTIME (BitVec.ofNat 64 ((e.podTime / 1024 + 1) * 1024))

/-- With no link in TRAINING or ADMIT, a frame start at a member sends nothing (R227, R276). -/
theorem exec_frameStart_quiet (ha : s.dev.frameAligned = true)
    (hn : ∀ n ∈ List.range 64, s.dev.nextFrame.linkState n ≠ 1 ∧ s.dev.nextFrame.linkState n ≠ 2)
    (hd : s.dev.nextFrame.leads = false) : exec .frameStart s = .next (s.withDev s.dev.nextFrame) := by
  have hidents (f : Dev → Nat → Dev) : ((List.range 64).filter (fun n =>
      decide (s.dev.nextFrame.linkState n = 1 ∨ s.dev.nextFrame.linkState n = 2))).foldl f s.dev.nextFrame = s.dev.nextFrame := by
    rw [List.filter_eq_nil_iff.2 fun n hm => by simpa using hn n hm, List.foldl_nil]
  have hbase {e : Dev} (he : e = s.dev.nextFrame) (b c : Bool) : ¬ (e.leads && !e.onf.baseSent && b && c) = true := by
    simp [he, hd]
  change execFrameStart s = _
  rw [execFrameStart, onDev]
  dsimp only
  rw [if_neg (by simp [hl]), if_pos ha]
  exact congrArg (fun e => Host.Outcome.next (s.withDev e)) ((if_neg (hbase (hidents _) _ _)).trans (hidents _))

end

end Sys2Proof.Machine
end

section
/-! PROOFS. Pod time, leadership and congestion maps (O28). -/
namespace Sys2Proof.Machine
open Sys2Proof

/-- Settles O28: each clause is the rule of its event, where its hypotheses choose the branch. -/
theorem podTimeResults : Obligations.PodTimeResults := by
  intro s
  extract_lets d
  refine ⟨fun h leader time frames en hops e hc hseen ht => exec_podtime_first hc hseen ht time frames en hops,
    exec_podtimeSend_leader, fun hl hs hc hi hu ho hf hr => exec_claimSend_strapped hl hc hu ho hf hs hi hr,
    fun hl hc hd ho r rest hb => exec_leaderSilence_backup hl hc hd ho hb,
    fun hl hc hu ho hf hi => exec_electionClose_image hl hc hu ho hf hi, exec_frameStart_quiet,
    exec_cmapIntervalEnd_member⟩

end Sys2Proof.Machine
end

section
/-! PROOFS. What the commands of work queues and event queues make of the device, a rule for each outcome (R311 to R313,
R326, R602). -/
namespace Sys2Proof.Machine
open Sys2Proof

/-- A queue as CREATE_WQ makes it from a context: ACTIVE, with nothing posted (R312). -/
def Wq.created (c : BitVec 512) : Wq :=
  { ctx := c, state := .active, tail := 0, head := 0, fails := 0, next := 0, fetched := [], started := [], finished := [],
    complete := [], tries := 0, unpub := false, news := false, arm := false, quiet := false, events := [] }

section
variable {s : State} (h : Takes s.dev Reg.WQS_CMD_STATUS_BUSY)
include h

theorem wqsCmd_of_takes (f : Dev → Dev) : wqsCmd s f = .next (s.withDev (f s.dev)) :=
  congrArg (fun d => Host.Outcome.next (s.withDev d)) (Dev.command_of_takes h _ f)

/-! ## Work queues -/

section
variable {qid : BitVec 16}

theorem exec_createWq_accepted (hok : s.dev.createWqCheck qid.toNat s.dev.stagedWq = .ok) :
    exec (.createWq qid) s = .next (s.withDev ((s.dev.wqSet qid.toNat (Wq.created s.dev.stagedWq)).wqsStatus .ok)) := by
  change execCreateWq qid s = _
  rw [execCreateWq, wqsCmd_of_takes h]
  dsimp only
  rw [hok]
  rfl

theorem exec_createWq_refused (hbad : s.dev.createWqCheck qid.toNat s.dev.stagedWq ≠ .ok) :
    exec (.createWq qid) s = .next (s.withDev (s.dev.wqsStatus (s.dev.createWqCheck qid.toNat s.dev.stagedWq))) := by
  change execCreateWq qid s = _
  rw [execCreateWq, wqsCmd_of_takes h]
  dsimp only
  split
  · contradiction
  · rfl

theorem exec_destroyWq_active {q : Wq} (hq : s.dev.wqFind qid.toNat = some q) (ha : q.state = .active) :
    exec (.destroyWq qid) s = .next (s.withDev ((s.dev.wqDrain qid.toNat).wqsStatus .ok)) := by
  change execDestroyWq qid s = _
  rw [execDestroyWq, wqsCmd_of_takes h, hq]
  dsimp only
  rw [ha]

theorem exec_destroyWq_reset (hq : s.dev.wqFind qid.toNat = none) :
    exec (.destroyWq qid) s = .next (s.withDev (s.dev.wqsStatus .ok)) := by
  change execDestroyWq qid s = _
  rw [execDestroyWq, wqsCmd_of_takes h, hq]

theorem exec_queryWq_found {q : Wq} (hq : s.dev.wqFind qid.toNat = some q) :
    exec (.queryWq qid) s = .next (s.withDev ((s.dev.putWords Reg.WQS_CMD_DATAi 16 (wqQuery q)).wqsStatus .ok)) := by
  change execQueryWq qid s = _
  rw [execQueryWq, wqsCmd_of_takes h, hq]

theorem exec_queryWq_reset (hq : s.dev.wqFind qid.toNat = none) :
    exec (.queryWq qid) s = .next (s.withDev ((s.dev.putWords Reg.WQS_CMD_DATAi 16 0).wqsStatus .ok)) := by
  change execQueryWq qid s = _
  rw [execQueryWq, wqsCmd_of_takes h, hq]

end

/-! ## Event queues -/

section
variable {target : BitVec 16} (hfn : s.dev.isFn target.toNat = true)
include hfn

/-- CREATE_EQ with fields in range, for a function that has no event queue and, unless it is PF0, the root that it names (R326). -/
theorem exec_createEq_accepted :
    let fn := target.toNat
    let x := s.dev.dataWords Reg.WQS_CMD_DATAi 3
    fld x 0 64 % 4096 = 0 → fld x 64 16 < fnVectors fn → fld x 90 6 = 0 → (fn = 0 → fld x 80 10 = 0) →
    (s.dev.ev.eqs.find fn).isSome = false → (fn ≠ 0 → (s.dev.dtu.roots.find (fld x 80 10)).map (·.fn) = some fn) →
    exec (.createEq target) s = .next (s.withDev
      (((s.dev.upEv (fun e => { e with eqs := e.eqs.set fn ⟨fld x 0 64, fld x 64 16, fld x 80 10, 0, 0, false, false, false⟩ })).postPending fn
        4100).wqsStatus .ok)) := by
  intro fn x hbase hvec hzero hpf0 hnew hroot
  change execCreateEq target s = _
  rw [execCreateEq, wqsCmd_of_takes h]
  dsimp only
  rw [if_neg, if_neg]
  · exact fun hbad => hbad.2 (hroot hbad.1)
  · rintro (hbad | hbad | hbad | hbad | ⟨hz, hbad⟩ | hbad)
    · exact Bool.false_ne_true (hbad.symm.trans hfn)
    · exact hbad hbase
    · exact hbad (.inr hvec)
    · exact hbad hzero
    · exact hbad (hpf0 hz)
    · exact Bool.false_ne_true (hnew.symm.trans hbad)

theorem exec_destroyEq_fn :
    exec (.destroyEq target) s = .next (s.withDev
      ((s.dev.upEv (fun e => { e with eqs := e.eqs.del target.toNat })).wqsStatus .ok)) := by
  change execDestroyEq target s = _
  rw [execDestroyEq, wqsCmd_of_takes h, if_pos hfn]

theorem exec_queryEq_fn :
    exec (.queryEq target) s = .next (s.withDev
      ((s.dev.putWords Reg.WQS_CMD_DATAi 16 (s.dev.eqQuery target.toNat)).wqsStatus .ok)) := by
  change execQueryEq target s = _
  rw [execQueryEq, wqsCmd_of_takes h, if_pos hfn]

end

theorem exec_createEq_exists {target : BitVec 16} (he : (s.dev.ev.eqs.find target.toNat).isSome = true) :
    exec (.createEq target) s = .next (s.withDev (s.dev.wqsStatus .malformed)) := by
  change execCreateEq target s = _
  rw [execCreateEq, wqsCmd_of_takes h]
  dsimp only
  rw [if_pos (.inr (.inr (.inr (.inr (.inr he)))))]

end

/-- Settles O32: each clause is the rule of its command; the queue that a CREATE_WQ names field by field is `Wq.created`. -/
theorem queueCommandResults : Obligations.QueueCommandResults := by
  intro s
  extract_lets d
  intro h
  refine ⟨fun qid => ⟨fun hok => ?_, exec_createWq_refused h, fun q hq => ⟨exec_destroyWq_active h hq, ?_⟩,
    fun hq => ⟨exec_destroyWq_reset h hq, exec_queryWq_reset h hq⟩⟩, fun target => ?_⟩
  · intro x
    cases x
    intros
    subst_vars
    exact exec_createWq_accepted h hok
  · rw [exec_queryWq_found h hq, wqQuery]
  · intro _ hfn
    exact ⟨exec_createEq_accepted h hfn, exec_createEq_exists h, exec_destroyEq_fn h hfn, exec_queryEq_fn h hfn⟩

end Sys2Proof.Machine
end

section
/-! PROOFS. What ring fetches, completions and the events of a host link make of the device, a rule for each event (R301,
R317, R321, R322, R334 to R337). -/
namespace Sys2Proof.Machine
open Sys2Proof

/-! ## Ring fetches and completions -/

/-- The bytes of a ring fetch are taken in when its queue is ACTIVE, has an entry to fetch and room for it, and its root
translates the slot; a first fetch and a fetch again differ in the count alone (R317). -/
theorem Dev.wqFetch_ok {d g : Dev} {qid : BitVec 16} {q : Wq} {p : Nat × Nat} {again : Bool} (hq : d.wqFind qid.toNat = some q)
    (ha : q.state = .active) (hi : q.fetchIdx ≠ q.tail) (hl : d.live = true) (hn : q.fetched.length < 64)
    (ht : decide (q.tries ≠ 0) = again)
    (hx : ((if again then d.finc Reg.WQS_REFETCH_COUNT else d).readEnd (.ring qid)).wqXlate qid.toNat (wqSlot q q.fetchIdx) false =
      (g, some p)) (bs : List Byte) :
    d.wqFetch qid.toNat again (.ok bs) = g.wqTake qid.toNat q (descOfBytes bs) := by
  have hopen : ¬ (q.state ≠ .active ∨ q.fetchIdx = q.tail ∨ d.live = false ∨ (decide (q.tries ≠ 0) ≠ again) ∨ 64 ≤ q.fetched.length) := by
    simp [ha, hi, hl, hn, ht]
  rw [Dev.wqFetch, hq]
  dsimp only
  rw [if_neg hopen, BitVec.ofNat_toNat, BitVec.setWidth_eq, hx]

section
variable {g : Dev} {q : Wq} {x : BitVec 512} (qid : Nat)

theorem Dev.wqTake_match (hseq : descSeq x = q.fetchIdx % 65536) :
    g.wqTake qid q x = (g.wqSet qid { q with fetched := q.fetched ++ [⟨q.fetchIdx, x⟩], tries := 0 }).wqSettle qid 65537 :=
  if_pos hseq

theorem Dev.wqTake_mismatch (hseq : descSeq x ≠ q.fetchIdx % 65536) (ht : q.tries < 4) :
    g.wqTake qid q x = g.wqSet qid { q with tries := q.tries + 1 } :=
  (if_neg hseq).trans (if_pos ht)

end

section
variable {s : State} {qid : BitVec 16} {q : Wq} (hq : s.dev.wqFind qid.toNat = some q)
include hq

theorem exec_entryCompletion_finished {x : WqDone} {rest : List WqDone} (hf : q.finished = x :: rest) :
    exec (.entryCompletion qid) s = .next (s.withDev
      ((((s.dev.wqSet qid.toNat { q with finished := rest }).wqComplete qid.toNat x).wqDrained qid.toNat).wqSettle qid.toNat 65537)) := by
  change execEntryCompletion qid s = _
  rw [execEntryCompletion, onDev, hq]
  dsimp only
  rw [hf]
  rfl

theorem exec_completionWordWrite_waiting (hu : q.unpub = true) (ha : q.state = .active) :
    exec (.completionWordWrite qid) s = .next (s.withDev (s.dev.wqPublish qid.toNat)) := by
  change execCompletionWordWrite qid s = _
  simp [execCompletionWordWrite, onDev, State.withDev, hq, hu, ha]

end

/-! ## Events of a host link -/

/-- A link shows what it trained at; FLIT is always on at generation 6, and only link 0 with its strap can be CXL (R301). -/
def Dev.hifTrained (d : Dev) (k : Fin 8) (gen : Fin 8) (width : BitVec 5) (flit cxl : Bool) : Dev :=
  let d := d.fset (Reg.HIF_LINKk_STATUS_GEN k) gen.val
  let d := d.fset (Reg.HIF_LINKk_STATUS_WIDTH k) width.toNat
  let d := d.fset (Reg.HIF_LINKk_STATUS_FLIT k) (b2n (flit || decide (gen.val = 6)))
  d.fset (Reg.HIF_LINKk_STATUS_CXL k) (b2n (cxl && decide (k.val = 0) && d.pw.straps.cxl))

/-- The functions behind a link post the events that wait for it (R326). -/
def Dev.postBehind (d : Dev) (k : Nat) : Dev :=
  (List.range 264).foldl (fun d f => if fnLink f = k ∧ (d.pendStore f).ents ≠ [] then d.postPending f 4100 else d) d

section
variable {s : State} {k : Fin 8}

theorem exec_linkRecovery_up (h2 : s.dev.fget (Reg.HIF_LINKk_STATUS_STATE k) = 2) :
    exec (.linkRecovery k) s = .next (s.withDev ((s.dev.finc (Reg.HIF_LINKk_RECOVERY_COUNT k)).hifState k 3)) := by
  change execLinkRecovery k s = _
  rw [execLinkRecovery, onDev, if_pos h2]
  rfl

section
variable (ha : s.dev.alive = true)
include ha

section
variable (hk : s.dev.linkPresent k = true) (hi : s.dev.pw.initDone = true) (hp : s.dev.pw.perst.getLsbD (k.val / 2) = true)
  (gen : Fin 8) (width : BitVec 5) (flit cxl : Bool)
include hk hi hp

theorem exec_hostLinkUp_recovered (h3 : s.dev.fget (Reg.HIF_LINKk_STATUS_STATE k) = 3) :
    exec (.hostLinkUp k gen width flit cxl) s = .next (s.withDev (s.dev.hifState k 2)) := by
  change execHostLinkUp k gen width flit cxl s = _
  rw [execHostLinkUp, onDev]
  dsimp only
  rw [if_neg (by simp [ha, hk, hi, hp]), if_pos h3]
  rfl

theorem exec_hostLinkUp_trained (h2 : s.dev.fget (Reg.HIF_LINKk_STATUS_STATE k) ≠ 2)
    (h3 : s.dev.fget (Reg.HIF_LINKk_STATUS_STATE k) ≠ 3) (hg3 : 3 ≤ gen.val) (hg6 : gen.val ≤ 6)
    (hw : (s.dev.linkWidths k).contains width.toNat = true) :
    exec (.hostLinkUp k gen width flit cxl) s = .next (s.withDev
      ((((s.dev.hifTrained k gen width flit cxl).hifState k 2).pcieLink k).postBehind k)) := by
  have htrains : ¬ (s.dev.fget (Reg.HIF_LINKk_STATUS_STATE k) = 2 ∨ gen.val < 3 ∨ 6 < gen.val ∨
      (s.dev.linkWidths k).contains width.toNat = false) := by
    rintro (hbad | hbad | hbad | hbad)
    · exact h2 hbad
    · exact Nat.not_lt.2 hg3 hbad
    · exact Nat.not_lt.2 hg6 hbad
    · exact Bool.false_ne_true (hbad.symm.trans hw)
  change execHostLinkUp k gen width flit cxl s = _
  rw [execHostLinkUp, onDev]
  dsimp only
  rw [if_neg (by simp [ha, hk, hi, hp]), if_neg h3, if_neg htrains]
  rfl

end

theorem exec_hostLinkLoss_up (hu : s.dev.linkUp k = true) :
    exec (.hostLinkLoss k) s = .next (s.withDev (s.dev.linkLoss k)) := by
  change execHostLinkLoss k s = _
  rw [execHostLinkLoss, onDev, if_pos ⟨ha, hu⟩]
  rfl

theorem exec_reinit_alive : exec (.reinit k) s = .next (s.withDev (s.dev.reinit k)) := by
  change execReinit k s = _
  rw [execReinit, onDev, if_pos ha]
  rfl

end

/-- A read without its completion is issued once more, and the second time its user ends (R335). -/
theorem exec_cplTimeout_outstanding {user : ReadUser} (hl : s.dev.live = true) (hu : s.dev.linkUp k = true)
    (hr : s.dev.reads user = true) :
    exec (.cplTimeout k user) s = .next (s.withDev
      (if s.dev.hif.reissued.contains user then s.dev.endReader user .lost .hostLost
       else (s.dev.finc (Reg.HIF_LINKk_CPL_TO_COUNT k)).upHif (fun h => { h with reissued := h.reissued ++ [user] }))) := by
  change execCplTimeout k user s = _
  rw [execCplTimeout, onDev, if_neg (by simp [hl, hu, hr])]
  rfl

end

/-- A link that is initialised again is no longer lost (R337). -/
theorem Dev.not_mem_reinit_lost (d : Dev) (k : Nat) : k ∉ (d.reinit k).hif.lost := by
  simp [Dev.reinit]

/-- Settles O33: each clause is the rule of its event. -/
theorem entryAndLinkResults : Obligations.EntryAndLinkResults := by
  intro s
  extract_lets d
  refine ⟨fun qid q bs g p hq ha hi hl hn => ⟨fun ht hx => ?_, fun ht hx => ?_, fun x => Dev.wqTake_match _, fun x => Dev.wqTake_mismatch _⟩,
    fun qid q hq => ⟨fun x rest => exec_entryCompletion_finished hq, exec_completionWordWrite_waiting hq⟩, fun k => ?_⟩
  · exact congrArg (fun e => Host.Outcome.next (s.withDev e)) (Dev.wqFetch_ok (again := false) hq ha hi hl hn (by simp [ht]) hx bs)
  · exact congrArg (fun e => Host.Outcome.next (s.withDev e)) (Dev.wqFetch_ok (again := true) hq ha hi hl hn (by simp [ht]) hx bs)
  extract_lets st
  refine ⟨exec_linkRecovery_up, fun ha hk hi hp gen width flit cxl => ⟨exec_hostLinkUp_recovered ha hk hi hp gen width flit cxl, ?_⟩,
    exec_hostLinkLoss_up, fun hl hu user hr => ?_, fun ha => ⟨exec_reinit_alive ha, rfl, rfl, rfl, Dev.not_mem_reinit_lost d k⟩⟩
  · exact exec_hostLinkUp_trained ha hk hi hp gen width flit cxl
  · have htimeout := exec_cplTimeout_outstanding hl hu hr
    exact ⟨fun h => by rw [htimeout, if_neg (Bool.eq_false_iff.1 h)], fun h => by rw [htimeout, if_pos h]⟩

end Sys2Proof.Machine
end

section
/-! PROOFS. What arriving and leaving frames, the states of a port and its gate lists make of the device, a rule for each
event (R343 to R345, R354, R355, R361, R362, R365 to R367). -/
namespace Sys2Proof.Machine
open Sys2Proof

/-! ## Arriving frames -/

/-- A frame counted at its port, with the codewords that its FEC corrected and could not correct (R345). -/
def Dev.rxCounted (d : Dev) (p : Nat) (corr uncorr : BitVec 32) : Dev :=
  ((d.fadd (Reg.ETH_PORTp_FEC_CORR_COUNT p) corr.toNat).fadd (Reg.ETH_PORTp_FEC_UNCORR_COUNT p) uncorr.toNat).finc
    (Reg.ETH_PORTp_RX_FRAMES_COUNT p)

/-- The counter of the first check that a frame fails, in the order of R344; none when it passes them all. -/
def Dev.rxFailure (d : Dev) (p : Nat) (bytes : List Byte) (pcs : Bool) (uncorr : BitVec 32) : Option RegField :=
  if bytes.length < 64 then some (Reg.ETH_PORTp_RX_RUNT_COUNT p)
  else if pcs = true ∨ uncorr ≠ 0 then some (Reg.ETH_PORTp_RX_PCS_ERR_COUNT p)
  else if leNat (bytes.drop (bytes.length - 4)) ≠ (crc32 (bytes.take (bytes.length - 4))).toNat then some (Reg.ETH_PORTp_RX_FCS_COUNT p)
  else if d.fget (Reg.ETH_PORTp_CTL_MTU p) < bytes.length then some (Reg.ETH_PORTp_RX_OVERSIZE_COUNT p)
  else if (beAt bytes 0 1).testBit 0 = false ∧ beAt bytes 0 6 ≠ d.fget (Reg.ETH_PORTp_MAC_ADDR p) ∧
    d.fon (Reg.ETH_PORTp_CTL_PROMISC p) = false then some (Reg.ETH_PORTp_RX_DA_DROP_COUNT p)
  else none

section
variable {d : Dev} {p : Nat} {bytes : List Byte} {pcs : Bool} {uncorr : BitVec 32}

theorem Dev.rxFailure_runt (hn : bytes.length < 64) :
    d.rxFailure p bytes pcs uncorr = some (Reg.ETH_PORTp_RX_RUNT_COUNT p) := if_pos hn

section
variable (hn : 64 ≤ bytes.length)
include hn

theorem Dev.rxFailure_pcs (he : pcs = true ∨ uncorr ≠ 0) :
    d.rxFailure p bytes pcs uncorr = some (Reg.ETH_PORTp_RX_PCS_ERR_COUNT p) := by
  rw [Dev.rxFailure, if_neg (Nat.not_lt.2 hn), if_pos he]

section
variable (hp : pcs = false) (hu : uncorr = 0)
include hp hu

theorem Dev.rxFailure_fcs (hf : leNat (bytes.drop (bytes.length - 4)) ≠ (crc32 (bytes.take (bytes.length - 4))).toNat) :
    d.rxFailure p bytes pcs uncorr = some (Reg.ETH_PORTp_RX_FCS_COUNT p) := by
  rw [Dev.rxFailure, if_neg (Nat.not_lt.2 hn), if_neg (by simp [hp, hu]), if_pos hf]

section
variable (hf : leNat (bytes.drop (bytes.length - 4)) = (crc32 (bytes.take (bytes.length - 4))).toNat)
include hf

theorem Dev.rxFailure_oversize (hm : d.fget (Reg.ETH_PORTp_CTL_MTU p) < bytes.length) :
    d.rxFailure p bytes pcs uncorr = some (Reg.ETH_PORTp_RX_OVERSIZE_COUNT p) := by
  rw [Dev.rxFailure, if_neg (Nat.not_lt.2 hn), if_neg (by simp [hp, hu]), if_neg (not_not.2 hf), if_pos hm]

variable (hm : bytes.length ≤ d.fget (Reg.ETH_PORTp_CTL_MTU p))
include hm

theorem Dev.rxFailure_address (ha : (beAt bytes 0 1).testBit 0 = false ∧ beAt bytes 0 6 ≠ d.fget (Reg.ETH_PORTp_MAC_ADDR p) ∧
    d.fon (Reg.ETH_PORTp_CTL_PROMISC p) = false) :
    d.rxFailure p bytes pcs uncorr = some (Reg.ETH_PORTp_RX_DA_DROP_COUNT p) := by
  rw [Dev.rxFailure, if_neg (Nat.not_lt.2 hn), if_neg (by simp [hp, hu]), if_neg (not_not.2 hf), if_neg (Nat.not_lt.2 hm), if_pos ha]

theorem Dev.rxFailure_none (ha : (beAt bytes 0 1).testBit 0 = true ∨ beAt bytes 0 6 = d.fget (Reg.ETH_PORTp_MAC_ADDR p) ∨
    d.fon (Reg.ETH_PORTp_CTL_PROMISC p) = true) :
    d.rxFailure p bytes pcs uncorr = none := by
  have hmine : ¬ ((beAt bytes 0 1).testBit 0 = false ∧ beAt bytes 0 6 ≠ d.fget (Reg.ETH_PORTp_MAC_ADDR p) ∧
      d.fon (Reg.ETH_PORTp_CTL_PROMISC p) = false) := by
    rintro ⟨hgroup, hother, hplain⟩
    simp [hgroup, hother, hplain] at ha
  rw [Dev.rxFailure, if_neg (Nat.not_lt.2 hn), if_neg (by simp [hp, hu]), if_neg (not_not.2 hf), if_neg (Nat.not_lt.2 hm), if_neg hmine]

end

end

end

end

section
variable {s : State} {p : Fin 32} (hl : s.dev.live = true) (hx : s.dev.portExists p = true) (hs : s.dev.portState p = 3)
  {bytes : List Byte} {pcs : Bool} {corr uncorr : BitVec 32}
include hl hx hs

/-- A frame at an UP port is counted, and the first check that it fails drops it with that check's counter (R344, R345). -/
theorem exec_rxFrame_dropped {f : RegField} (h : (s.dev.rxCounted p corr uncorr).rxFailure p bytes pcs uncorr = some f) :
    exec (.rxFrame p bytes pcs corr uncorr) s = .next (s.withDev ((s.dev.rxCounted p corr uncorr).finc f)) := by
  change execRxFrame p bytes pcs corr uncorr s = _
  rw [execRxFrame, onDev]
  dsimp only
  rw [if_neg (by simp [hl, hx, hs]), ← Dev.rxCounted]
  rw [Dev.rxFailure] at h
  split_ifs at h with hrunt hpcs hfcs hover haddr <;> cases h
  · rw [if_pos hrunt]
    rfl
  · rw [if_neg hrunt, if_pos (by simpa using hpcs)]
    rfl
  · rw [if_neg hrunt, if_neg (by simpa using hpcs), if_pos hfcs]
    rfl
  · rw [if_neg hrunt, if_neg (by simpa using hpcs), if_neg hfcs, if_pos hover]
    rfl
  · rw [if_neg hrunt, if_neg (by simpa using hpcs), if_neg hfcs, if_neg hover, if_pos (by simpa [and_assoc] using haddr)]
    rfl

/-- A frame that passes every check is flow control and consumed, or, with MACsec off, goes to the rules (R344, R354). -/
theorem exec_rxFrame_passed (h : (s.dev.rxCounted p corr uncorr).rxFailure p bytes pcs uncorr = none) :
    let e := s.dev.rxCounted p corr uncorr
    let b := bytes.take (bytes.length - 4)
    (beAt b 12 2 = 0x8808 → beAt b 14 2 = 0x0101 → exec (.rxFrame p bytes pcs corr uncorr) s = .next (s.withDev (e.rxPause p b))) ∧
    (beAt b 12 2 ≠ 0x8808 → e.fon (Reg.ETH_PORTp_CTL_MACSEC p) = false →
      exec (.rxFrame p bytes pcs corr uncorr) s = .next (s.withDev (e.rxClassify p b))) := by
  intro e b
  rw [Dev.rxFailure] at h
  split_ifs at h with hrunt hpcs hfcs hover haddr
  change (_ → _ → execRxFrame p bytes pcs corr uncorr s = _) ∧ (_ → _ → execRxFrame p bytes pcs corr uncorr s = _)
  rw [execRxFrame, onDev]
  dsimp only
  rw [if_neg (by simp [hl, hx, hs]), ← Dev.rxCounted, if_neg hrunt, if_neg (by simpa using hpcs), if_neg hfcs, if_neg hover,
    if_neg (by simpa [and_assoc] using haddr)]
  refine ⟨fun htype hop => ?_, fun htype hsec => ?_⟩
  · rw [if_pos ⟨htype, .inr hop⟩]
    rfl
  · rw [if_neg fun hfc => htype hfc.1, if_neg (by rw [show (s.dev.rxCounted p corr uncorr).fon _ = false from hsec]; simp)]
    rfl

end

/-! ## Flow control -/

section
variable {s : State} {p : Fin 32} (c : Fin 8)

/-- Unless the port's flow control is PAUSE, a pause that runs out was one class's (R354). -/
theorem exec_pauseExpiry_class (h : s.dev.fcMode p ≠ 1) :
    exec (.pauseExpiry p c) s = .next (s.withDev (s.dev.fclr (Reg.ETH_PORTp_STATUS_PAUSED p) (1 <<< c.val))) := by
  change execPauseExpiry p c s = _
  rw [execPauseExpiry, onDev, if_neg h]
  rfl

theorem Dev.sendPause_up {d : Dev} {p : Nat} (hm : d.fcMode p ≠ 0) (hs : d.portState p = 3) (c quanta : Nat) :
    d.sendPause p c quanta =
      (d.emit (.pause p (decide (d.fcMode p = 2)) c quanta)).finc (Reg.ETH_PORTp_PFC_TX_COUNT p) :=
  if_neg fun h => h.elim hm (· hs)

theorem exec_pfcRepeat_aboveXon (hl : s.dev.live = true) (hx : s.dev.eth.xoff.contains (8 * p.val + c.val) = true)
    (hc : s.dev.fget (Reg.ETH_PORTp_BUFc_XON p c) < s.dev.cellsOf p c false + s.dev.cellsOf p c true)
    (hm : s.dev.fcMode p ≠ 0) (hs : s.dev.portState p = 3) :
    exec (.pfcRepeat p c) s = .next (s.withDev
      ((s.dev.emit (.pause p (decide (s.dev.fcMode p = 2)) c 0xFFFF)).finc (Reg.ETH_PORTp_PFC_TX_COUNT p))) := by
  change execPfcRepeat p c s = _
  rw [execPfcRepeat, onDev, if_pos (by rw [hl, hx, decide_eq_true hc]; rfl), Dev.sendPause_up hm hs]
  rfl

end

/-! ## Leaving frames and the states of a port -/

section
variable {s : State} {p : Fin 32}

/-- A port sends the frame that it picks, here one that finishes no work request (R361, R362, R366). -/
theorem exec_frameTransmit_picked (hl : s.dev.live = true) (hs : s.dev.portState p = 3) {f : TxFrame} {g : Dev}
    (hf : (s.dev.noteGateWaits p).txPick p = some (f, g)) (hn : f.fin = none) :
    exec (.frameTransmit p) s = .next (s.withDev
      ((((((g.unstage f).txWire f).cbsSent p f.cls (frameLen f + 20 + g.secExtra p)).pace f).finc Reg.QPE_TX_PKTS_COUNT).activate f.who)) := by
  change execFrameTransmit p s = _
  rw [execFrameTransmit, onDev]
  dsimp only
  rw [if_neg (by simp [hl, hs]), hf]
  dsimp only
  rw [hn]
  rfl

/-- A port of a group with a new mode starts again: it trains unless it is barred, and its classes take the HEADROOM that
its rate gives (R343, R355). -/
def Dev.portRestart (d : Dev) (p : Nat) : Dev :=
  (List.range 8).foldl (fun d c => d.fset (Reg.ETH_PORTp_BUFc_HEADROOM p c) (headroomDefault (d.portRate p)))
    (d.portStop p (if d.portBarred p then 1 else 2))

/-- What a change of the lane groups' modes, `old` before it, makes of a port: one that a new mode takes away stops (R343). -/
def Dev.portRegroup (old : Nat → Nat) (d : Dev) (p : Nat) : Dev :=
  if old (p / 8) = d.grpMode (p / 8) then d else if d.portExists p then d.portRestart p else d.portStop p 0

theorem exec_groupModeWrite_uncommitted (ha : s.dev.alive = true) (hc : s.dev.committed = false) (val : W32) :
    exec (.groupModeWrite val) s = .next (s.withDev ((List.range 32).foldl (Dev.portRegroup s.dev.grpMode)
      (s.dev.regSet Reg.ETH_GRP_MODE (BitVec.ofNat 64 (fld val.toNat 0 16))))) := by
  change execGroupModeWrite val s = _
  rw [execGroupModeWrite, onDev]
  dsimp only
  rw [if_neg (by simp [ha, hc])]
  rfl

theorem exec_groupModeWrite_committed (hc : s.dev.committed = true) (val : W32) : exec (.groupModeWrite val) s = .next s := by
  change execGroupModeWrite val s = _
  rw [execGroupModeWrite, onDev]
  dsimp only
  rw [if_pos (by simp [hc])]

theorem exec_portTrainingDone_training (hr : s.dev.running = true) (hx : s.dev.portExists p = true) (hs : s.dev.portState p = 2)
    (hb : s.dev.portBarred p = false) : exec (.portTrainingDone p) s = .next (s.withDev (s.dev.setPortState p 3)) := by
  change execPortTrainingDone p s = _
  rw [execPortTrainingDone, onDev, if_pos (by simp [hr, hx, hs, hb])]
  rfl

theorem exec_portDown_up (ha : s.dev.alive = true) (hs : s.dev.portState p = 3) :
    exec (.portDown p) s = .next (s.withDev (s.dev.portStop p 1)) := by
  change execPortDown p s = _
  rw [execPortDown, onDev, if_pos (by simp [ha, hs])]
  rfl

/-! ## Gate lists -/

theorem exec_gateEntry_live (hl : s.dev.live = true) : exec (.gateEntry p) s = .next (s.withDev (s.dev.showGates p)) := by
  change execGateEntry p s = _
  rw [execGateEntry, onDev, if_pos hl]
  rfl

/-- The list that GO names, with the EN written beside it (R367). -/
def Dev.gateNamed (d : Dev) (p : Nat) (list en : Bool) : Dev :=
  (d.fset (Reg.TXS_GATEp_CTL_LIST p) (b2n list)).fset (Reg.TXS_GATEp_CTL_EN p) (b2n en)

section
variable (ha : s.dev.alive = true) {list en : Bool}
include ha

theorem exec_gateGo_accepted (hok : (s.dev.gateNamed p list en).gateListOk p (b2n list) = true) :
    let e := s.dev.gateNamed p list en
    exec (.gateGo p list en) s = .next (s.withDev
      (((e.upTxs (fun t => { t with pend := t.pend.set p ⟨b2n list, e.fget (Reg.TXS_GATEp_BASE_NS p)⟩ })).fset
        (Reg.TXS_GATEp_CTL_PENDING p) 1).fset (Reg.TXS_GATEp_CTL_GO p) 1)) := by
  intro e
  change execGateGo p list en s = _
  rw [execGateGo, onDev]
  dsimp only
  rw [if_neg (by simp [ha]), ← Dev.gateNamed, if_pos hok]
  rfl

theorem exec_gateGo_refused (hbad : (s.dev.gateNamed p list en).gateListOk p (b2n list) = false) :
    exec (.gateGo p list en) s = .next (s.withDev
      (((s.dev.gateNamed p list en).fset (Reg.TXS_GATEp_CTL_SWITCH_ERR p) 1).fset (Reg.TXS_GATEp_CTL_GO p) 0)) := by
  change execGateGo p list en s = _
  rw [execGateGo, onDev]
  dsimp only
  rw [if_neg (by simp [ha]), ← Dev.gateNamed, if_neg (Bool.eq_false_iff.1 hbad)]
  rfl

end

/-- The list that waits becomes active from its base time (R365, R367). -/
theorem exec_gateSwitch_waiting {x : GatePend} (hx : s.dev.txs.pend.find p = some x) :
    let e := (s.dev.upTxs (fun t => { t with pend := t.pend.del p, base := t.base.set p x.base })).fset
      (Reg.TXS_GATEp_STATUS_ACTIVE_LIST p) x.list
    exec (.gateSwitch p) s = .next (s.withDev
      (((e.fset (Reg.TXS_GATEp_CTL_PENDING p) 0).fset (Reg.TXS_GATEp_CTL_GO p) 0).showGates p)) := by
  intro e
  change execGateSwitch p s = _
  rw [execGateSwitch, onDev, hx]
  rfl

end

end Sys2Proof.Machine
end

section
/-! PROOFS. Frames and ports of Ethernet (O35). -/
namespace Sys2Proof.Machine
open Sys2Proof

/-- Settles O35: a frame by the first check that it fails, and each other clause is the rule of its event. -/
theorem portFrameResults : Obligations.PortFrameResults := by
  intro s p
  extract_lets d
  refine ⟨fun hl hx hs bytes pcs corr uncorr => ?_, exec_pauseExpiry_class, exec_pfcRepeat_aboveXon,
    fun hl hs f g => exec_frameTransmit_picked hl hs,
    fun ha val => ⟨fun hc => exec_groupModeWrite_uncommitted ha hc val, fun hc => exec_groupModeWrite_committed hc val⟩,
    exec_portTrainingDone_training, exec_portDown_up, exec_gateEntry_live,
    fun ha list en => ⟨exec_gateGo_accepted ha, exec_gateGo_refused ha⟩, fun x => exec_gateSwitch_waiting⟩
  intro e n b
  have hdrop {f : RegField} := exec_rxFrame_dropped hl hx hs (bytes := bytes) (pcs := pcs) (corr := corr) (uncorr := uncorr) (f := f)
  refine ⟨fun hn => hdrop (Dev.rxFailure_runt hn), fun hn he => hdrop (Dev.rxFailure_pcs hn he), fun hn hp hu =>
    ⟨fun hf => hdrop (Dev.rxFailure_fcs hn hp hu hf), fun hf => ⟨fun hm => hdrop (Dev.rxFailure_oversize hn hp hu hf hm), fun hm =>
      ⟨fun hgroup hother hplain => hdrop (Dev.rxFailure_address hn hp hu hf hm ⟨hgroup, hother, hplain⟩), fun ha =>
        exec_rxFrame_passed hl hx hs (Dev.rxFailure_none hn hp hu hf hm ha)⟩⟩⟩⟩

end Sys2Proof.Machine
end

section
/-! PROOFS. What the tables of Ethernet, the PTP clock, the timing wheel and observation make of the device, a rule for each
event (R350, R368, R371 to R373, R375, R377). -/
namespace Sys2Proof.Machine
open Sys2Proof

/-- The Strainer rule in the DATA registers (R350). -/
def Dev.ruleData (d : Dev) : BitVec 512 := BitVec.ofNat 512 (d.ethWords Reg.ETH_STR_DATAi 16)

/-- The SA entry in the DATA registers (R377). -/
def Dev.saData (d : Dev) : BitVec 256 := BitVec.ofNat 256 (d.ethWords Reg.ETH_SA_DATAi 8)

section
variable {s : State} (ha : s.dev.alive = true)
include ha

/-! ## Rules and SAs -/

/-- A rule is replaced by the DATA words; one of zeros is no longer held, and reads as zeros (R350). -/
theorem exec_ruleWrite_nonzero (hx : s.dev.ruleData ≠ 0) : exec .ruleWrite s = .next (s.withDev
    (s.dev.upEth (fun e => { e with rules := e.rules.set (s.dev.fget Reg.ETH_STR_INDEX_RULE) s.dev.ruleData }))) := by
  change execRuleWrite s = _
  rw [execRuleWrite, onDev, if_pos ha, ← Dev.ruleData]
  simp only [if_neg hx]
  rfl

theorem exec_ruleWrite_zero (hx : s.dev.ruleData = 0) : exec .ruleWrite s = .next (s.withDev
    (s.dev.upEth (fun e => { e with rules := e.rules.del (s.dev.fget Reg.ETH_STR_INDEX_RULE) }))) := by
  change execRuleWrite s = _
  rw [execRuleWrite, onDev, if_pos ha, ← Dev.ruleData]
  simp only [if_pos hx]
  rfl

theorem exec_ruleRead_alive : exec .ruleRead s = .next (s.withDev
    (s.dev.ethPut Reg.ETH_STR_DATAi 16 (s.dev.eth.rules.get 0 (s.dev.fget Reg.ETH_STR_INDEX_RULE)).toNat)) := by
  change execRuleRead s = _
  rw [execRuleRead, onDev, if_pos ha]
  rfl

/-- An SA entry is replaced by the DATA words; one of zeros is no longer held, and reads as zeros (R377). -/
theorem exec_saWrite_nonzero (hx : s.dev.saData ≠ 0) : exec .saWrite s = .next (s.withDev
    (s.dev.upEth (fun e => { e with sas := e.sas.set (s.dev.fget Reg.ETH_SA_INDEX_SA) s.dev.saData }))) := by
  change execSaWrite s = _
  rw [execSaWrite, onDev, if_pos ha, ← Dev.saData]
  simp only [if_neg hx]
  rfl

theorem exec_saWrite_zero (hx : s.dev.saData = 0) : exec .saWrite s = .next (s.withDev
    (s.dev.upEth (fun e => { e with sas := e.sas.del (s.dev.fget Reg.ETH_SA_INDEX_SA) }))) := by
  change execSaWrite s = _
  rw [execSaWrite, onDev, if_pos ha, ← Dev.saData]
  simp only [if_pos hx]
  rfl

theorem exec_saRead_alive : exec .saRead s = .next (s.withDev
    (s.dev.ethPut Reg.ETH_SA_DATAi 8 (s.dev.eth.sas.get 0 (s.dev.fget Reg.ETH_SA_INDEX_SA)).toNat)) := by
  change execSaRead s = _
  rw [execSaRead, onDev, if_pos ha]
  rfl

/-! ## The PTP clock, high-water marks and transmit timestamps -/

theorem exec_ptpAdj_alive (v : W64) :
    exec (.ptpAdj v) s = .next (s.withDev (s.dev.regSet Reg.ETH_PTP_NS (s.dev.regGet Reg.ETH_PTP_NS + v))) := by
  change execPtpAdj v s = _
  rw [execPtpAdj, onDev, if_pos ha]
  rfl

/-- The marks of the selected subscriber are brought up to date, returned and taken away (R372). -/
theorem exec_hwmRead_alive :
    let i := s.dev.fget Reg.TXS_HWM_INDEX_SUBSCRIBER
    let e := s.dev.hwmNote i
    let m := e.txs.hwm.get (0, 0) i
    exec .hwmRead s = .next (s.withDev ((e.upTxs (fun t => { t with hwm := t.hwm.del i })).emit
      (.regRead 0 Reg.TXS_HWM_DATA 8 (BitVec.ofNat 64 (m.1 + m.2 * 2 ^ 32))))) := by
  intro i e m
  change execHwmRead s = _
  rw [execHwmRead, onDev, if_pos ha]
  rfl

/-- The oldest transmit timestamp of a port is returned and taken away (R375). -/
theorem exec_txtsRead_waiting {p : Fin 32} {tag ns : Nat} {rest : List (Nat × Nat)} (hq : s.dev.eth.txts.get [] p.val = (tag, ns) :: rest) :
    exec (.txtsRead p) s = .next (s.withDev ((s.dev.upEth (fun e => { e with txts := e.txts.set p rest })).emit
      (.regRead 0 (Reg.ETH_PORTp_TXTS p) 8 (BitVec.ofNat 64 (ns % 2 ^ 48 + tag % 2 ^ 15 * 2 ^ 48 + 2 ^ 63))))) := by
  have htail : s.dev.upEth (fun e => { e with txts := e.txts.set p (e.txts.get [] p).tail }) =
      s.dev.upEth (fun e => { e with txts := e.txts.set p rest }) := by
    rw [Dev.upEth, hq]
    rfl
  change execTxtsRead p s = _
  rw [execTxtsRead, onDev, if_pos ha]
  dsimp only
  rw [htail, Dev.txtsWord, hq]
  rfl

end

/-! ## The timing wheel and samples -/

/-- An entry of the wheel waits in a slot of its fine level (R368). -/
def WheelEnt.inFine (w : WheelEnt) (slot : BitVec 12) : Bool := decide (w.coarse = false) && decide (w.slot = slot.toNat)

/-- The device once a sample has taken its number (R371). -/
def Dev.sampleCounted (d : Dev) : Dev := d.upTxs (fun t => { t with samples := (t.samples + 1) % 2 ^ 32 })

section
variable {s : State} (hl : s.dev.live = true)
include hl

/-- A slot of the fine level that becomes current empties, and whoever waited in it becomes eligible (R368). -/
theorem exec_wheelSlot_fine (slot : BitVec 12) :
    exec (.wheelSlot false slot) s = .next (s.withDev ((s.dev.txs.wheel.filter (·.inFine slot)).foldl (fun e w => e.activate w.who)
      (s.dev.upTxs (fun t => { t with wheel := t.wheel.filter (fun w => !w.inFine slot) })))) := by
  change execWheelSlot false slot s = _
  rw [execWheelSlot, onDev]
  dsimp only
  rw [if_neg (by simp [hl])]
  rfl

variable (hc : s.dev.committed = true) (hr : s.dev.txs.ready = []) (he : s.dev.fon Reg.TXS_SAMPLE_CTL_EN = true)
  (hn : s.dev.subscribers ≤ 4096)
include hc hr he hn

/-- With no frame waiting no mark rises, and a sample goes on to its root and its ring (R371, R372). -/
theorem exec_txsSample_idle :
    let lg := s.dev.fget Reg.TXS_SAMPLE_CTL_RING_LOG2
    let w := s.dev.txs.written
    let root := s.dev.fget Reg.TXS_SAMPLE_CTL_ROOT
    let e := s.dev.sampleCounted
    exec .txsSample s = .next (s.withDev
      (if !e.pf0Root root || ringFull w (e.fget Reg.TXS_SAMPLE_TAIL_TAIL) lg then e.finc Reg.TXS_SAMPLE_DROP_COUNT
       else sampleEnd root w (e.rootWrite root
        (e.fget Reg.TXS_SAMPLE_BASE_ADDR + (64 + 8 * s.dev.subscribers + 63) / 64 * 64 * (w % 2 ^ lg)) s.dev.sampleRecord false))) := by
  intro lg w root e
  have hmarks : (if s.dev.live then (s.dev.txs.ready.map (·.sub)).eraseDups.foldl (fun d n => d.hwmNote n) s.dev else s.dev) = s.dev := by
    rw [if_pos hl, hr]
    rfl
  change execTxsSample s = _
  rw [execTxsSample, onDev]
  dsimp only
  rw [hmarks, if_neg (by simp [hl, hc, he, hn])]
  rfl

theorem exec_txsSample_full
    (hfull : ringFull s.dev.txs.written (s.dev.sampleCounted.fget Reg.TXS_SAMPLE_TAIL_TAIL) (s.dev.fget Reg.TXS_SAMPLE_CTL_RING_LOG2) = true) :
    exec .txsSample s = .next (s.withDev (s.dev.sampleCounted.finc Reg.TXS_SAMPLE_DROP_COUNT)) := by
  rw [exec_txsSample_idle hl hc hr he hn, if_pos (by rw [hfull, Bool.or_true])]

theorem exec_txsSample_written (hroot : s.dev.sampleCounted.pf0Root (s.dev.fget Reg.TXS_SAMPLE_CTL_ROOT) = true)
    (hroom : ringFull s.dev.txs.written (s.dev.sampleCounted.fget Reg.TXS_SAMPLE_TAIL_TAIL) (s.dev.fget Reg.TXS_SAMPLE_CTL_RING_LOG2) = false) :
    let lg := s.dev.fget Reg.TXS_SAMPLE_CTL_RING_LOG2
    let w := s.dev.txs.written
    let root := s.dev.fget Reg.TXS_SAMPLE_CTL_ROOT
    let e := s.dev.sampleCounted
    exec .txsSample s = .next (s.withDev (sampleEnd root w (e.rootWrite root
      (e.fget Reg.TXS_SAMPLE_BASE_ADDR + (64 + 8 * s.dev.subscribers + 63) / 64 * 64 * (w % 2 ^ lg)) s.dev.sampleRecord false))) := by
  intro lg w root e
  rw [exec_txsSample_idle hl hc hr he hn, if_neg (by simp [hroot, hroom])]

end

end Sys2Proof.Machine
end

section
/-! PROOFS. The tables of Ethernet, the PTP clock, the timing wheel and observation (O36). -/
namespace Sys2Proof.Machine
open Sys2Proof

/-- Settles O36: each clause is the rule of its event; a table entry of zeros is deleted. -/
theorem ethernetTableResults : Obligations.EthernetTableResults := by
  intro s d ha
  exact ⟨⟨exec_ruleWrite_nonzero ha, exec_ruleWrite_zero ha, exec_ruleRead_alive ha⟩,
    ⟨exec_saWrite_nonzero ha, exec_saWrite_zero ha, exec_saRead_alive ha⟩, exec_ptpAdj_alive ha,
    fun slot hl => exec_wheelSlot_fine hl slot, exec_txsSample_full, exec_txsSample_written,
    exec_hwmRead_alive ha, fun p tag ns rest => exec_txtsRead_waiting ha⟩

end Sys2Proof.Machine
end

section
/-! PROOFS. What the commands of queue pairs and address handles make of the device, a rule for each outcome (R385 to R389,
R421). -/
namespace Sys2Proof.Machine
open Sys2Proof

/-! ## The contexts that the commands make -/

/-- A QP as CREATE_QP makes it from its staged identity and path fields: INIT, with its atomic cache at `place` (R386, R387). -/
def Qp.created (f : Qp) (place : Nat) : Qp := (f.put 0 1 1).put 0x9C 4 place

/-- The path fields, bytes 0x10 to 0x5F, come from the staged context `g` (R387). -/
def Qp.withPath (q : Qp) (g : BitVec 2048) : Qp :=
  { q with ctx := bvSet q.ctx (8 * 0x10) (8 * 0x50) (bvFld g (8 * 0x10) (8 * 0x50)) }

/-- RETRY, TIMEOUT and SQ_PSN come from the staged context `g` (R387). -/
def Qp.withRetry (q : Qp) (g : BitVec 2048) : Qp :=
  { q with ctx := bvSet (bvSet (bvSet q.ctx 56 8 (bvFld g 56 8)) 112 8 (bvFld g 112 8)) 192 32 (bvFld g 192 32) }

/-- The rate that a QP starts at: its port's under congestion control, else none (R415). -/
def Dev.startRate (d : Dev) (q : Qp) : Nat :=
  if !q.isUd && !q.onaud && d.fon Reg.QPE_CC_EN_EN then d.portRate (q.get 0x3C 1) else 0

/-- RTS, with rates of `rate` and ALPHA 1,024 (R415). -/
def Qp.ready (q : Qp) (rate : Nat) : Qp := (((q.put 0x60 4 rate).put 0x64 4 rate).put 0x68 2 1024).put 0 1 3

section
variable {s : State} (h : Takes s.dev Reg.QPE_CMD_STATUS_BUSY)
include h

theorem qpeCmd_of_takes (f : Dev → Dev) : qpeCmd s f = .next (s.withDev (f s.dev)) :=
  congrArg (fun d => Host.Outcome.next (s.withDev d)) (Dev.command_of_takes h _ f)

/-! ## Queue pairs -/

section
variable {qpn : BitVec 24}

theorem exec_createQp_accepted :
    let f := Qp.fresh (BitVec.ofNat 2048 (s.dev.stagedQp.toNat % 2 ^ 768))
    s.dev.createQpCheck qpn.toNat f = .ok →
    exec (.createQp qpn) s = .next (s.withDev
      ((s.dev.bump.setQp qpn.toNat (f.created (Config.freeValue 32 s.dev.fresh).toNat)).qpeStatus .ok)) := by
  intro f hok
  change execCreateQp qpn s = _
  rw [execCreateQp, qpeCmd_of_takes h]
  dsimp only
  rw [hok]
  rfl

theorem exec_createQp_refused :
    let f := Qp.fresh (BitVec.ofNat 2048 (s.dev.stagedQp.toNat % 2 ^ 768))
    s.dev.createQpCheck qpn.toNat f ≠ .ok →
    exec (.createQp qpn) s = .next (s.withDev (s.dev.qpeStatus (s.dev.createQpCheck qpn.toNat f))) := by
  intro f hbad
  change execCreateQp qpn s = _
  rw [execCreateQp, qpeCmd_of_takes h]
  dsimp only
  split
  · contradiction
  · rfl

section
variable {q : Qp} (hq : s.dev.qp qpn.toNat = some q)
include hq

theorem exec_modifyRtr_init (hs : q.state = 1) (hpath : s.dev.qpPathOk (q.withPath s.dev.stagedQp) = true)
    (hdest : (q.withPath s.dev.stagedQp).prot = false ∨ (q.withPath s.dev.stagedQp).dest ≠ qpn.toNat)
    (hslot : s.dev.qpSlotOk (q.withPath s.dev.stagedQp) = true) :
    exec (.modifyRtr qpn) s = .next (s.withDev
      ((s.dev.setQp qpn.toNat ((q.withPath s.dev.stagedQp).put 0 1 2)).qpeStatus .ok)) := by
  have hself : ((q.withPath s.dev.stagedQp).prot && decide ((q.withPath s.dev.stagedQp).dest = qpn.toNat)) = false := by
    obtain hprot | hother := hdest
    · rw [hprot, Bool.false_and]
    · rw [decide_eq_false hother, Bool.and_false]
  change execModifyRtr qpn s = _
  rw [execModifyRtr, qpeCmd_of_takes h, hq]
  dsimp only
  rw [if_neg (not_not.2 hs), ← Qp.withPath, if_neg (by rw [hpath, hself]; decide), if_neg (by rw [hslot]; decide)]

theorem exec_modifyRtr_refused (hs : q.state ≠ 1) :
    exec (.modifyRtr qpn) s = .next (s.withDev (s.dev.qpeStatus .accessError)) := by
  change execModifyRtr qpn s = _
  rw [execModifyRtr, qpeCmd_of_takes h, hq]
  dsimp only
  rw [if_pos hs]

theorem exec_modifyRts_rtr (hs : q.state = 2) (hretry : (q.withRetry s.dev.stagedQp).retryOk = true)
    (hzero : (q.withRetry s.dev.stagedQp).get 0x1B 1 = 0) :
    let r := ((q.withRetry s.dev.stagedQp).put 0x90 4 (q.withRetry s.dev.stagedQp).sqPsn).fullRetries
    exec (.modifyRts qpn) s = .next (s.withDev ((s.dev.setQp qpn.toNat (r.ready (s.dev.startRate r))).qpeStatus .ok)) := by
  intro r
  change execModifyRts qpn s = _
  rw [execModifyRts, qpeCmd_of_takes h, hq]
  dsimp only
  rw [if_neg (not_not.2 hs), ← Qp.withRetry, if_neg (by simp [hretry, hzero])]
  rfl

theorem exec_toError_notFrozen (hs : q.state ≠ 5) :
    exec (.toError qpn) s = .next (s.withDev
      ((s.dev.qpError qpn.toNat .flushed 0 0 noOwner (fun _ => false)).qpeStatus .ok)) := by
  change execToError qpn s = _
  rw [execToError, qpeCmd_of_takes h, hq]
  dsimp only
  rw [if_neg hs]

theorem exec_destroyQp_drained (hs : q.state = 4) (hd : q.drained = true) :
    exec (.destroyQp qpn) s = .next (s.withDev
      ((s.dev.upQpe (fun x => { x with qps := x.qps.del qpn.toNat })).qpeStatus .ok)) := by
  change execDestroyQp qpn s = _
  rw [execDestroyQp, qpeCmd_of_takes h, hq]
  dsimp only
  rw [if_pos ⟨hs, hd⟩]

theorem exec_destroyQp_notError (hs : q.state ≠ 4) :
    exec (.destroyQp qpn) s = .next (s.withDev (s.dev.qpeStatus .accessError)) := by
  change execDestroyQp qpn s = _
  rw [execDestroyQp, qpeCmd_of_takes h, hq]
  dsimp only
  rw [if_neg fun hopen => hs hopen.1]

end

theorem exec_queryQp_inRange (hn : qpn.toNat < 2 ^ 20) :
    exec (.queryQp qpn) s = .next (s.withDev
      ((s.dev.putWords Reg.QPE_CMD_DATAi 64 (s.dev.qpView qpn.toNat).toNat).qpeStatus .ok)) := by
  change execQueryQp qpn s = _
  rw [execQueryQp, qpeCmd_of_takes h, if_neg (Nat.not_le.2 hn)]

end

/-! ## Address handles -/

section
variable {index : BitVec 24}

/-- CREATE_AH with its DSCP in range, its other bytes zero and a function that exists (R421). -/
theorem exec_createAh_accepted :
    let a := BitVec.ofNat 512 (s.dev.dataWords Reg.QPE_CMD_DATAi 16)
    bvFld a (8 * 0x18) 8 < 64 → bvFld a (8 * 0x1D) 8 = 0 → bvFld a (8 * 0x30) 128 = 0 → s.dev.isFn (bvFld a (8 * 0x1E) 16) = true →
    index.toNat < 65536 →
    exec (.createAh index) s = .next (s.withDev
      ((s.dev.upQpe (fun x => { x with ahs := x.ahs.set index.toNat a })).qpeStatus .ok)) := by
  intro a hdscp hbyte htail hfn hindex
  change execCreateAh index s = _
  rw [execCreateAh, qpeCmd_of_takes h]
  dsimp only
  rw [if_neg, if_neg (Nat.not_le.2 hindex)]
  rintro (hbad | hbad | hbad | hbad)
  · exact Nat.not_le.2 hdscp hbad
  · exact hbad hbyte
  · exact hbad htail
  · exact Bool.false_ne_true (hbad.symm.trans hfn)

theorem exec_destroyAh_taken :
    exec (.destroyAh index) s = .next (s.withDev
      ((s.dev.upQpe (fun x => { x with ahs := x.ahs.del index.toNat })).qpeStatus .ok)) :=
  qpeCmd_of_takes h _

end

end

/-! ## Cached contexts -/

theorem exec_ctxCacheFlush_live {s : State} (hl : s.dev.live = true) :
    exec .ctxCacheFlush s = .next (s.withDev (s.dev.writeContexts s.dev.qpe.qps.keys)) := by
  change execCtxCacheFlush s = _
  rw [execCtxCacheFlush, onDev, if_pos hl]
  rfl

/-- Settles O37: each clause is the rule of its command. -/
theorem qpCommandResults : Obligations.QpCommandResults := by
  intro s
  extract_lets d
  refine ⟨fun h => ⟨fun qpn => ?_, fun index => ⟨exec_createAh_accepted h, exec_destroyAh_taken h⟩⟩, exec_ctxCacheFlush_live⟩
  exact ⟨exec_createQp_accepted h, exec_createQp_refused h, fun q hq =>
    ⟨exec_modifyRtr_init h hq, exec_modifyRtr_refused h hq, exec_modifyRts_rtr h hq, exec_toError_notFrozen h hq,
      exec_destroyQp_drained h hq, exec_destroyQp_notError h hq⟩, exec_queryQp_inRange h⟩

end Sys2Proof.Machine
end

section
/-! PROOFS. What the congestion control and the timers of a queue pair make of the device, a rule for each event (R397,
R398, R402, R404, R415, R416, R418). -/
namespace Sys2Proof.Machine
open Sys2Proof

section
variable {s : State} {qpn : BitVec 20} {q : Qp} (hq : s.dev.qp qpn.toNat = some q)
include hq

/-- No acknowledgement timeout is taken while an RNR wait runs (R418). -/
theorem exec_ackTimeout_rnrWaiting {p : Nat} (hw : q.rnrWait = some p) : exec (.ackTimeout qpn) s = .next s := by
  change execAckTimeout qpn s = _
  rw [execAckTimeout, onDev, hq]
  dsimp only
  rw [if_neg (by simp [hw])]

variable (hl : s.dev.live = true)
include hl

/-! ## Congestion control -/

section
variable (hc : s.dev.ccOn q = true)
include hc

theorem exec_alphaDecay_ccOn :
    exec (.alphaDecay qpn) s = .next (s.withDev
      (s.dev.setQp qpn.toNat (q.put 0x68 2 (s.dev.alphaDown (q.get 0x68 2))))) := by
  change execAlphaDecay qpn s = _
  rw [execAlphaDecay, onDev, hq]
  dsimp only
  rw [if_pos (by rw [hl, hc]; rfl)]
  rfl

theorem exec_timerIncrease_ccOn :
    exec (.timerIncrease qpn) s = .next (s.withDev
      (s.dev.setQp qpn.toNat (s.dev.ccIncrease (q.put 0x6A 1 (min 255 (q.get 0x6A 1 + 1)))))) := by
  change execTimerIncrease qpn s = _
  rw [execTimerIncrease, onDev, hq]
  dsimp only
  rw [if_pos (by rw [hl, hc]; rfl)]
  rfl

theorem exec_byteIncrease_reached (hb : s.dev.fget Reg.QPE_CC_BINC_B_INC ≤ q.get 0x6C 4) :
    exec (.byteIncrease qpn) s = .next (s.withDev
      (s.dev.setQp qpn.toNat (s.dev.ccIncrease ((q.put 0x6B 1 (min 255 (q.get 0x6B 1 + 1))).put 0x6C 4 0)))) := by
  change execByteIncrease qpn s = _
  rw [execByteIncrease, onDev, hq]
  dsimp only
  rw [if_pos (by rw [hl, hc, decide_eq_true hb]; rfl)]
  rfl

end

theorem exec_rttProbe_measuring (hs : q.state = 3) (hf : q.flag 7 = true) (hu : q.isUd = false) :
    exec (.rttProbe qpn) s = .next (s.withDev
      (s.dev.rcSend qpn.toNat (q.pkt 0xC0 q.dest 0 false (uph 0 false false 0) []
        (beBytes 8 s.dev.ptp ++ List.replicate 24 0)) false none)) := by
  change execRttProbe qpn s = _
  rw [execRttProbe, onDev, hq]
  dsimp only
  rw [if_pos (by simp [hl, hs, hf, hu])]
  rfl

/-! ## Timers -/

theorem exec_ackTimeout_open (hs : q.state = 3) (hu : q.isUd = false) (ho : q.open_ ≠ 0) (hw : q.rnrWait = none) :
    exec (.ackTimeout qpn) s = .next (s.withDev ((s.dev.finc Reg.QPE_TIMEOUTS_COUNT).qpRetry qpn.toNat q.una)) := by
  change execAckTimeout qpn s = _
  rw [execAckTimeout, onDev, hq]
  dsimp only
  rw [if_pos (by simp [hl, hs, hu, ho, hw])]
  rfl

theorem exec_rnrWaitExpiry_waiting {p : Nat} (hw : q.rnrWait = some p) :
    exec (.rnrWaitExpiry qpn) s = .next (s.withDev
      ((s.dev.setQp qpn.toNat { q with rnrWait := none }).qpResend qpn.toNat p)) := by
  change execRnrWaitExpiry qpn s = _
  rw [execRnrWaitExpiry, onDev, hq]
  dsimp only
  rw [hw]
  dsimp only
  rw [if_pos hl]
  rfl

variable (hs : q.state = 2 ∨ q.state = 3)
include hs

theorem exec_ackDelay_landed (hn : q.unacked ≠ 0) :
    exec (.ackDelay qpn) s = .next (s.withDev (s.dev.ackNow qpn.toNat)) := by
  change execAckDelay qpn s = _
  rw [execAckDelay, onDev, hq]
  dsimp only
  rw [if_pos (by simp [hl, hn, hs])]
  rfl

theorem exec_unorderedGap_landed (hu : q.unord = true) (hb : q.bitmap ≠ []) :
    exec (.unorderedGap qpn) s = .next (s.withDev (s.dev.respAhead qpn.toNat)) := by
  change execUnorderedGap qpn s = _
  rw [execUnorderedGap, onDev, hq]
  dsimp only
  rw [if_pos (by simp [hl, hu, hs, hb])]
  rfl

end

/-- Settles O40: each clause is the rule of its event at a live QP in RTS. -/
theorem qpTimerResults : Obligations.QpTimerResults := by
  intro s qpn q
  extract_lets d n
  intro hl hq hs
  exact ⟨fun hc => ⟨exec_alphaDecay_ccOn hq hl hc, exec_timerIncrease_ccOn hq hl hc, exec_byteIncrease_reached hq hl hc⟩,
    exec_rttProbe_measuring hq hl hs, exec_ackTimeout_open hq hl hs,
    fun p hw => ⟨exec_rnrWaitExpiry_waiting hq hl hw, exec_ackTimeout_rnrWaiting hq hw⟩,
    exec_ackDelay_landed hq hl (.inr hs), exec_unorderedGap_landed hq hl (.inr hs)⟩

end Sys2Proof.Machine
end

section
/-! PROOFS. What the commands of regions, roots, updates and fences make of the device, a rule for each outcome (R424, R425,
R428, R429, R431, R434 to R436, R441). -/
namespace Sys2Proof.Machine
open Sys2Proof

/-- The region entry staged in the DATA registers (R425). -/
def Dev.stagedMr (d : Dev) : BitVec 256 := BitVec.ofNat 256 (d.dataWords Reg.DTU_CMD_DATAi 8)

/-- The region `e` as REG_MR enters it: VALID, of generation `g`, and of its function's partition (R424, R425). -/
def Dev.mrEntered (d : Dev) (e : BitVec 256) (g : Nat) : BitVec 256 :=
  bvSet (bvSet (bvSet e 0 8 1) 8 8 g) 192 8 ((d.fnPart (mrFunction e)).getD 0xFF)

/-- An UPDATE record names an aligned word of the table pool (R434). -/
def InPool (r : Nat × Nat) : Prop := r.1 % 8 = 0 ∧ poolBase ≤ r.1 ∧ r.1 < poolEnd

/-- The check of a whole UPDATE array, made before any record is applied (R434). -/
def allInPool (rs : List (Nat × Nat)) : Bool :=
  rs.all (fun r => decide (r.1 % 8 = 0) && decide (poolBase ≤ r.1) && decide (r.1 < poolEnd))

theorem allInPool_iff (rs : List (Nat × Nat)) : allInPool rs = true ↔ ∀ r ∈ rs, InPool r := by
  simp only [allInPool, List.all_eq_true, Bool.and_eq_true, decide_eq_true_eq, InPool, and_assoc]

section
variable {s : State} (h : Takes s.dev Reg.DTU_CMD_STATUS_BUSY)
include h

theorem dtuCmd_of_takes (f : Dev → Dev) : dtuCmd s f = .next (s.withDev (f s.dev)) :=
  congrArg (fun d => Host.Outcome.next (s.withDev d)) (Dev.command_of_takes h _ f)

/-! ## Regions -/

section
variable {index : BitVec 24}

theorem exec_regMr_accepted (hok : s.dev.regMrCheck index.toNat s.dev.stagedMr = .ok) :
    let i := index.toNat
    let g := nextGen (mrGen (s.dev.mrEntry i))
    exec (.regMr index) s = .next (s.withDev
      (((s.dev.upDtu (fun x =>
        { x with mr := x.mr.set i (s.dev.mrEntered s.dev.stagedMr g), hurt := x.hurt.filter (fun y => decide (y ≠ i)) })).regSet
          (Reg.DTU_CMD_DATAi 0) (BitVec.ofNat 64 (256 * i + g))).dtuStatus .ok)) := by
  rw [Dev.stagedMr] at hok
  change execRegMr index s = _
  rw [execRegMr, dtuCmd_of_takes h]
  dsimp only
  rw [hok]
  rfl

theorem exec_regMr_refused (hbad : s.dev.regMrCheck index.toNat s.dev.stagedMr ≠ .ok) :
    exec (.regMr index) s = .next (s.withDev (s.dev.dtuStatus (s.dev.regMrCheck index.toNat s.dev.stagedMr))) := by
  change execRegMr index s = _
  rw [execRegMr, dtuCmd_of_takes h]
  dsimp only
  split
  · contradiction
  · rfl

theorem exec_revoke_notValid (hv : mrState (s.dev.mrEntry index.toNat) ≠ 1) :
    exec (.revoke index) s = .next (s.withDev (s.dev.dtuStatus .keyRevoked)) := by
  change execRevoke index s = _
  rw [execRevoke, dtuCmd_of_takes h]
  dsimp only
  rw [if_pos hv]

section
variable (hv : mrState (s.dev.mrEntry index.toNat) = 1)
include hv

theorem exec_revoke_accepted (hroom : s.dev.dtu.revoking.length < 64) :
    exec (.revoke index) s = .next (s.withDev ((s.dev.revokePoint index.toNat).dtuStatus .ok)) := by
  change execRevoke index s = _
  rw [execRevoke, dtuCmd_of_takes h]
  dsimp only
  rw [if_neg (not_not_intro hv), if_neg (Nat.not_le.2 hroom)]

theorem exec_revoke_held (hfull : 64 ≤ s.dev.dtu.revoking.length) :
    exec (.revoke index) s = .next (s.withDev
      ((s.dev.fset Reg.DTU_CMD_STATUS_BUSY 1).upDtu (fun x => { x with heldRevoke := some index.toNat }))) := by
  change execRevoke index s = _
  rw [execRevoke, dtuCmd_of_takes h]
  dsimp only
  rw [if_neg (not_not_intro hv), if_pos hfull]

end

theorem exec_queryMr_taken :
    exec (.queryMr index) s = .next (s.withDev
      ((s.dev.putWords Reg.DTU_CMD_DATAi 8 (s.dev.mrEntry index.toNat).toNat).dtuStatus .ok)) :=
  dtuCmd_of_takes h _

end

/-! ## Roots and fences -/

section
variable {target : BitVec 24}

/-- SET_ROOT that passes its checks on a root that holds no setting, so that no old one stays in use (R431). -/
theorem exec_setRoot_fresh :
    let r := fld target.toNat 0 10
    let x := s.dev.dataWords Reg.DTU_CMD_DATAi 4
    let table := fld x 0 64
    s.dev.isFn (fld x 64 16) = true → s.dev.linkPresent (fld x 80 8) = true → fld x 88 40 = 0 → table % 4096 = 0 →
    poolBase ≤ table → table < poolEnd → s.dev.dtu.roots.find r = none →
    exec (.setRoot target) s = .next (s.withDev
      ((s.dev.upDtu (fun y =>
        { y with roots := y.roots.set r ⟨table, fld x 64 16, fld x 80 8⟩, seq := s.dev.dtu.seq + 1,
                 staleRoots := s.dev.dtu.staleRoots })).dtuStatus .ok)) := by
  intro r x table hfn hlink hzero halign hbase hend hnone
  change execSetRoot target s = _
  rw [execSetRoot, dtuCmd_of_takes h]
  dsimp only
  rw [if_neg, if_neg, hnone]
  · rintro (hbad | hbad | hbad)
    · exact hbad halign
    · exact Nat.not_lt.2 hbase hbad
    · exact Nat.not_le.2 hend hbad
  · rintro (hbad | hbad | hbad)
    · exact Bool.false_ne_true (hbad.symm.trans hfn)
    · exact Bool.false_ne_true (hbad.symm.trans hlink)
    · exact hbad hzero

theorem exec_clearRoot_taken :
    let r := fld target.toNat 0 10
    exec (.clearRoot target) s = .next (s.withDev
      ((s.dev.upDtu (fun y =>
        { y with roots := y.roots.del r, staleRoots := y.staleRoots.filter (fun w => decide (w.root ≠ r)) })).dtuStatus .ok)) :=
  dtuCmd_of_takes h _

theorem exec_syncFence_oneRoot (hone : target.getLsbD 23 = false) :
    exec (.syncFence target) s = .next (s.withDev
      ((s.dev.upDtu (fun y => { y with syncs := y.syncs ++ [(some (fld target.toNat 0 10), s.dev.dtu.seq)] })).dtuStatus .ok)) := by
  change execSyncFence target s = _
  rw [execSyncFence, dtuCmd_of_takes h, hone]
  rfl

end

/-! ## Updates -/

section
variable {bs : List Byte} (hlow : 1 ≤ s.dev.fget Reg.DTU_UPDATE_COUNT_COUNT) (hhigh : s.dev.fget Reg.DTU_UPDATE_COUNT_COUNT ≤ 65536)
include hlow hhigh

/-- UPDATE of a count in range, its array read: applied when every record passes, and refused whole otherwise (R434). -/
theorem exec_update_read :
    let rs := updateRecords bs (s.dev.fget Reg.DTU_UPDATE_COUNT_COUNT)
    exec (.update (.ok bs)) s = .next (s.withDev
      (if allInPool rs then s.dev.applyUpdates rs else s.dev.dtuStatus .accessError)) := by
  intro rs
  change execUpdate (.ok bs) s = _
  rw [execUpdate, dtuCmd_of_takes h]
  dsimp only
  rw [if_neg (by omega)]
  rfl

theorem exec_update_applied (hall : ∀ r ∈ updateRecords bs (s.dev.fget Reg.DTU_UPDATE_COUNT_COUNT), InPool r) :
    exec (.update (.ok bs)) s = .next (s.withDev
      (s.dev.applyUpdates (updateRecords bs (s.dev.fget Reg.DTU_UPDATE_COUNT_COUNT)))) := by
  rw [exec_update_read h hlow hhigh, if_pos ((allInPool_iff _).2 hall)]

theorem exec_update_refused (hbad : ∃ r ∈ updateRecords bs (s.dev.fget Reg.DTU_UPDATE_COUNT_COUNT), ¬ InPool r) :
    exec (.update (.ok bs)) s = .next (s.withDev (s.dev.dtuStatus .accessError)) := by
  obtain ⟨r, hmem, hr⟩ := hbad
  rw [exec_update_read h hlow hhigh, if_neg (fun hall => hr ((allInPool_iff _).1 hall r hmem))]

end

end

/-! ## The ends of revokes, fences and walks -/

theorem exec_revokeDone_pending {s : State} {index : BitVec 24} (hp : s.dev.dtu.revoking.contains index.toNat = true) :
    exec (.revokeDone index) s = .next (s.withDev (s.dev.revokeEnd index.toNat)) := by
  change execRevokeDone index s = _
  rw [execRevokeDone, onDev, if_pos hp]
  rfl

/-- The oldest fence is one of all roots: what was replaced before it is no longer used (R435). -/
theorem exec_syncDone_allRoots {s : State} {n : Nat} {rest : List (Option Nat × Nat)} (hs : s.dev.dtu.syncs = (none, n) :: rest) :
    let e := (s.dev.upDtu (fun x =>
      { x with syncs := rest, fencedAll := max n x.fencedAll, staleWords := x.staleWords.filter (fun w => decide (n < w.seq)),
               staleRoots := x.staleRoots.filter (fun w => decide (n < w.seq)) })).finc Reg.DTU_FENCE_COUNT_COUNT
    exec .syncDone s = .next (s.withDev (e.post 0 (.other 0x24) 0 (2 ^ 23 + e.fget Reg.DTU_FENCE_COUNT_COUNT * 2 ^ 32))) := by
  intro e
  change execSyncDone s = _
  rw [execSyncDone, onDev, hs]
  rfl

/-- WALK_DONE of a stream that is no tile DMA's: it counts a wait for a handler (R436). -/
theorem exec_walkDone_other {s : State} (ha : s.dev.alive = true) (waited : Bool) :
    exec (.walkDone .other waited) s = .next (s.withDev (if waited then s.dev.finc Reg.DTU_WALK_WAIT_COUNT else s.dev)) := by
  change execWalkDone .other waited s = _
  rw [execWalkDone, onDev, ha]
  rfl

end Sys2Proof.Machine
end

section
/-! PROOFS. Regions, roots, updates and fences (O34). -/
namespace Sys2Proof.Machine
open Sys2Proof

/-- Settles O34: each clause is the rule of its command or event. -/
theorem translationResults : Obligations.TranslationResults := by
  intro s
  extract_lets d
  refine ⟨fun h => ⟨fun index => ?_, fun target => ?_, fun bs hlow hhigh => ?_⟩, fun index => exec_revokeDone_pending,
    fun n rest => exec_syncDone_allRoots, fun ha => ⟨exec_walkDone_other ha true, exec_walkDone_other ha false⟩⟩
  · exact ⟨exec_regMr_accepted h, exec_regMr_refused h, exec_revoke_notValid h, exec_revoke_accepted h, exec_revoke_held h,
      exec_queryMr_taken h⟩
  · exact ⟨exec_setRoot_fresh h, exec_clearRoot_taken h, exec_syncFence_oneRoot h⟩
  · exact ⟨exec_update_applied h hlow hhigh, exec_update_refused h hlow hhigh⟩

end Sys2Proof.Machine
end

section
/-! PROOFS. What the migration of a VF makes of the device, a rule for each outcome of its commands and for the end of
FREEZE (R457, R459 to R461). -/
namespace Sys2Proof.Machine
open Sys2Proof

/-- Every queue pair of function `f` remembers the state it holds (R457). -/
def Dev.qpsRemembered (d : Dev) (f : Nat) : Dev :=
  d.upQpe (fun x => { x with qps := x.qps.mapVal (fun _ q => if q.fn = f then { q with frozen := q.state } else q) })

/-- Every queue pair of function `f` is FROZEN and remembers the state it held before (R457). -/
def Dev.qpsFrozen (d : Dev) (f : Nat) : Dev :=
  d.upQpe (fun x => { x with qps := x.qps.mapVal (fun _ q => if q.fn = f then { (q.put 0 1 5) with frozen := q.state } else q) })

/-- The descriptors prefetched for the queues of function `f` are discarded (R459). -/
def Dev.ringsUnread (d : Dev) (f : Nat) : Dev :=
  d.upWq (fun w => { w with queues := w.queues.mapVal (fun _ q => if wqFn q.ctx = f then { q with fetched := [], tries := 0 } else q) })

/-- The cached translations of the roots of function `f` are discarded: the fence of each is now (R459). -/
def Dev.rootsFenced (d : Dev) (f : Nat) : Dev :=
  d.upDtu (fun x => { x with fenced := (d.fnRoots f).foldl (fun t p => t.set p.1 x.seq) x.fenced })

/-- NEED shows the size of the image of VF `f` (R459). -/
def Dev.needShown (d : Dev) (f : Nat) : Dev := d.fset Reg.VFM_IMG_NEED_BYTES (d.vfSize f)

/-- FREEZE ends once nothing of the VF is outstanding (R457). -/
theorem exec_freezeDone_quiet {s : State} {fn : Fin 264} (hl : s.dev.live = true) (hvf : isVf fn.val = true)
    (hst : s.dev.fnState fn.val = 3) (hq : s.dev.fnQuiet fn.val = true) :
    exec (.freezeDone fn) s = .next (s.withDev
      ((((s.dev.qpsFrozen fn.val).fnSet fn.val 4).vfmStatus .ok).fnCmdDone fn.val 3 .ok 0)) := by
  change execFreezeDone fn s = _
  rw [execFreezeDone, onDev]
  dsimp only
  rw [if_pos ⟨hl, hvf, hst, hq⟩]
  rfl

section
variable {s : State} (h : Takes s.dev Reg.VFM_CMD_STATUS_BUSY)
include h

theorem vfmCmd_of_takes (f : Dev → Dev) : vfmCmd s f = .next (s.withDev (f s.dev)) :=
  congrArg (fun d => Host.Outcome.next (s.withDev d)) (Dev.command_of_takes h _ f)

variable {target : BitVec 9}

theorem exec_freeze_notEnabled (hst : s.dev.fnState target.toNat ≠ 1) :
    exec (.freeze target) s = .next (s.withDev (s.dev.vfmStatus .accessError)) := by
  change execFreeze target s = _
  rw [execFreeze, vfmCmd_of_takes h]
  dsimp only
  rw [if_neg (fun hx => hst hx.2)]

variable (hvf : isVf target.toNat = true)
include hvf

/-! ## FREEZE and CANCEL -/

theorem exec_freeze_enabled (hst : s.dev.fnState target.toNat = 1) :
    exec (.freeze target) s = .next (s.withDev
      (((s.dev.qpsRemembered target.toNat).fnSet target.toNat 3).vfmStatus .ok)) := by
  change execFreeze target s = _
  rw [execFreeze, vfmCmd_of_takes h]
  dsimp only
  rw [if_pos ⟨hvf, hst⟩]
  rfl

theorem exec_cancel_freezing (hst : s.dev.fnState target.toNat = 3) :
    let f := target.toNat
    let e := ((s.dev.fnSet f 1).fnCmdDone f 3 .flushed 0).vfmStatus .ok
    exec (.cancel target) s = .next (s.withDev ((e.fnQueues f).foldl (fun e p => e.wqSettle p.1 65537) e)) := by
  intro f e
  change execCancel target s = _
  rw [execCancel, vfmCmd_of_takes h]
  dsimp only
  rw [if_pos ⟨hvf, hst⟩]

/-! ## SAVE -/

section
variable (hst : s.dev.fnState target.toNat = 4)
include hst

theorem exec_save_tooLong :
    let f := target.toNat
    let e := s.dev.needShown f
    e.fget Reg.VFM_IMG_LEN_LEN < s.dev.vfSize f →
    exec (.save target) s = .next (s.withDev (e.vfmStatus .lengthError)) := by
  intro f e hlong
  change execSave target s = _
  rw [execSave, vfmCmd_of_takes h]
  dsimp only
  rw [if_neg (by simp [hvf, hst]), ← Dev.needShown, if_pos (.inl hlong)]

/-- An image that fits, of a VF with no more regions and roots than an image holds, is written over link 0 (R459, R460). -/
theorem exec_save_fits :
    let f := target.toNat
    let e := s.dev.needShown f
    s.dev.vfSize f ≤ e.fget Reg.VFM_IMG_LEN_LEN → (e.fnRegions f 1).length ≤ 262144 → (e.fnRoots f).length ≤ 16 → e.linkUp 0 = true →
    let g := (e.ringsUnread f).rootsFenced f
    exec (.save target) s = .next (s.withDev
      (((g.hostWrite 0 (g.fget Reg.VFM_IMG_ADDR_ADDR) (g.vfImage f) false).vfmStatus .ok).fnCmdDone f 5 .ok (s.dev.vfSize f))) := by
  intro f e hlen hregions hroots hlink g
  have hfits : ¬ (e.fget Reg.VFM_IMG_LEN_LEN < s.dev.vfSize f ∨ 262144 < (e.fnRegions f 1).length ∨ 16 < (e.fnRoots f).length) := by
    omega
  change execSave target s = _
  rw [execSave, vfmCmd_of_takes h]
  dsimp only
  rw [if_neg (by simp [hvf, hst]), ← Dev.needShown, if_neg hfits, if_neg (by simp [e, f, hlink])]
  rfl

end

/-! ## RESTORE -/

section
variable (hst : s.dev.fnState target.toNat = 0 ∨ s.dev.fnState target.toNat = 4) {b : Blob}
include hst

theorem exec_restore_passed (hok : s.dev.restoreCheck b target.toNat = .ok) :
    exec (.restore target (.ok b)) s = .next (s.withDev ((s.dev.restoreInto b target.toNat).vfmStatus .ok)) := by
  change execRestore target (.ok b) s = _
  rw [execRestore, vfmCmd_of_takes h]
  dsimp only
  rw [if_neg (by simp [hvf, hst]), hok]

theorem exec_restore_failed (hbad : s.dev.restoreCheck b target.toNat ≠ .ok) :
    exec (.restore target (.ok b)) s = .next (s.withDev (s.dev.vfmStatus (s.dev.restoreCheck b target.toNat))) := by
  change execRestore target (.ok b) s = _
  rw [execRestore, vfmCmd_of_takes h]
  dsimp only
  rw [if_neg (by simp [hvf, hst])]
  split
  · contradiction
  · rfl

end

end

end Sys2Proof.Machine
end

section
/-! PROOFS. Freezing, saving and restoring a VF (O42). -/
namespace Sys2Proof.Machine
open Sys2Proof

/-- Settles O42: each clause is the rule of its command or event. -/
theorem migrationResults : Obligations.MigrationResults := by
  intro s target
  extract_lets d f
  exact ⟨fun h hvf => ⟨exec_freeze_enabled h hvf, exec_freeze_notEnabled h, exec_cancel_freezing h hvf,
      fun hst => ⟨exec_save_tooLong h hvf hst, exec_save_fits h hvf hst⟩,
      fun hst b => ⟨exec_restore_passed h hvf hst, exec_restore_failed h hvf hst⟩⟩,
    fun fn => exec_freezeDone_quiet⟩

end Sys2Proof.Machine
end

section
/-! PROOFS. The machine right after reset (O57). -/
namespace Sys2Proof.Machine
open Sys2Proof

theorem State.reset_regGet (off : Nat) : State.reset.dev.regGet off = regReset off := rfl

/-- A field of a register that nothing has written reads its part of the Reset value. -/
theorem State.reset_fget (f : RegField) : State.reset.dev.fget f = bvFld (regReset f.off) f.lo f.w := rfl

theorem State.reset_linkState : ∀ n < 64, State.reset.dev.linkState n = 0 := by decide +kernel

theorem State.reset_alive : State.reset.dev.alive = false := rfl

/-- FENCE_CMD before start-up has ended does nothing. -/
theorem exec_fenceCmd_notRunning {s : State} (h : s.dev.running = false) (w : W32) : exec (.fenceCmd w) s = .next s := by
  change execFenceCmd w s = _
  rw [execFenceCmd, onDev, if_neg (by simp [h])]

/-- Settles O57: nothing is listed in the state at reset, so that each table and register reads its default. -/
theorem resetState : Obligations.ResetState := by
  unfold Obligations.ResetState
  refine ⟨rfl, rfl, rfl, State.reset_ram_wf, rfl, State.reset_regGet, ?_, ?_, ?_, ?_, ?_, ?_, fun t => rfl, fun n => rfl,
    State.reset_linkState, State.reset_alive, exec_fenceCmd_notRunning rfl⟩
  all_goals decide +kernel

end Sys2Proof.Machine
end

section
/-! PROOFS. The IDCODE register of the TAP (O59). -/
namespace Sys2Proof.Machine
open Sys2Proof

theorem exec_tapInstruction_idcode (s : State) : exec (.tapInstruction .idcode) s =
    .next (s.withDev ((s.dev.upPw (fun p => { p with tap := .idcode })).emit (.tapIdcode 0xB64005CB))) := rfl

/-- Settles O59: the word that the instruction sends, field by field. -/
theorem tapIdcode : Obligations.TapIdcode :=
  fun s => ⟨0xB64005CB, exec_tapInstruction_idcode s, rfl, by decide, by decide, by decide, by decide⟩

end Sys2Proof.Machine
end

section
/-! PROOFS. What the commands of key slots and the events of CIPHER streams make of the device, a rule for each outcome (R466,
R472, R474 to R476, R479). -/
namespace Sys2Proof.Machine
open Sys2Proof

/-! ## Key slots -/

section
variable {s : State} (h : Takes s.dev Reg.CAD_CMD_STATUS_BUSY) {slot : Fin 16384}
include h

theorem onCad_of_takes (f : Dev → Dev) : onCad s f = .next (s.withDev (f s.dev)) :=
  congrArg (fun d => Host.Outcome.next (s.withDev d)) (Dev.command_of_takes h _ f)

/-- IMPORT into an EMPTY slot whose old key no unit holds, with the record read and its parent's key there (R474). -/
theorem exec_import_read (hc : s.dev.committed = true) (hm : s.dev.slotMode slot.val ≠ 0) (he : (s.dev.slot slot.val).loaded = false)
    (ho : (s.dev.slot slot.val).old = false) (hl : s.dev.linkUp 0 = true) {k : BitVec 256} (bs : List Byte)
    (hk : s.dev.parentKey slot.val = some k) :
    exec (.import slot (.ok bs)) s = .next (s.withDev (match kwUnwrap k (sliceOf bs 0 88) with
      | none => (s.dev.finc Reg.CAD_AUTH_FAIL_COUNT).cadStatus .authFail
      | some r =>
        if recordOk r slot.val (s.dev.slotMode slot.val) = true then
          (s.dev.updSlot slot.val (fun x =>
            { x with loaded := true, key := BitVec.ofNat 512 (leNat (r.take 64)), salt := BitVec.ofNat 96 (leNat ((r.drop 0x40).take 12)),
                     imports := min 255 (x.imports + 1) })).cadStatus .ok
        else s.dev.cadStatus .malformed)) := by
  change execImport slot (.ok bs) s = _
  rw [execImport, onCad_of_takes h]
  dsimp only
  rw [if_neg (by simp [hc, hm, he]), if_neg (by simp [ho]), if_pos hl]
  simp only [Dev.importKeyInto, hk]
  cases kwUnwrap k (sliceOf bs 0 88) with
  | none => rfl
  | some r => cases hr : recordOk r slot.val (s.dev.slotMode slot.val) <;> simp [hr]

theorem exec_import_loaded (he : (s.dev.slot slot.val).loaded = true) (rd : HostRead) :
    exec (.import slot rd) s = .next (s.withDev (s.dev.cadStatus .accessError)) := by
  change execImport slot rd s = _
  rw [execImport, onCad_of_takes h]
  dsimp only
  rw [if_pos (by simp [he])]

theorem exec_erase_unused (he : (s.dev.slot slot.val).loaded = true) (hu : s.dev.keyInUse slot.val = false) :
    exec (.erase slot) s = .next (s.withDev
      ((s.dev.updSlot slot.val (fun x => { x with loaded := false, key := 0, salt := 0 })).cadStatus .ok)) := by
  change execErase slot s = _
  rw [execErase, onCad_of_takes h]
  dsimp only
  rw [if_neg (by simp [he]), if_neg (by simp [hu])]

/-- The material of an erased key stays with the units that hold it (R475). -/
theorem exec_erase_inUse (he : (s.dev.slot slot.val).loaded = true) (hu : s.dev.keyInUse slot.val = true) :
    exec (.erase slot) s = .next (s.withDev
      ((s.dev.updSlot slot.val (fun x => { x with loaded := false, old := true })).cadStatus .ok)) := by
  change execErase slot s = _
  rw [execErase, onCad_of_takes h]
  dsimp only
  rw [if_neg (by simp [he]), if_pos hu]

theorem exec_query_taken :
    let n := slot.val
    let check := if (s.dev.slot n).loaded then (kcv (keyK1 (s.dev.slot n).key)).toNat else 0
    exec (.query slot) s = .next (s.withDev ((s.dev.regSet Reg.CAD_SLOT_INFO (BitVec.ofNat 64 (b2n (s.dev.slot n).loaded +
      s.dev.slotMode n * 2 + (s.dev.slot n).imports * 2 ^ 8 + s.dev.slotOwner n * 2 ^ 16 + s.dev.slotParent n * 2 ^ 24 +
      check * 2 ^ 40))).cadStatus .ok)) :=
  onCad_of_takes h _

end

theorem exec_keyOverwrite_released {s : State} {slot : Fin 16384} (hr : s.dev.running = true) (ho : (s.dev.slot slot.val).old = true)
    (hu : s.dev.keyInUse slot.val = false) (hw : s.dev.cad.waiting = none) :
    exec (.keyOverwrite slot) s = .next (s.withDev (s.dev.updSlot slot.val (fun x => { x with key := 0, salt := 0, old := false }))) := by
  have hw' : (s.dev.updSlot slot.val (fun x => { x with key := 0, salt := 0, old := false })).cad.waiting = none := hw
  change execKeyOverwrite slot s = _
  rw [execKeyOverwrite, onDev]
  dsimp only
  rw [if_neg (by simp [hr, ho, hu]), hw']
  rfl

/-! ## Streams -/

/-- The front entry of a CIPHER queue starts when its opcode is the row's, a stream is free and it is the queue's turn (R479). -/
theorem Dev.cipherTurn_starts {d g : Dev} {qid op : Nat} {q : Wq} {e h : WqEntry} (hl : d.live = true) (hq : d.wqFind qid = some q)
    (hf : q.front = some e) (hc : wqClass q.ctx = 4) (ho : descOpcode e.desc = op) (hn : d.cad.streams.ents.length < 256)
    (ht : d.wqTurn 5 4 qid (fun _ _ _ => true) = some (g, h)) : d.cipherTurn qid op = g.streamStart qid q h := by
  simp [Dev.cipherTurn, hl, hq, hf, hc, ho, Nat.not_le.2 hn, ht]

/-- UNIT_DONE of the last unit of a stream: read, ciphered and written, and the stream ends (R479). -/
theorem exec_unitDone_last {s : State} (hl : s.dev.live = true) {stream : Fin 256} {rd : HostRead} {x : CadStream} {u : Nat} {key : BitVec 512}
    (hx : s.dev.cad.streams.find stream.val = some x) (hr : x.running = [(u, key)]) (hend : x.ended = none) {e g : Dev} {bs : List Byte}
    (hread : (s.dev.readEnd (.stream stream)).keyRead (x.user false) (cSrcKey x.desc) (cSrc x.desc + u * 2 ^ cShift x.desc) (2 ^ cShift x.desc) rd =
      (e, bs, none))
    (hov : e.cipherOverlap x.desc = false)
    (hwrite :
      let tweak := BitVec.ofNat 128 (cTweak x.desc + u)
      let out := if descOpcode x.desc = 0x70 then xtsEncrypt key tweak bs else xtsDecrypt key tweak bs
      e.keyWrite (x.user true) (cDstKey x.desc) (cDst x.desc + u * 2 ^ cShift x.desc) (sliceOf out 0 (2 ^ cShift x.desc)) false = (g, none))
    (hlast : cLen x.desc / 2 ^ cShift x.desc ≤ x.next) :
    exec (.unitDone stream rd) s = .next (s.withDev
      (((g.cadBlocks 3 (xtsBlocks (2 ^ cShift x.desc))).upCad
        (fun c => { c with streams := c.streams.set stream.val { x with running := [] } })).streamEnd stream.val .ok)) := by
  change execUnitDone stream rd s = _
  simp only [execUnitDone, onDev, hl, hx, hr, hread, hov, Bool.false_eq_true, if_false, hwrite, hend, List.isEmpty_nil, Bool.not_true,
    if_pos hlast]
  rfl

end Sys2Proof.Machine
end

section
/-! PROOFS. Key slots and CIPHER streams (O43). -/
namespace Sys2Proof.Machine
open Sys2Proof

/-- Settles O43: each clause is the rule of its command or event. -/
theorem cipherResults : Obligations.CipherResults := by
  intro s
  extract_lets d
  refine ⟨fun h slot => ⟨fun hc hm he ho hl k bs => exec_import_read h hc hm he ho hl bs, exec_import_loaded h,
      fun he => ⟨exec_erase_unused h he, exec_erase_inUse h he⟩, exec_query_taken h⟩,
    fun slot => exec_keyOverwrite_released, fun qid q e g h hl hq hf hc hn ht => ⟨fun ho => ?_, fun ho => ?_⟩,
    fun stream rd x u key hl hx hr hend e bs hread hov g hwrite hlast =>
      exec_unitDone_last hl hx hr hend hread hov hwrite hlast⟩
  · rw [← Dev.cipherTurn_starts hl hq hf hc ho hn ht]
    rfl
  · rw [← Dev.cipherTurn_starts hl hq hf hc ho hn ht]
    rfl

end Sys2Proof.Machine
end

section
/-! PROOFS. What the commands of SEC and the SPDM responder make of the device, a rule for each outcome (R491, R492, R494 to
R498, R500, R502). -/
namespace Sys2Proof.Machine
open Sys2Proof

/-! ## Anti-rollback, tokens and the owner key -/

section
variable {s : State} (ha : s.dev.alive = true) (hb : s.dev.fon Reg.SEC_CMD_STATUS_BUSY = false)
include ha hb

theorem exec_advanceRollback_reached {v : BitVec 7} (hv : v.toNat ≤ s.dev.rollback) :
    exec (.advanceRollback v) s = .next (s.withDev (s.dev.rollbackDone .ok)) := by
  change execAdvanceRollback v s = _
  rw [execAdvanceRollback, onSec_accepted ha hb]
  dsimp only
  rw [if_pos hv]

/-- An advance to a version that the committed image has starts with the lowest fuse not blown (R492). -/
theorem exec_advanceRollback_starts {v : BitVec 7} (hv : s.dev.rollback < v.toNat) (hc : s.dev.committed = true)
    (hi : v.toNat ≤ s.dev.fget Reg.GLB_IMAGE_INFO_SECURITY_VERSION) (hn : v.toNat ≤ 64) (hst : s.dev.fget Reg.IMG_STATUS_STATE = 0) :
    exec (.advanceRollback v) s = .next (s.withDev
      ((s.dev.fset Reg.SEC_CMD_STATUS_BUSY 1).upTr (fun t => { t with blow := some (s.dev.rollback, v.toNat, false) }))) := by
  change execAdvanceRollback v s = _
  rw [execAdvanceRollback, onSec_accepted ha hb]
  dsimp only
  rw [if_neg (Nat.not_le.2 hv), if_neg (by simp [hc, hi, hn, hst])]

/-- DEBUG_TOKEN through a link that is up: a new nonce, and what the token's checks say. -/
theorem exec_debugToken_read (rd : HostRead) (hl : s.dev.linkUp 0 = true) :
    let e := (s.dev.regSet Reg.SEC_DEBUG_NONCE (Config.freeValue 64 s.dev.fresh)).bump
    exec (.debugToken rd) s = .next (s.withDev (match s.dev.tokenStatus rd with
      | (.ok, level) => (((e.fset Reg.SEC_DEBUG_LEVEL level).upTr (fun t => { t with token := true })).post 0 (.other 0x3D) 0 level).secStatus .ok
      | (st, _) => e.secStatus st)) := by
  intro e
  change execDebugToken rd s = _
  rw [execDebugToken, onSec_accepted ha hb]
  dsimp only
  rw [if_pos hl]
  obtain ⟨st, level⟩ := s.dev.tokenStatus rd
  cases st <;> rfl

theorem exec_programOwnerKey_first (bs : List Byte) (hl : s.dev.linkUp 0 = true) (ho : s.dev.ownerSet = false) :
    exec (.programOwnerKey (.ok bs)) s = .next (s.withDev
      (((s.dev.upTr (fun t => { t with owner := some (BitVec.ofNat 256 (leNat (sliceOf bs 0 32))) })).fset Reg.SEC_STATUS_OWNER_SET 1).secStatus
        .ok)) := by
  change execProgramOwnerKey (.ok bs) s = _
  rw [execProgramOwnerKey, onSec_accepted ha hb]
  simp only [ho, hl, Bool.false_eq_true, if_false, if_true]

theorem exec_programOwnerKey_again (rd : HostRead) (ho : s.dev.ownerSet = true) :
    exec (.programOwnerKey rd) s = .next (s.withDev (s.dev.secStatus .accessError)) := by
  change execProgramOwnerKey rd s = _
  rw [execProgramOwnerKey, onSec_accepted ha hb]
  dsimp only
  rw [if_pos ho]

end

section
variable {s : State} (ha : s.dev.alive = true) {i v : Nat} {second : Bool} (hblow : s.dev.tr.blow = some (i, v, second))
include ha hblow

/-- A fuse read back blown is counted, and the last one that the advance needs ends it (R492). -/
theorem exec_fuseBlowDone_blown :
    let e := s.dev.upTr (fun t => { t with fuses := t.fuses ||| BitVec.ofNat 64 (2 ^ i), blow := some (i + 1, v, false) })
    let g := e.fset Reg.SEC_ROLLBACK_COUNT e.rollback
    exec (.fuseBlowDone true) s = .next (s.withDev (if i + 1 < v then g else g.rollbackDone .ok)) := by
  change execFuseBlowDone true s = _
  simp only [execFuseBlowDone, onDev, ha, hblow, if_true]
  rfl

theorem exec_fuseBlowDone_failed (h : second = true) :
    exec (.fuseBlowDone false) s = .next (s.withDev (s.dev.rollbackDone .uncorrectable)) := by
  change execFuseBlowDone false s = _
  simp only [execFuseBlowDone, onDev, ha, hblow, h, Bool.false_eq_true, if_false, if_true]
  rfl

end

/-! ## The certificate and signatures -/

theorem exec_aliasCertDone_released {s : State} (hc : s.dev.pw.cold = false) :
    exec .aliasCertDone s = .next (s.withDev (s.dev.upTr (fun t => { t with aliasBusy := false }))) := by
  change execAliasCertDone s = _
  rw [execAliasCertDone, onDev, if_neg (by simp [hc])]
  rfl

theorem exec_signatureDone_measurements {s : State} {mctp : Bool} {blocks : List (Nat × Nat × List Byte)} {nonce : BitVec 256}
    (hc : s.dev.pw.cold = false) (hsig : s.dev.tr.signing = some (.measurements mctp blocks nonce)) :
    let e := s.dev.upTr (fun t => { t with signing := none })
    exec .signatureDone s = .next (s.withDev (e.spdmSend mctp (.measurements 5 blocks (some (e.aliasPk, nonce))))) := by
  change execSignatureDone s = _
  simp only [execSignatureDone, onDev, hc, hsig]
  rfl

/-! ## SPDM requests -/

section
variable {s : State} {mctp : Bool} (hu : s.dev.spdmUp mctp = true)
include hu

/-- A request in a connection that has got far enough is answered; `need` 0 asks for nothing. -/
theorem onSpdm_answered {need : Nat} (hn : need ≤ s.dev.spdmState mctp) (f : Dev → Dev) :
    onSpdm mctp need s f = .next (s.withDev (f s.dev)) := by
  simp [onSpdm, onDev, State.withDev, hu, Nat.not_lt.2 hn]

theorem onSpdm_early {need : Nat} (hn : s.dev.spdmState mctp < need) (f : Dev → Dev) :
    onSpdm mctp need s f = .next (s.withDev (s.dev.spdmSend mctp (.error 4))) := by
  simp [onSpdm, onDev, State.withDev, hu, hn]

theorem exec_getVersion_answered : exec (.getVersion mctp) s = .next (s.withDev ((s.dev.spdmSet mctp 1).spdmSend mctp .version)) := by
  change execGetVersion mctp s = _
  rw [execGetVersion, onSpdm_answered hu (Nat.zero_le _)]

theorem exec_unsupportedSpdmRequest_answered :
    exec (.unsupportedSpdmRequest mctp) s = .next (s.withDev (s.dev.spdmSend mctp (.error 7))) := by
  change execUnsupportedSpdmRequest mctp s = _
  rw [execUnsupportedSpdmRequest, onSpdm_answered hu (Nat.zero_le _)]

theorem exec_getDigests_early (hst : s.dev.spdmState mctp < 3) :
    exec (.getDigests mctp) s = .next (s.withDev (s.dev.spdmSend mctp (.error 4))) := by
  change execGetDigests mctp s = _
  rw [execGetDigests, onSpdm_early hu hst]

section
variable (hst : s.dev.spdmState mctp = 3)
include hst

theorem exec_getCapabilities_negotiated :
    exec (.getCapabilities mctp) s = .next (s.withDev ((s.dev.spdmSet mctp 3).spdmSend mctp (.capabilities 16))) := by
  change execGetCapabilities mctp s = _
  rw [execGetCapabilities, onSpdm_answered hu (by omega), hst]
  rfl

theorem exec_negotiateAlgorithms_negotiated :
    exec (.negotiateAlgorithms mctp) s = .next (s.withDev ((s.dev.spdmSet mctp 3).spdmSend mctp (.algorithms 0x1E7B 1))) := by
  change execNegotiateAlgorithms mctp s = _
  rw [execNegotiateAlgorithms, onSpdm_answered hu (by omega)]

theorem exec_getDigests_negotiated :
    exec (.getDigests mctp) s = .next (s.withDev (s.dev.spdmSend mctp (.digests (sha256 s.dev.certChain)))) := by
  change execGetDigests mctp s = _
  rw [execGetDigests, onSpdm_answered hu hst.ge]

theorem exec_getCertificate_inChain {off : BitVec 16} (len : BitVec 16) (ho : off.toNat < s.dev.certChain.length) :
    exec (.getCertificate mctp 0 off len) s = .next (s.withDev (s.dev.spdmSend mctp
      (.certificate ((s.dev.certChain.drop off.toNat).take len.toNat) (s.dev.certChain.length - (off.toNat + len.toNat))))) := by
  change execGetCertificate mctp 0 off len s = _
  rw [execGetCertificate, onSpdm_answered hu hst.ge]
  dsimp only
  rw [if_neg (by simpa using ho)]

section
variable (summary : Bool) (nonce : BitVec 256)

theorem exec_challenge_free (hf : s.dev.canSign = true) :
    exec (.challenge mctp 0 summary nonce) s = .next (s.withDev
      (s.dev.upTr (fun t => { t with signing := some (.challenge mctp summary nonce) }))) := by
  change execChallenge mctp 0 summary nonce s = _
  rw [execChallenge, onSpdm_answered hu hst.ge]
  rw [if_neg (not_not_intro rfl), if_neg (by simp [hf])]

theorem exec_challenge_busy (hf : s.dev.canSign = false) :
    exec (.challenge mctp 0 summary nonce) s = .next (s.withDev (s.dev.spdmSend mctp (.error 3))) := by
  change execChallenge mctp 0 summary nonce s = _
  rw [execChallenge, onSpdm_answered hu hst.ge]
  rw [if_neg (not_not_intro rfl), if_pos (by simp [hf])]

end

section
variable {i : BitVec 8} (hi : i.toNat ≤ 5) (nonce : BitVec 256)
include hi

theorem exec_getMeasurements_unsigned :
    exec (.getMeasurements mctp i false nonce) s = .next (s.withDev (s.dev.spdmSend mctp (.measurements 5 (s.dev.blocks i.toNat) none))) := by
  change execGetMeasurements mctp i false nonce s = _
  rw [execGetMeasurements, onSpdm_answered hu hst.ge]
  dsimp only
  rw [if_neg (by omega), if_pos Bool.not_false]

theorem exec_getMeasurements_signed (hf : s.dev.canSign = true) :
    exec (.getMeasurements mctp i true nonce) s = .next (s.withDev
      (s.dev.upTr (fun t => { t with signing := some (.measurements mctp (s.dev.blocks i.toNat) nonce) }))) := by
  change execGetMeasurements mctp i true nonce s = _
  rw [execGetMeasurements, onSpdm_answered hu hst.ge]
  dsimp only
  rw [if_neg (by omega), if_neg (by simp), if_neg (by simp [hf])]

end

end

end

end Sys2Proof.Machine
end

section
/-! PROOFS. Anti-rollback, tokens, keys and the SPDM responder (O44). -/
namespace Sys2Proof.Machine
open Sys2Proof

/-- Settles O44: each clause is the rule of its command or event. -/
theorem trustResults : Obligations.TrustResults := by
  intro s
  extract_lets d
  refine ⟨fun ha hb => ⟨fun v => ⟨exec_advanceRollback_reached ha hb, exec_advanceRollback_starts ha hb⟩,
      exec_debugToken_read ha hb, exec_programOwnerKey_first ha hb, exec_programOwnerKey_again ha hb⟩,
    fun i v second ha hblow => ?_, exec_aliasCertDone_released, fun mctp hu => ?_,
    fun mctp blocks nonce => exec_signatureDone_measurements⟩
  · intro e g
    refine ⟨fun h => ?_, fun h => ?_, exec_fuseBlowDone_failed ha hblow⟩
    · rw [exec_fuseBlowDone_blown ha hblow, if_pos h]
    · rw [exec_fuseBlowDone_blown ha hblow, if_neg (Nat.not_lt.2 h)]
  · refine ⟨exec_getVersion_answered hu, exec_unsupportedSpdmRequest_answered hu, fun hst => ?_, exec_getDigests_early hu⟩
    exact ⟨exec_getCapabilities_negotiated hu hst, exec_negotiateAlgorithms_negotiated hu hst, exec_getDigests_negotiated hu hst,
      fun off len => exec_getCertificate_inChain hu hst len,
      fun summary nonce => ⟨exec_challenge_free hu hst summary nonce, exec_challenge_busy hu hst summary nonce⟩,
      fun i nonce hi => ⟨exec_getMeasurements_unsigned hu hst hi nonce, exec_getMeasurements_signed hu hst hi nonce⟩⟩

end Sys2Proof.Machine
end

section
/-! PROOFS. What the brake, the power cap, temperatures and the power states make of the device, a rule for each outcome (R534,
R535, R537, R538, R540 to R542, R544 to R546). -/
namespace Sys2Proof.Machine
open Sys2Proof

/-! ## The brake and the divider -/

section
variable {s : State}

theorem exec_pwrbrakeAssert_low (hp : s.dev.pw.brakePin = false) :
    let e := s.dev.upPw (fun p => { p with brakePin := true })
    exec .pwrbrakeAssert s = .next (s.withDev (if e.alive then e.brakeOn else e)) := by
  change execPwrbrakeAssert s = _
  rw [execPwrbrakeAssert, onDev, if_neg (by simp [hp])]
  rfl

theorem exec_pwrbrakeRelease_braking :
    let e := s.dev.upPw (fun p => { p with brakePin := false })
    e.alive = true → e.fon Reg.PWR_BRAKE_ACTIVE = true →
    let g := e.fset Reg.PWR_BRAKE_ACTIVE 0
    let n := g.fget Reg.PWR_THROTTLE_NOTCH
    exec .pwrbrakeRelease s = .next (s.withDev
      ((g.upPw (fun p => { p with falling := if g.topNotch < n then some n else none })).applyNotch.powerEvent 7 .ok 0)) := by
  intro e ha hb g n
  change execPwrbrakeRelease s = _
  rw [execPwrbrakeRelease, onDev]
  dsimp only
  rw [if_pos (Bool.and_eq_true_iff.2 ⟨ha, hb⟩)]
  rfl

theorem exec_pwrbrakeRelease_idle :
    let e := s.dev.upPw (fun p => { p with brakePin := false })
    e.fon Reg.PWR_BRAKE_ACTIVE = false → exec .pwrbrakeRelease s = .next (s.withDev e) := by
  intro e hb
  change execPwrbrakeRelease s = _
  rw [execPwrbrakeRelease, onDev]
  dsimp only
  rw [if_neg (fun h => Bool.false_ne_true (hb.symm.trans (Bool.and_eq_true_iff.1 h).2))]
  rfl

theorem exec_brakeStepDown_falling {n : Nat} (hf : s.dev.pw.falling = some n) : exec .brakeStepDown s = .next (s.withDev
    (s.dev.upPw (fun p => { p with falling := if n - 1 ≤ s.dev.topNotch then none else some (n - 1) })).applyNotch) := by
  change execBrakeStepDown s = _
  rw [execBrakeStepDown, onDev, hf]
  rfl

theorem exec_dividerChange_alive (ha : s.dev.alive = true) : exec .dividerChange s = .next (s.withDev
    (s.dev.upPw (fun p => { p with divider := min 3 (s.dev.fget Reg.PWR_THROTTLE_NOTCH) }))) := by
  change execDividerChange s = _
  rw [execDividerChange, onDev, if_pos ha]
  rfl

/-! ## The power cap -/

theorem exec_powerEstimate_sensed (now : BitVec 16) (hs : s.dev.sensed = true) :
    let e := s.dev.upPw (fun p => { p with estimates := (now.toNat :: p.estimates).take 10000 })
    let l := e.pw.estimates.take (100 * e.fget Reg.PWR_CAP_WINDOW_MS)
    exec (.powerEstimate now) s = .next (s.withDev
      (((e.fset Reg.PWR_EST_NOW_W now.toNat).fset Reg.PWR_EST_AVG_W (l.foldl (· + ·) 0 / l.length)).noteLevel 51)) := by
  intro e l
  change execPowerEstimate now s = _
  rw [execPowerEstimate, onDev, if_pos hs]
  rfl

/-- While the average exceeds CAP_W the cap requester names one notch more; below notch 6 nothing is unmet (R538). -/
theorem exec_capCheck_exceeded (ha : s.dev.alive = true) (hc : s.dev.fget Reg.PWR_CAP_CAP_W < s.dev.fget Reg.PWR_EST_AVG_W)
    (hn : s.dev.pw.cap < 6) (hw : 1 ≤ s.dev.fget Reg.PWR_CAP_WINDOW_MS) : exec .capCheck s = .next (s.withDev
    (s.dev.upPw (fun p => { p with cap := s.dev.pw.cap + 1, atSix := 0, sinceLower := min 1000 (s.dev.pw.sinceLower + 1) })).applyNotch) := by
  have hlower : decide (s.dev.fget Reg.PWR_EST_AVG_W + 50 < s.dev.fget Reg.PWR_CAP_CAP_W) = false := decide_eq_false (by omega)
  have hcap : min 6 (s.dev.pw.cap + 1) = s.dev.pw.cap + 1 := by omega
  change execCapCheck s = _
  rw [execCapCheck, onDev]
  dsimp only
  rw [if_neg (by simp [ha])]
  simp only [if_pos hc, if_neg hn.ne, hlower, hcap, Bool.false_and, Bool.false_eq_true, if_false]
  rw [if_neg (fun h => by omega)]
  rfl

/-! ## Temperatures -/

/-- The marks of the thermal requester do not bear on reset. -/
theorem Dev.alive_upPw_hot (d : Dev) (hot tjmax : Bool) :
    (d.upPw (fun p => { p with hot := p.hot && hot, tjmax := tjmax })).alive = d.alive := rfl

/-- A scan below Tj,max stores its readings and the hottest of all sensors, and the notches follow (R541, R542). -/
theorem exec_sensorScan_belowTjmax (r : BitVec 768) (hs : s.dev.sensed = true) :
    let e := (List.range 48).foldl (fun (d : Dev) i => d.fset (Reg.PWR_TEMPi_TEMP i) (bvFld r (16 * i) 16)) s.dev
    let m := e.hottest (List.range 48)
    let g := ((e.fset Reg.PWR_TEMP_MAX_SENSOR m).fset Reg.PWR_TEMP_MAX_TEMP (e.fget (Reg.PWR_TEMPi_TEMP m))).noteLevels (listOf 49 (· + 1))
    g.temp g.hotSensor < 16 * 105 → g.alive = true →
    exec (.sensorScan r) s = .next (s.withDev (g.upPw (fun p => { p with hot := p.hot && g.tooHot, tjmax := false })).applyNotch) := by
  intro e m g ht ha
  change execSensorScan r s = _
  rw [execSensorScan, onDev, if_neg (by simp [hs])]
  extract_lets written scanned top first noted applied
  have htop : top = false := decide_eq_false (Int.not_le.2 ht)
  have hnoted : noted = g.upPw (fun p => { p with hot := p.hot && g.tooHot, tjmax := false }) := by
    simp only [noted, htop, Bool.false_and, Bool.false_eq_true, if_false]
    rfl
  have halive : noted.alive = true := by
    rw [hnoted, Dev.alive_upPw_hot, ha]
  rw [if_neg (by simp [first, htop])]
  simp only [applied]
  rw [if_pos halive, hnoted]
  rfl
section
variable (ha : s.dev.alive = true)
include ha

theorem exec_thermalRaise_tooHot (hh : s.dev.tooHot = true) (hn : s.dev.pw.thermal < 6) :
    let e := (s.dev.upPw (fun p => { p with thermal := p.thermal + 1, hot := true })).applyNotch
    exec .thermalRaise s = .next (s.withDev (if !s.dev.pw.hot then e.powerEvent 3 .ok e.hotReading else e)) := by
  change execThermalRaise s = _
  rw [execThermalRaise, onDev, if_pos (by simp [ha, hh, hn])]
  rfl

theorem exec_thermalLower_cool (hh : s.dev.tooHot = false) (ht : s.dev.temp s.dev.hotSensor < s.dev.throt - 48) :
    exec .thermalLower s = .next (s.withDev (s.dev.upPw (fun p => { p with thermal := p.thermal - 1 })).applyNotch) := by
  change execThermalLower s = _
  rw [execThermalLower, onDev, if_pos (by simp [ha, hh, ht])]
  rfl

/-! ## STANDBY and WAKE -/

section
variable (hb : s.dev.fon Reg.PWR_CMD_STATUS_BUSY = false)
include hb

theorem onPwr_accepted (f : Dev → Dev) : onPwr s f = .next (s.withDev (f s.dev)) := by
  simp [onPwr, onDev, State.withDev, ha, hb]

/-- STANDBY with nothing running: copies go home, and links and ports go DOWN (R544). -/
theorem exec_standby_accepted (hs : s.dev.canStandby = true) :
    let e := ((s.dev.fset Reg.PWR_CMD_STATUS_BUSY 1).fset Reg.PWR_STATE_STATE 1).svcAbandon.upMem (fun m => { m with moves := [] })
    let g := (e.mem.blk.keys.foldl (fun (d : Dev) i => d.bringHome i) e).linksDown
    exec .standby s = .next (s.withDev ((List.range 32).foldl (fun (d : Dev) p => if d.portExists p then d.portStop p 1 else d) g)) := by
  intro e g
  change execStandby s = _
  rw [execStandby, onPwr_accepted ha hb]
  dsimp only
  rw [if_pos hs]

theorem exec_standby_refused (hs : s.dev.canStandby = false) : exec .standby s = .next (s.withDev (s.dev.pwrStatus .accessError)) := by
  change execStandby s = _
  rw [execStandby, onPwr_accepted ha hb]
  dsimp only
  rw [if_neg (by simp [hs])]

/-- WAKE in STANDBY: clusters are cleared, and links and ports train (R544). -/
theorem exec_wake_accepted (hs : s.dev.inStandby = true) :
    let e := ((s.dev.fset Reg.PWR_CMD_STATUS_BUSY 1).fset Reg.PWR_STATE_STATE 3).noteState 168 s.dev.deviceState
    let g := (List.range 32).foldl (fun (d : Dev) c => if d.clusterOff c then d else d.clearCluster c) e
    let k := (List.range 32).foldl (fun (d : Dev) p => if d.portExists p && !d.portBarred p then d.setPortState p 2 else d) g
    exec .wake s = .next (s.withDev ((List.range 64).foldl (fun (d : Dev) n => if d.linkState n = 0 then d.startTraining n else d) k)) := by
  intro e g k
  change execWake s = _
  rw [execWake, onPwr_accepted ha hb]
  dsimp only
  rw [if_pos hs]

theorem exec_wake_refused (hs : s.dev.inStandby = false) : exec .wake s = .next (s.withDev (s.dev.pwrStatus .accessError)) := by
  change execWake s = _
  rw [execWake, onPwr_accepted ha hb]
  dsimp only
  rw [if_neg (by simp [hs])]

end

end

theorem exec_standbyDone_entering (hs : s.dev.fget Reg.PWR_STATE_STATE = 1) :
    let e := s.dev.clearSram.upTl (fun _ => Tiles.reset)
    exec .standbyDone s = .next (s.withDev
      (((((e.fset Reg.PWR_STATE_STATE 2).fset Reg.PWR_CMD_STATUS_BUSY 0).fset Reg.PWR_CMD_STATUS_STATUS 0).noteState 168 s.dev.deviceState).powerEvent
        1 .ok 0)) := by
  change execStandbyDone s = _
  rw [execStandbyDone, onDev, if_pos hs]
  rfl

theorem exec_wakeDone_waking (hs : s.dev.fget Reg.PWR_STATE_STATE = 3) :
    exec .wakeDone s = .next (s.withDev
      (((((s.dev.upImg (fun i => { i with startDue := s.dev.committed })).fset Reg.PWR_STATE_STATE 0).fset Reg.PWR_CMD_STATUS_BUSY 0).fset
        Reg.PWR_CMD_STATUS_STATUS 0).powerEvent 2 .ok 0)) := by
  change execWakeDone s = _
  rw [execWakeDone, onDev, if_pos hs]
  rfl

end

end Sys2Proof.Machine
end

section
/-! PROOFS. Notches, the cap, temperature, STANDBY and WAKE (O48). -/
namespace Sys2Proof.Machine
open Sys2Proof

/-- Settles O48: each clause is the rule of its command or event. -/
theorem powerControlResults : Obligations.PowerControlResults := by
  intro s
  extract_lets d e0
  refine ⟨fun hp => ?_, ⟨exec_pwrbrakeRelease_braking, exec_pwrbrakeRelease_idle⟩, fun n => exec_brakeStepDown_falling,
    exec_dividerChange_alive, fun now => exec_powerEstimate_sensed now, exec_capCheck_exceeded,
    exec_sensorScan_belowTjmax, fun ha => ⟨fun hh hn => ?_, exec_thermalLower_cool ha⟩,
    fun ha hb => ⟨exec_standby_accepted ha hb, exec_standby_refused ha hb, exec_wake_accepted ha hb, exec_wake_refused ha hb⟩,
    exec_standbyDone_entering, exec_wakeDone_waking⟩
  · have hassert := exec_pwrbrakeAssert_low hp
    exact ⟨fun ha => hassert.trans (by rw [if_pos ha]; rfl), fun ha => hassert.trans (by rw [if_neg (ne_true_of_eq_false ha)])⟩
  · have hraise := exec_thermalRaise_tooHot ha hh hn
    exact ⟨fun hhot => hraise.trans (by rw [if_neg (by rw [hhot]; decide)]), fun hhot => hraise.trans (by rw [if_pos (by rw [hhot]; rfl)])⟩

end Sys2Proof.Machine
end

section
/-! PROOFS. What the power-on and in-service self-tests make of the device, a rule for each outcome (R557 to R566). -/
namespace Sys2Proof.Machine
open Sys2Proof

/-! ## Power-on groups -/

section
variable {s : State} {g : Fin 8}

theorem exec_bistGroupStart_turn (hc : s.dev.pw.cold = false) (hk : s.dev.pw.kettle = true) (hi : s.dev.pw.initDone = false)
    (hf : s.dev.fon Reg.BST_POST_STATUS_FAIL = false) (ht : g.val = 0 ∨ s.dev.bst.started.getLsbD (g.val - 1) = true) :
    exec (.bistGroupStart g) s = .next (s.withDev
      (s.dev.upBst (fun b => { b with started := b.started ||| BitVec.ofNat 8 (2 ^ g.val) }))) := by
  have hturn : (decide (g.val = 0) || s.dev.bst.started.getLsbD (g.val - 1)) = true := by simpa using ht
  change execBistGroupStart g s = _
  rw [execBistGroupStart, onDev]
  dsimp only
  rw [if_pos (by simp only [hc, hk, hi, hf, hturn]; rfl)]
  rfl

section
variable (hs : s.dev.bst.started.getLsbD g.val = true) (he : s.dev.bst.ended.getLsbD g.val = false) (hi : s.dev.pw.initDone = false)
include hs he hi

/-- A group without failures is shown PASSED with its time. -/
theorem exec_bistGroupDone_passed (us : BitVec 16) : exec (.bistGroupDone g [] us) s = .next (s.withDev
    (((s.dev.fset (Reg.BST_GROUPg_TIME_US g.val) us.toNat).forb Reg.BST_POST_STATUS_PASSED (2 ^ g.val)).upBst
      (fun b => { b with ended := b.ended ||| BitVec.ofNat 8 (2 ^ g.val) })).bistSettle) := by
  change execBistGroupDone g [] us s = _
  rw [execBistGroupDone, onDev, if_neg (by rw [hs, he, hi]; decide)]
  rfl

/-- A group with one element that lastingly fails is not PASSED; the element's failure is counted and dealt with (R559). -/
theorem exec_bistGroupDone_lasting {f : BistFail} (hown : s.dev.bistTests g.val f.elem = true) (hl : f.lasting = true) (us : BitVec 16) :
    exec (.bistGroupDone g [f] us) s = .next (s.withDev
      (((((s.dev.fincSat (Reg.BST_GROUPg_LASTING g) 255).elemFailed g.val f).fset (Reg.BST_GROUPg_TIME_US g) us.toNat).upBst
        (fun b => { b with ended := b.ended ||| BitVec.ofNat 8 (2 ^ g.val) })).bistSettle)) := by
  have hfilter : [f].filter (fun f => s.dev.bistTests g.val f.elem) = [f] := by simp [hown]
  change execBistGroupDone g [f] us s = _
  rw [execBistGroupDone, onDev, if_neg (by rw [hs, he, hi]; decide)]
  dsimp only
  rw [hfilter]
  simp only [List.foldl_cons, List.foldl_nil, List.any_cons, List.any_nil, hl, Bool.true_or, if_true]
  rfl

end

end

/-- A lasting failure of an HBM3E channel in group 3 is a power-on failure (R559, R560). -/
theorem exec_bistGroupDone_hbm {s : State} (h : Fin 8) (c : Fin 16) (r : BitVec 4) (us : BitVec 16)
    (hs : s.dev.bst.started.getLsbD 3 = true) (he : s.dev.bst.ended.getLsbD 3 = false) (hi : s.dev.pw.initDone = false)
    (hn : s.dev.fget (Reg.BST_GROUPg_LASTING 3) < 255) :
    let e := (s.dev.finc (Reg.BST_GROUPg_LASTING 3)).bistFailure (3 * 2 ^ 28 + r.toNat * 2 ^ 24 + (h.val * 16 + c.val))
    exec (.bistGroupDone 3 [⟨.hbm h c, r, true⟩] us) s = .next (s.withDev
      ((e.fset (Reg.BST_GROUPg_TIME_US 3) us.toNat).upBst (fun b => { b with ended := b.ended ||| BitVec.ofNat 8 (2 ^ 3) })).bistSettle) := by
  have hcount : s.dev.fincSat (Reg.BST_GROUPg_LASTING 3) 255 = s.dev.finc (Reg.BST_GROUPg_LASTING 3) := if_pos hn
  rw [← hcount]
  exact exec_bistGroupDone_lasting (g := 3) (f := ⟨.hbm h c, r, true⟩) hs he hi rfl rfl us

/-! ## In-service commands -/

section
variable {s : State} (h : Takes s.dev Reg.BST_SVC_STATUS_BUSY) {index : BitVec 16}
include h

theorem svcCmd_of_takes (f : Dev → Dev) : svcCmd s f = .next (s.withDev (f s.dev)) :=
  congrArg (fun d => Host.Outcome.next (s.withDev d)) (Dev.command_of_takes h _ f)

theorem exec_svcOnaudLink_idle (hi : s.dev.svcLinkIdle index.toNat = true) : exec (.svcOnaudLink index) s = .next (s.withDev
    ((s.dev.updLink index.toNat (fun l => { l with testing := true })).svcStart 1 index.toNat .quiet)) := by
  change execSvcOnaudLink index s = _
  rw [execSvcOnaudLink, svcCmd_of_takes h, if_pos hi]

theorem exec_svcOnaudLink_refused (hi : s.dev.svcLinkIdle index.toNat = false) :
    exec (.svcOnaudLink index) s = .next (s.withDev s.dev.svcRefuse) := by
  change execSvcOnaudLink index s = _
  rw [execSvcOnaudLink, svcCmd_of_takes h, if_neg (by simp [hi])]

theorem exec_svcD2dSpares_exists (hi : index.toNat < 8) :
    exec (.svcD2dSpares index) s = .next (s.withDev (s.dev.svcStart 2 index.toNat .prbs)) := by
  change execSvcD2dSpares index s = _
  rw [execSvcD2dSpares, svcCmd_of_takes h, if_pos hi]

theorem exec_svcD2dSpares_refused (hi : 8 ≤ index.toNat) : exec (.svcD2dSpares index) s = .next (s.withDev s.dev.svcRefuse) := by
  change execSvcD2dSpares index s = _
  rw [execSvcD2dSpares, svcCmd_of_takes h, if_neg (Nat.not_lt.2 hi)]

theorem exec_svcEthPort_down (hi : index.toNat < 32) (hx : s.dev.portExists index.toNat = true) (hs : s.dev.portState index.toNat = 1) :
    exec (.svcEthPort index) s = .next (s.withDev (s.dev.svcStart 3 index.toNat .prbs)) := by
  change execSvcEthPort index s = _
  rw [execSvcEthPort, svcCmd_of_takes h, if_pos ⟨hi, hx, hs⟩]

theorem exec_svcEthPort_refused (hi : 32 ≤ index.toNat) : exec (.svcEthPort index) s = .next (s.withDev s.dev.svcRefuse) := by
  change execSvcEthPort index s = _
  rw [execSvcEthPort, svcCmd_of_takes h, if_neg (fun hp => Nat.not_lt.2 hi hp.1)]

end

/-! ## The stages of an in-service test -/

section
variable {s : State} {t : SvcTest} (hr : s.dev.running = true)
include hr

section
variable {n : Fin 64} (ht : s.dev.svcLink n.val .quiet = some t)
include ht

/-- A link that has become quiet is saved, and its test runs in DISABLED (R563). -/
theorem exec_linkQuiet_quiet (hq : s.dev.linkQuiet n.val = true) :
    let l := s.dev.onfLink n.val
    exec (.linkQuiet n) s = .next (s.withDev
      (((s.dev.updLink n.val (fun l' =>
        { l' with saved := some ⟨l.txSeq, l.rxSeq, l.credits, s.dev.fget (Reg.ONF_LINKn_LAT_LAT0 n.val)⟩ })).setLinkState n.val 6).upBst (fun b => { b with svc := some { t with stage := .prbs } }))) := by
  intro l
  change execLinkQuiet n s = _
  rw [execLinkQuiet, onDev, ht]
  dsimp only
  rw [if_pos ⟨hr, hq⟩]
  rfl

theorem exec_quietTimeout_waiting : exec (.quietTimeout n) s = .next (s.withDev
    ((s.dev.updLink n.val (fun l => { l with testing := false })).svcDone t .accessError 0).releaseHeld) := by
  change execQuietTimeout n s = _
  rw [execQuietTimeout, onDev, ht]
  dsimp only
  rw [if_pos hr]
  rfl

end

section
variable (ht : s.dev.bst.svc = some t) (hs : t.stage = .prbs) (reason : BitVec 4)
include ht hs

/-- A test without failures counts none: a link trains again, and the other tests end (R563). -/
theorem exec_prbsDone_clean :
    let e := s.dev.fadd Reg.BST_TRANSIENT_COUNT 0
    exec (.prbsDone 0 0 reason) s = .next (s.withDev
      (if t.kind = 1 then (e.setLinkState t.index 1).upBst (fun b => { b with svc := some { t with stage := .restore, result := 0 } })
       else e.svcDone t .ok 0)) := by
  intro e
  change execPrbsDone 0 0 reason s = _
  rw [execPrbsDone, onDev, ht]
  dsimp only
  rw [if_neg (by simp [hr, hs])]
  rfl

end

section
variable {n : Fin 64} (ht : s.dev.svcLink n.val .restore = some t) (lanes : BitVec 4) (lat : BitVec 8)

/-- The link after the training that follows its test: its good lanes are shown and it is under test no more. -/
def Dev.svcTrained (d : Dev) (n : Fin 64) (lanes : BitVec 4) : Dev :=
  (d.fset (Reg.ONF_LINKn_STATE_LANES n.val) (d.goodLanes n.val lanes).toNat).updLink n.val (fun l => { l with testing := false, saved := none })

include ht

/-- Software asked for DISABLED meanwhile (R565). -/
theorem exec_svcRestoreDone_disabled (hd : (s.dev.svcTrained n lanes).fon (Reg.ONF_LINKn_CTL_DISABLE n.val) = true) (ok : Bool) :
    exec (.svcRestoreDone n lanes lat ok) s = .next (s.withDev (((s.dev.svcTrained n lanes).linkOut n.val 6).svcDone t .ok t.result)) := by
  change execSvcRestoreDone n lanes lat ok s = _
  rw [execSvcRestoreDone, onDev, ht]
  dsimp only
  rw [if_neg (by simp [hr]), ← Dev.svcTrained, if_pos hd]
  rfl

section
variable (hd : (s.dev.svcTrained n lanes).fon (Reg.ONF_LINKn_CTL_DISABLE n.val) = false)
include hd

theorem exec_svcRestoreDone_failed : exec (.svcRestoreDone n lanes lat false) s = .next (s.withDev
    ((((s.dev.svcTrained n lanes).linkOut n.val 0).report n.val 0 none).svcDone t .ok t.result)) := by
  change execSvcRestoreDone n lanes lat false s = _
  rw [execSvcRestoreDone, onDev, ht]
  dsimp only
  rw [if_neg (by simp [hr]), ← Dev.svcTrained, if_neg (by simp [hd]), if_pos (.inl rfl)]
  rfl

/-- A link that trained on 3 or 4 lanes resumes where it was saved (R563). -/
theorem exec_svcRestoreDone_resumes (hn : 3 ≤ popBits 4 (s.dev.goodLanes n.val lanes).toNat) {v : LinkSave}
    (hv : (s.dev.onfLink n.val).saved = some v) :
    let g := ((s.dev.svcTrained n lanes).updLink n.val (fun l => { l with txSeq := v.txSeq, rxSeq := v.rxSeq, credits := v.credits })).fset
      (Reg.ONF_LINKn_LAT_LAT0 n.val) v.lat0
    let k := (g.fset (Reg.ONF_LINKn_LAT_LAT_NOW n.val) lat.toNat).setLinkState n.val
      (if popBits 4 (s.dev.goodLanes n.val lanes).toNat = 4 then 3 else 4)
    exec (.svcRestoreDone n lanes lat true) s = .next (s.withDev
      ((k.pump n.val (k.onfLink n.val).queue.length).releaseHeld.svcDone t .ok t.result)) := by
  intro g k
  change execSvcRestoreDone n lanes lat true s = _
  rw [execSvcRestoreDone, onDev, ht]
  dsimp only
  rw [if_neg (by simp [hr]), ← Dev.svcTrained, if_neg (by simp [hd]), if_neg (by simp; omega), hv]
  rfl

end

end

end

end Sys2Proof.Machine
end

section
/-! PROOFS. Self-test at power-on and in service (O47). -/
namespace Sys2Proof.Machine
open Sys2Proof

/-- Settles O47: each clause is the rule of its command or event. -/
theorem selfTestResults : Obligations.SelfTestResults := by
  intro s
  extract_lets d
  refine ⟨fun g hc hk hi hf ht => exec_bistGroupStart_turn hc hk hi hf ht,
    fun g us hs he hi => exec_bistGroupDone_passed hs he hi us,
    fun h c r us hs he hi _ hn => exec_bistGroupDone_hbm h c r us hs he hi hn, fun h index => ?_,
    fun n t hr ht => ⟨exec_linkQuiet_quiet hr ht, exec_quietTimeout_waiting hr ht⟩, fun t reason hr ht hs => ?_,
    fun n lanes lat t hr ht => ?_⟩
  · exact ⟨exec_svcOnaudLink_idle h, exec_svcOnaudLink_refused h, exec_svcD2dSpares_exists h, exec_svcD2dSpares_refused h,
      exec_svcEthPort_down h, exec_svcEthPort_refused h⟩
  · have hclean := exec_prbsDone_clean hr ht hs reason
    exact ⟨fun hk => hclean.trans (by rw [if_pos hk]), fun hk => hclean.trans (by rw [if_neg hk])⟩
  · exact ⟨exec_svcRestoreDone_disabled hr ht lanes lat, exec_svcRestoreDone_failed hr ht lanes lat,
      fun hd hn v hv => exec_svcRestoreDone_resumes hr ht lanes lat hd hn hv⟩

end Sys2Proof.Machine
end

section
/-! PROOFS. The anti-rollback count (O60). -/
namespace Sys2Proof.Machine
open Sys2Proof

/-- Counting the set bits is counting their positions. -/
theorem popBits_eq_length_filter (n x : Nat) : popBits n x = ((List.range n).filter x.testBit).length := by
  induction n generalizing x with
  | zero => rfl
  | succ n ih =>
    have hb : x.testBit ∘ Nat.succ = (x / 2).testBit := funext fun i => Nat.testBit_succ x i
    rw [popBits, ih, List.range_succ_eq_map, List.filter_cons, List.filter_map, hb]
    obtain h | h := Nat.mod_two_eq_zero_or_one x <;> simp [h, Nat.testBit_zero, Nat.add_comm]

theorem popBits_le (n x : Nat) : popBits n x ≤ n := by
  rw [popBits_eq_length_filter]
  exact (List.length_filter_le _ _).trans_eq List.length_range

/-- A count of 32 bits reads back whole. -/
theorem setWidth_lowHalf_ofNat {n : Nat} (h : n < 2 ^ 32) : (lowHalf (BitVec.ofNat 64 n)).setWidth 64 = BitVec.ofNat 64 n := by
  apply BitVec.eq_of_toNat_eq
  simp only [lowHalf, BitVec.toNat_setWidth, BitVec.toNat_ofNat]
  omega

theorem Dev.rollback_eq_length_filter (d : Dev) :
    d.rollback = ((List.range 64).filter (fun i => d.tr.fuses.getLsbD i)).length := popBits_eq_length_filter _ _

theorem Dev.regView_secRollback (d : Dev) : d.regView Reg.SEC_ROLLBACK = BitVec.ofNat 64 d.rollback := rfl

theorem Dev.timed_secRollback (d : Dev) : d.timed Reg.SEC_ROLLBACK = false := by
  have hdrain : famIdx Reg.SEC_ROLLBACK (Reg.VFM_FNf_DRAIN_US 0) 0x400 264 = none := rfl
  rw [Dev.timed, hdrain]
  dsimp only
  decide +kernel

/-- A read of SEC_ROLLBACK clears and takes nothing. -/
theorem Dev.read32_secRollback (d : Dev) : d.read32 Reg.SEC_ROLLBACK = (d, lowHalf (BitVec.ofNat 64 d.rollback)) := by
  have hreg : (findReg Reg.SEC_ROLLBACK).any (fun r => !r.wide && !r.fields.any (fun f => decide (f.acc = .rc))) = true := by
    decide +kernel
  obtain ⟨r, hr, hplain⟩ := (Option.any_eq_true _ _).1 hreg
  simp only [Bool.and_eq_true, Bool.not_eq_true'] at hplain
  obtain ⟨hw, hrc⟩ := hplain
  have heffect : d.readEffect Reg.SEC_ROLLBACK r = d := by
    have htimestamp : famIdx Reg.SEC_ROLLBACK (Reg.ETH_PORTp_TXTS 0) 0x100 32 = none := rfl
    rw [Dev.readEffect, if_neg (by decide), if_neg (by decide), if_neg (by decide), htimestamp]
    simp only [Dev.timed_secRollback, hrc, Bool.false_eq_true, if_false]
  rw [Dev.read32_narrow hr hw, Dev.regView_secRollback, heffect]

theorem exec_rcRead_secRollback {s : State} (ha : s.dev.alive = true) : exec (.rcRead 0 Reg.SEC_ROLLBACK 4) s =
    .next (s.withDev (s.dev.emit (.regRead 0 Reg.SEC_ROLLBACK 4 (BitVec.ofNat 64 s.dev.rollback)))) := by
  have hfits : s.dev.rollback < 2 ^ 32 := (popBits_le 64 _).trans_lt (by norm_num)
  rw [exec_rcRead_word ha rfl, Dev.read32_secRollback, setWidth_lowHalf_ofNat hfits]

/-- Settles O60: the count is the one that a read answers and that check 6 compares. -/
theorem rollbackCount : Obligations.RollbackCount := by
  intro s
  extract_lets d count
  have hcount : d.rollback = count := d.rollback_eq_length_filter
  refine ⟨fun ha => ?_, fun hl hst x hx hh hg => ?_⟩
  · rw [← hcount]
    exact exec_rcRead_secRollback ha
  · extract_lets signed
    have hsigned : (imagePkOk = false ∨ Config.slhVerify Config.imagePk (imgHeader x.bytes) (x.bytes.bytes (x.bytes.len - 7856) 7856) = false) ↔
        ¬ signed = true := by
      rw [Bool.not_eq_true, Bool.and_eq_false_iff]
    rw [exec_imageVerifyDone_verifying hl hst hx hh hg, ← hcount, if_congr hsigned rfl rfl, ite_not]

end Sys2Proof.Machine
end

section
/-! PROOFS. Every command answers a next state and leaves the queue alone, so that a queue runs first in, first out (O53, O54). -/
namespace Sys2Proof.Machine
open Sys2Proof

/-- The block after a command. -/
def Dev.after (d : Dev) (i : Instr) : Dev :=
  match exec i ⟨[], d⟩ with
  | .next s => s.dev
  | _ => d

theorem exec_eq_onDev_of_row {i : Instr} {f : Dev → Dev} (h : ∀ s, exec i s = onDev s f) (s : State) :
    exec i s = onDev s (fun d => d.after i) := by
  have hf (d : Dev) : d.after i = f d := by
    rw [Dev.after, h]
    rfl
  rw [h, onDev, onDev, hf]

/-- Every command is a function of the block alone. A row's meaning unfolds to `onDev` of that function; the two rows with the
longest bodies name theirs, so that the body is not compared with a copy of itself. -/
theorem exec_eq_onDev (i : Instr) (s : State) : exec i s = onDev s (fun d => d.after i) := by
  cases i
  case dma t h f => exact exec_eq_onDev_of_row (i := .dma t h f) (fun s => show execDma t h f s = _ from rfl) s
  case sensorScan r => exact exec_eq_onDev_of_row (i := .sensorScan r) (fun s => show execSensorScan r s = _ from rfl) s
  all_goals rfl

theorem exec_eq_next (i : Instr) (s : State) : exec i s = .next (s.withDev (s.dev.after i)) := exec_eq_onDev i s

/-- Settles O53: what a command makes of the block is `Dev.after`. -/
theorem commandsAlwaysComplete : Obligations.CommandsAlwaysComplete :=
  fun i d => ⟨d.after i, fun q => exec_eq_next i ⟨q, d⟩⟩

theorem step_cons (c : Instr) (q : List Instr) (d : Dev) : step ⟨c :: q, d⟩ = .next ⟨q, d.after c⟩ := by
  rw [step_of_pending rfl]
  exact exec_eq_next c ⟨q, d⟩

/-- As many steps as a queue holds commands run those commands in their order. -/
theorem runSteps_append (a q : List Instr) (d : Dev) : runSteps a.length ⟨a ++ q, d⟩ = .next ⟨q, a.foldl Dev.after d⟩ := by
  induction a generalizing d with
  | nil => rfl
  | cons c a ih =>
    rw [List.length_cons, List.cons_append, runSteps, step_cons]
    exact ih (d.after c)

/-- Settles O54: a queue runs by `runSteps_append`, and two parts of one run as their fold over both. -/
theorem queueInOrder : Obligations.QueueInOrder := by
  intro a b d
  refine ⟨a.foldl Dev.after d, b.foldl Dev.after (a.foldl Dev.after d), fun q =>
    ⟨runSteps_append a _ d, runSteps_append b q _, ?_, fun c => ?_⟩⟩
  · rw [← List.foldl_append, ← List.length_append]
    exact runSteps_append (a ++ b) q d
  · have h := runSteps_append [c] q d
    exact h.trans (exec_eq_next c ⟨q, d⟩).symm

end Sys2Proof.Machine
end
